-- ==== Sys2Proof/Word.lean ====
section
/-!
DEFINITION. The word types of the SX1024's register space, lines and numbered resources, and the plainest
synonyms. Nothing here carries a rule of its own.
-/
namespace Sys2Proof

/-- One byte. -/
abbrev Byte := BitVec 8
/-- One 32-bit register word (22_register_map.md R597). -/
abbrev Word := BitVec 32
/-- The 64 data bytes of a line (00_scope.md, "line"). -/
abbrev Line := BitVec 512
/-- One bit for each byte of a line. -/
abbrev Mask := BitVec 64

/-- A port number: the number of its lowest lane (06_ports.md). -/
abbrev Port := Fin 1024
/-- A lane number. -/
abbrev Lane := Fin 1024
/-- A tenancy number T0 to T4095. -/
abbrev Ten := Fin 4096
/-- A binding window number W0 to W65535. -/
abbrev Win := Fin 65536
/-- A host identity H0 to H255. -/
abbrev HostId := Fin 256
/-- A slot power channel SC0 to SC63. -/
abbrev Chan := Fin 64
/-- A lane group, an XBR group port or a prefect form, 0 to 63. -/
abbrev Grp := Fin 64
/-- A SerDes tile ST0 to ST7. -/
abbrev SerTile := Fin 8
/-- A care device page 0 to 511. -/
abbrev CarePage := Fin 512
/-- A management core MC0 to MC3. -/
abbrev Core := Fin 4
/-- A management port, 0 or 1. -/
abbrev MgmtPort := Fin 2
/-- A rake slot 0 to 127. -/
abbrev RakSlot := Fin 128
/-- A pool tile index; the pool holds at most 2^29 tiles (09_tile_map.md R289). -/
abbrev Tile := Fin 536870912
/-- A pool line index: the pool address divided by 64, 44 bits. -/
abbrev PLine := Fin 17592186044416
/-- An interrupt ID, 0 to 4095. -/
abbrev IrqId := Fin 4096

/-- Sparse data by number: pairs (key, value), keys strictly rising, no pair whose value is what an unlisted key
reads as. -/
abbrev KV (α : Type) := List (Nat × α)

end Sys2Proof
end

