-- ==== Sys2Proof/Syntax.lean ====
section
/-!
DEFINITION. The commands of the SX1024: one constructor of `Instr` for each row of spec/opcode_table.json, with the
operands that the row's rule needs. Data that only the outside knows (a partner's flit, a device's answer, a
measured level, a choice the firmware images make) is an operand. A register write that has a row of its own carries
the access path and the field value; `registerWrite` carries a whole word.
-/
namespace Sys2Proof

/-- The three access paths of the register space (22_register_map.md R596): the manager function of a port, the management
cores and the bridge. -/
inductive Path where
  | mgr (p : Port) | core | bridge
deriving DecidableEq, Repr

/-- The two supplies whose levels R90 to R96 govern. -/
inductive Supply where
  | vin | vaux
deriving DecidableEq, Repr

/-- The cause of a port reset: a fundamental or a hot reset of the port (00_scope.md R18). -/
inductive PortResetKind where
  | fundamental | hot
deriving DecidableEq, Repr

/-- What receiver equalization found on one lane (04_lanes.md R126): taps 1 to 12, the three floating taps as position
and value, the CTLE peaking, the transmitter preset in use and the incoming frequency offset. -/
structure LaneAdapt where
  taps : List (BitVec 8)
  ftaps : List (Fin 128 × BitVec 8)
  peak : Fin 32
  txpre : Fin 16
  ppm : BitVec 16
deriving DecidableEq, Repr

/-- A scan of the data register that an instruction selects (02_package_pins.md R82 to R86): what the observed lands
hold at the capture, and the bits shifted in at TDI, first bit first. No bits: no scan. -/
structure TapScan where
  lands : BitVec 3171
  tdi : List Bool
deriving DecidableEq, Repr

/-- The offset that a PCIe margining command asks for (04_lanes.md R152): up to 32 timing steps, early or late, or up to
64 voltage steps, down or up. -/
inductive MarginStep where
  | timing (late : Bool) (n : Fin 33)
  | voltage (up : Bool) (n : Fin 65)
deriving DecidableEq, Repr

/-- What PCIe training settled, as the link state machine and the lanes found it (05_links.md, 04_lanes.md R123 to
R139, 06_ports.md R209 to R215). -/
structure TrainInfo where
  rate : Fin 7
  width : Fin 17
  flit : Bool
  selnakP : Bool
  /-- An alternate protocol, CXL, was negotiated, and the partner sent X128 in it (R213, R214). -/
  altProto : Bool
  x128P : Bool
  reversed : Bool
  inverted : Mask
  partnerPrecode : Mask
  eqFail128 : Bool
  peerId : Fin 4096
  /-- Credits that the partner advertises, by class of R163, and then for the headers of posted requests (R164). -/
  credits : List (Fin 4096)
  /-- What equalization found, lane by lane from the port's lowest. -/
  lanes : List LaneAdapt
deriving DecidableEq, Repr

/-- What a device-facing port reads from the device behind it (06_ports.md R208, R220, R222). -/
structure DeviceInfo where
  type3 : Bool
  hasMem : Bool
  mld : Bool
  ldCount : Fin 17
  /-- Its capacity in bytes. -/
  bytes : Nat
  serial : Nat
  lifeUsed : Fin 101
  /-- Device tiles of the entries of the device's poison list (11_media_care.md R366). -/
  poison : List Nat
deriving DecidableEq, Repr

/-- Why an edge link goes down (05_links.md R168): the link state machine leaves Recovery for Detect or Disabled, or
the replay count exceeds its limit once more. The other causes of R168 are commands of their own. -/
inductive DownCause where
  | recoveryFailed | replayLimit
deriving DecidableEq, Repr

/-- What the FEC and the CRC of a received flit found (05_links.md R156, R157): symbols in error in each of the three
interleaves, and whether the CRC passes after correction. A flit in non-flit mode has its LCRC only. -/
structure FlitCheck where
  symbols : List Nat
  crc : Bool
deriving DecidableEq, Repr

/-- The messages that links and packets carry (05_links.md R163, R164): CXL.mem, CXL.io and CXL.cache. -/
inductive MsgType where
  | memReq | biSnp | ndr | biRsp | biConflict | rwd | drs | writeback
  | ioNonPosted | ioPosted | ioCpl | ioCplData
  | cacheReq | cacheRsp | cacheData
deriving DecidableEq, Repr

/-- The message a flit carries, or a part of it: whether it is the message's first flit, and the lines of data in it. -/
structure FlitMsg where
  typ : MsgType
  first : Bool
  dataLines : Fin 16
  msg : Nat
deriving DecidableEq, Repr

/-- A flit received: its check, its sequence number, its message, and its credit return fields, one total for each class
(05_links.md R156, R165). -/
structure FlitRx where
  check : FlitCheck
  seq : Fin 1024
  msg : Option FlitMsg
  rets : List (Fin 4096)
deriving DecidableEq, Repr

/-- The partner's width request that meets one of ours (05_links.md R188, R189): the width it asks for, and, on an edge
link, whether the L0p rules give it the change. -/
structure WidthPeer where
  width : Fin 17
  wins : Bool
deriving DecidableEq, Repr

/-- How a fetch of a stored line ends at each copy's device (09_tile_map.md R309, R311): true is a failure. -/
structure CopyReads where
  aFail : Bool
  bFail : Bool
deriving DecidableEq, Repr

/-- A marks record of the marks channel (05_links.md R193), with how the fetch of its entry ends where the map needs one. -/
structure MarkRec where
  tile : Tile
  rd : Fin 256
  wr : Fin 256
  reads : CopyReads := { aFail := false, bFail := false }
deriving DecidableEq, Repr

/-- MetaValue of a CXL.mem request: Invalid, Shared, Any (12_coherence.md R395). -/
inductive MetaVal where
  | i | s | a
deriving DecidableEq, Repr

/-- The AtomicOps of PCIe (12_coherence.md R416). -/
inductive AtomicKind where
  | fetchAdd | swap | cas
deriving DecidableEq, Repr

/-- An AtomicOp's operand width in bytes. -/
inductive AtomicWidth where
  | w4 | w8 | w16
deriving DecidableEq, Repr

/-- The three answers of a BIRsp (12_coherence.md R396). -/
inductive BiRsp where
  | i | s | e
deriving DecidableEq, Repr

/-- How a device completes a request (11_media_care.md R379, 06_ports.md R631). -/
inductive DevStatus where
  | ok | poison | error
deriving DecidableEq, Repr

/-- How a map change ends at the copies' devices (09_tile_map.md R304): its two writes, true being a failure, and the
fetch of the tile's line where the cache does not hold it. -/
structure CopyWrites where
  aFail : Bool
  bFail : Bool
  rd : CopyReads := { aFail := false, bFail := false }
deriving DecidableEq, Repr

/-- Which map command interface is used (09_tile_map.md R299). -/
inductive MapIface where
  | software
  | form (f : Grp)
deriving DecidableEq, Repr

/-- Errors the SECDED of a table reports while one request passes it: of the window table (R264), the map cache
(R313) and the roll (R419): corrected or uncorrectable. -/
structure Ecc where
  bndCor : Bool := false
  bndUe : Bool := false
  mapUe : Bool := false
  rolCor : Bool := false
  rolUe : Bool := false
  rolTagUe : Bool := false
  /-- Of the HOSTID window of the face, and of the ROUTE window toward a home that is another SX1024 (R264). -/
  hidCor : Bool := false
  hidUe : Bool := false
  rteCor : Bool := false
  rteUe : Bool := false
  /-- Of the slate entry that the request reads (13_ordering.md R444): 0 nothing, 1 a corrected error, 2 an uncorrectable
  data error, 3 an address that cannot be read from either copy. -/
  slt : Fin 4 := 0
deriving DecidableEq, Repr

/-- A pool request of another SX1024 that a trunk packet carries to its home (08_binding.md R268 to R270). -/
structure ExportReq where
  fsid : Fin 4096
  addr : Nat
  write : Bool
  mask : Mask
  data : Line
  poison : Bool
  tag : Nat
deriving DecidableEq, Repr

/-- What kind of message a packet is for the ordering rules of R234: CXL.mem or CXL.cache, or CXL.io posted,
non-posted or completion. -/
inductive IoKind where
  | mem | posted | nonPosted | completion
deriving DecidableEq, Repr

/-- A packet offered to the switch core (07_switch_core.md R242): its lines of data, its cells and how many of them
have arrived, its ordering attribute (R234), and what it carries. `answers` is the request that it is the last completion
of. -/
structure PktIn where
  id : Nat
  ingress : Port
  egress : Port
  typ : MsgType
  lines : Fin 256
  cells : Fin 128
  arrived : Fin 128
  relaxed : Bool
  pool : Bool
  ten : Option Ten
  pbrId : Option (Fin 4096)
  forerunner : Bool
  answers : Option Nat
  exportReq : Option ExportReq
deriving DecidableEq, Repr

/-- An error met where the scheduler reads a cell (07_switch_core.md R240, R259): a corrected or an uncorrectable error of
the cell, or a parity failure of the packet's descriptor or reference count. -/
inductive CellErr where
  | corrected | uncorrectable | parity
deriving DecidableEq, Repr

/-- Where a slot meets it: a packet, unicast or multicast, and the number of the cell read. -/
structure SlotErr where
  pkt : Nat
  multicast : Bool
  cell : Nat
  err : CellErr
deriving DecidableEq, Repr

/-- A device tile chosen by the prefects: device face and DTILE (09_tile_map.md R294). -/
structure Loc where
  port : Port
  dtile : Fin 4194304
deriving DecidableEq, Repr

/-- A choice of firmware for one move or placement: the device tile or tiles it picked, and how the copy writes end. -/
structure PlaceChoice where
  a : Loc
  b : Loc
  cw : CopyWrites
deriving DecidableEq, Repr

/-- A heat or care move that the prefects issue: the tile and the device tile they picked. -/
structure MovePick where
  tile : Tile
  dest : Loc
  cw : CopyWrites
deriving DecidableEq, Repr

/-- What a health poll found (11_media_care.md R366, R367). -/
structure HealthReport where
  maint : Bool
  degraded : Bool
  replace : Bool
  life : Fin 101
  temp : BitVec 10
  defectTiles : List Nat
  secs : Nat
deriving DecidableEq, Repr

/-- A fault injected by a page itself: which of its PG_ERR bits. -/
abbrev ErrBit := Fin 16

/-- An MCTP packet as the bridge receives it (19_bridge.md R553). -/
structure MctpPkt where
  dstEid : Fin 256
  srcEid : Fin 256
  som : Bool
  eom : Bool
  seq : Fin 4
  tag : Fin 8
  msgType : Fin 128
  payload : List Byte
  pecOk : Bool
deriving DecidableEq, Repr

/-- The header of an MCTP message: its source and destination endpoint IDs (19_bridge.md R552). -/
structure MctpHead where
  src : Fin 256
  dst : Fin 256
deriving DecidableEq, Repr

/-- Where a fabric manager command comes from (19_bridge.md R554): an endpoint over MCTP, or the CCI mailbox of a
pool face (06_ports.md R206). -/
inductive FmSource where
  | mctp (k : MgmtPort) (h : MctpHead)
  | cci (p : Port)
deriving DecidableEq, Repr

/-- A page of the register space, named by its byte address divided by 4,096. -/
abbrev PageNo := Fin 32768

/-- The rails of a fault link as FLT sees them: the pairs of D1 and D0, each its high rail first, as they have stood for
so many nanoseconds, counted from the rise of the acknowledge where it is high (16_faults.md R491, R492). -/
structure LinkSeen where
  d1 : Bool × Bool
  d0 : Bool × Bool
  acked : Bool
  ns : Nat
deriving DecidableEq, Repr

/-- The responder an SPDM request reaches (20_security.md R575): over MCTP, or the DOE mailbox of a port. -/
inductive SpdmVia where
  | mctp
  | doe (p : Port)
deriving DecidableEq, Repr

/-- The commands of the block: one constructor per row of spec/opcode_table.json, in the table's order. -/
inductive Instr where
  -- supplies, temperature and the voltage loop (03_power_start.md)
  | supplyValid (rail : Supply) (mv : Fin 4096)
  | supplyLoss (rail : Supply) (mv : Fin 4096)
  | pwrWarn (mv : Fin 4096)
  | pwrWarnClear (mv : Fin 4096)
  | pwrAuxWarn (mv : Fin 4096)
  | pwrTjWarn (sensor : Fin 16) (tj : BitVec 10)
  | pwrTjWarnClear (sensor : Fin 16) (tj : BitVec 10)
  | pwrThermtrip (sensor : Fin 16) (tj : BitVec 10)
  | thermalRestart (sensor : Fin 16) (tj : BitVec 10)
  | paceMeterWindow (paces : List (Fin 2048))
  | voltageLoopCompare
  -- start and resets
  | startTime0
  | staggerStageStart
  | stageComplete (k : Fin 15)
  | pwrStageTimeout (k : Fin 15)
  | prefectImageLoad
  | resetNAssert
  | glbReset (pa : Path) (key : Fin 65536)
  | portReset (p : Port) (kind : PortResetKind)
  -- the time base (22_register_map.md)
  | tmbStall
  | tmbResumed
  | tmbOfsLoWrite (pa : Path) (v : Word)
  | tmbOfsHiWrite (pa : Path) (v : Word)
  | tmbRackLoRead (pa : Path)
  -- sideband chain and test access port (02_package_pins.md)
  | sbcFrame (img : BitVec 1024)
  | tapReset
  | tapExtest (scan : TapScan)
  | tapSamplePreload (scan : TapScan)
  | tapIdcode (scan : TapScan)
  | tapHighz (scan : TapScan)
  | tapClamp (scan : TapScan)
  | tapExtestPulse (scan : TapScan)
  | tapExtestTrain (scan : TapScan)
  | tapBypass (opcode : BitVec 8) (scan : TapScan)
  -- lanes and links (04_lanes.md, 05_links.md)
  | linkTrain (p : Port) (info : TrainInfo)
  | linkL0 (p : Port) (dev : DeviceInfo)
  | trackingUpdate (l : Lane) (tap : Fin 16) (up : Bool)
  | floatingTapReeval (l : Lane) (i : Fin 3) (pos : Fin 128)
  | phyAdaptSat (l : Lane)
  | laneFreeze (pa : Path) (l : Lane) (on : Bool)
  | lanePowerDown (pa : Path) (l : Lane) (on : Bool)
  | phyCdrLoss (l : Lane)
  | phyRefclkLoss (k : SerTile)
  | phyPllUnlock (k : SerTile)
  | phyRefPpm (k : SerTile) (ppm : BitVec 16)
  | refselWrite (pa : Path) (k : SerTile) (sel : Bool)
  | loopbackEnter (pa : Path) (l : Lane) (lb : Fin 8) (adapt : LaneAdapt)
  | loopbackFeSignal (l : Lane) (adapt : LaneAdapt)
  | loopbackExit (pa : Path) (l : Lane)
  | loopbackFollower (p : Port) (enter : Bool)
  | generatorEnable (pa : Path) (l : Lane) (on : Bool)
  | checkerEnable (pa : Path) (l : Lane) (on : Bool)
  | phyChkLoss (l : Lane) (clean : Nat) (errors : Fin 4097)
  | marginGo (pa : Path) (l : Lane)
  | marginDone (l : Lane) (errs : Nat)
  | pcieMarginCommand (l : Lane) (off : MarginStep) (eye : Fin 3)
  | flitReceive (p : Port) (f : FlitRx)
  | nakReceive (p : Port) (seq : Fin 1024)
  | ackSend (p : Port)
  | ackReceive (p : Port) (seq : Fin 1024)
  | creditReturnSend (p : Port) (cls : Fin 5)
  | retrainSpentClear (p : Port)
  | linkRecovery (p : Port)
  | lnkRetrain (pa : Path) (p : Port)
  | linkDown (p : Port) (cause : DownCause)
  | partnerHotReset (p : Port) (hot : Bool)
  | trunkLockTmrExpiry (p : Port)
  | failoverResendReceive (p : Port) (f : FlitRx) (orig : Fin 1024)
  | failbackHoldExpiry (p : Port)
  | bucketMove (p : Port) (b : Fin 256)
  | pairSplitWrite (pa : Path) (p : Port) (split : Fin 512)
  | widthChangeGo (pa : Path) (p : Port) (peer : Option WidthPeer)
  | widthChangeDone (p : Port)
  | marksFlitSend (p : Port) (nops : Nat)
  | marksFlitReceive (p : Port) (check : FlitCheck) (recs : List MarkRec)
  | marksRecordAgeDrop (p : Port)
  -- ports (06_ports.md)
  | portEnable (pa : Path) (p : Port)
  | portDisable (pa : Path) (p : Port)
  | perstRelease (p : Port)
  | hotaddLinkTimeout (p : Port)
  | memoryActive (p : Port) (dev : DeviceInfo)
  | deviceActiveTimeout (p : Port)
  | prtCplTmo (p : Port) (dtag : Option Nat)
  | attentionButton (p : Port)
  | removeReq (pa : Path) (p : Port)
  | prtProtoErr (p : Port) (nonPosted : Bool) (tag : Nat)
  | slotControlWrite (p : Port) (pwrOff : Bool) (attn : Fin 4) (pwrInd : Fin 4)
  -- switch core (07_switch_core.md)
  | packetArrival (pkt : PktIn) (errs : List SlotErr) (ecc : Ecc)
  | schedulerSlot (errs : List SlotErr)
  | stallTimerExpiry (pkt : Nat)
  | lateRemainder (pkt : Nat) (cells : Fin 128)
  | xbrPmodeWrite (pa : Path) (p : Port) (fr : Bool) (ct : Fin 16)
  -- pool requests (12_coherence.md to 15_mode_matrix.md)
  | memRd (p : Port) (dpa : Nat) (mv : MetaVal) (tag : Nat) (ecc : Ecc)
  | memWr (p : Port) (dpa : Nat) (mv : MetaVal) (tag : Nat) (mask : Mask) (data : Line) (ecc : Ecc)
  | memInv (p : Port) (dpa : Nat) (mv : MetaVal) (tag : Nat) (ecc : Ecc)
  | atomicOp (p : Port) (off : Fin 1048576) (pasid : Option (Fin 1048576)) (kind : AtomicKind) (width : AtomicWidth)
      (operand : BitVec 128) (compare : BitVec 128) (tag : Nat) (ecc : Ecc)
  | deviceCompletion (dport : Port) (dtag : Nat) (status : DevStatus) (data : Line)
  -- binding (08_binding.md)
  | windowWrite (pa : Path) (w : Win) (word : Fin 16) (v : Word)
  | bndDiscard (pa : Path)
  | bndCommit (pa : Path)
  | commitWaitTimeout (dc : Bool)
  | commitApply (dc : Bool) (picks : List MovePick)
  | dcAddResponse (p : Port) (accepted : List Win)
  | dcRelease (p : Port) (w : Win)
  | dcGetExtentList (p : Port)
  | dcEventRecordPlace (p : Port)
  | bndDrainTgtWrite (pa : Path) (v : Word)
  | bndDrained
  -- the tile map (09_tile_map.md)
  | mapPlace (i : MapIface) (cw : CopyWrites)
  | mapMove (i : MapIface) (cw : CopyWrites)
  | mapFree (i : MapIface) (cw : CopyWrites)
  | mapAbort (i : MapIface) (cw : CopyWrites)
  | mapSetlost (i : MapIface) (cw : CopyWrites)
  | mapRetire (i : MapIface) (cw : CopyWrites)
  | mapRead (i : MapIface) (rd : CopyReads)
  | mapCmdBadOp (i : MapIface)
  | mapFlip (t : Tile) (cw : CopyWrites)
  | mapAbortRewrite (t : Tile) (cw : CopyWrites)
  | mapRun (pa : Path)
  | mapInit (pa : Path)
  | mapInitDone
  | mapScrub (badA badB : List Nat)
  | mapRebuild (pa : Path)
  | mapRebuilt
  | mapMissFill (mapLine : Nat) (rd : CopyReads)
  | mapPlaceTimeout (t : Tile)
  | mapRingRead (pa : Path) (choice : Option PlaceChoice)
  | ringItemPlace
  -- marks, placement and the rake (10_placement.md)
  | mrkEnable (pa : Path) (on : Bool)
  | mrkTermEnd (bad : List Nat)
  | mrkSweepDone (durUs : Nat) (picks : List MovePick) (bad : List Nat)
  | rakSlotAssign (slot : RakSlot) (claims : Fin 17)
  | rakLineCopy (slot : RakSlot) (data : Line) (poison : Bool) (claims : Fin 17)
  | rakDstFail (slot : RakSlot) (cw : CopyWrites)
  | rakSrcWaitExpiry (slot : RakSlot) (cw : CopyWrites)
  | rakSrcResume (slot : RakSlot)
  | rakSlotFree (slot : RakSlot)
  | tenJobSubmit (p : Port) (t : Ten) (pasid : Option (Fin 1048576)) (kind : Fin 4)
  | tenJobStart (t : Ten)
  | tenJobChunk (t : Ten) (eccs : List (Nat × Ecc))
  -- media care (11_media_care.md)
  | carDevBind (pa : Path) (d : CarePage) (en : Bool)
  | healthPoll (d : CarePage) (r : HealthReport)
  | carHealthFail (d : CarePage) (secs : Nat)
  | carePassStart (poison : List Loc)
  | carPassDone (durS : Nat) (poison : List Loc)
  | carRingRead (pa : Path) (choice : Option PlaceChoice)
  | mend (good : DevStatus) (data : Line) (writeOk : Bool)
  | twstaleRescan (d : CarePage)
  | lostWaitExpiry (d : CarePage)
  | evacRescan (d : CarePage)
  | evacTimeout (d : CarePage)
  | evacAbort (pa : Path) (d : CarePage) (code : Fin 8)
  -- coherence (12_coherence.md)
  | birspReceive (p : Port) (snoopTag : Nat) (rsp : BiRsp)
  | biconflictReceive (p : Port) (line : PLine) (tag : Nat)
  | lineLockRelease (line : PLine)
  | rolSnpTimeout (snoopTag : Nat)
  | rolScrubDone
  | rolProbe (pa : Path)
  | rolParkHwClr (pa : Path)
  -- slates and bells (13_ordering.md)
  | slateWaitResume (p : Port)
  | slateAgeDrain (p : Port) (line : PLine) (ecc : Fin 4)
  | slateDrainComplete (p : Port) (line : PLine) (ecc : Fin 4)
  | bell (p : Port) (t : Ten) (pasid : Option (Fin 1048576)) (eight : Bool) (tag : Nat)
  | bellComplete (t : Ten)
  | bellLimit (t : Ten) (k : Nat)
  | sltDrain (pa : Path) (p : Port)
  | sltDrainDone (p : Port)
  | lostLinePoisonWrite (line : PLine)
  | sltOccHwClr (pa : Path) (p : Port)
  -- tenancies and shaping (14_tenancy_qos.md)
  | tenEnable (pa : Path) (t : Ten)
  | tenDisable (pa : Path) (t : Ten)
  | tenFreeze (pa : Path) (t : Ten)
  | tenFreezeComplete (t : Ten)
  | tenThaw (pa : Path) (t : Ten)
  | tenReset (pa : Path) (t : Ten)
  | tcSelfReset (p : Port) (t : Ten) (pasid : Option (Fin 1048576))
  | tenResetDrained (t : Ten)
  | tenDrainTimeout (t : Ten)
  | tenSave (pa : Path) (t : Ten)
  | tenRestore (pa : Path) (t : Ten)
  | tenCmdBadOp (pa : Path) (t : Ten)
  | controlPageAccess (p : Port) (off : Fin 16777216) (eight : Bool) (aligned : Bool) (write : Option (BitVec 64))
      (pasid : Option (Fin 1048576)) (tag : Nat)
  | tcLossClr (p : Port) (t : Ten) (pasid : Option (Fin 1048576)) (v : Word)
  | tenLossClr (pa : Path) (t : Ten) (v : Word)
  | bucketRefill
  | shaperRelease (t : Ten)
  | shaperSlotWrite (pa : Path) (t : Ten) (qmax : Option (Fin 2048)) (en : Option Bool)
  -- fault collection (16_faults.md)
  | fltCapture (together : Fin 16)
  | feResetDelay
  | faultHeartbeat (pg : PageNo)
  | fltLink (pg : PageNo) (seen : LinkSeen)
  | fltLinkPoll (pg : PageNo)
  | fltClr (pa : Path) (seq : Fin 65536)
  | errnPulseEnd
  | pgErrInj (pa : Path) (pg : PageNo) (bits : BitVec 16)
  | pgErrMaskWrite (pa : Path) (pg : PageNo) (mask : BitVec 16)
  | pgErrClear (pa : Path) (pg : PageNo) (bits : BitVec 16)
  -- slot power (17_slot_power.md)
  | slpCfgEn (pa : Path) (n : Chan) (en : Bool)
  | slpReqWrite (src : Option Path) (n : Chan) (req : Bool)
  | presenceQualified (n : Chan)
  | presenceRemoval (n : Chan)
  | rampAdmit (n : Chan)
  | gateFull (n : Chan) (vgs : Fin 65536)
  | pgQualified (n : Chan)
  | limitOnset (n : Chan) (isns : Fin 65536)
  | limitEnd (n : Chan) (isns : Fin 65536) (railGood : Bool)
  | faultTimerExpiry (n : Chan)
  | rampTimeout (n : Chan)
  | fastTrip (n : Chan) (isns : Fin 65536)
  | cooldownEnd (n : Chan)
  | hvInValid (cv : Fin 4096)
  | hvInLost (cv : Fin 4096)
  | railGoodEnd (n : Chan) (srail : Fin 65536)
  | railGoodReturn (n : Chan) (srail : Fin 65536)
  | retryClear (n : Chan)
  | slpFetShort (n : Chan) (srail : Fin 65536)
  | slpPeakClr (pa : Path) (n : Chan)
  -- management cores and interrupts (18_mgmt_interrupts.md)
  | coreResetWrite (pa : Path) (c : Core) (rst : Bool)
  | watchdogKick (pa : Path) (c : Core)
  | watchdogExpiry (c : Core)
  | mgtMemUe (c : Core)
  | levelSourceAssert (id : IrqId)
  | mgtSwi (pa : Path) (id : IrqId)
  | mgtClaim (c : Core)
  | mgtComp (c : Core) (id : IrqId)
  | irqConfigWrite (pa : Path) (word : Fin 1024) (v : Word)
  -- the management bridge (19_bridge.md)
  | brgRead (k : MgmtPort) (addr : Word) (pec : Bool)
  | brgWrite (k : MgmtPort) (addr : Word) (v : Word) (pec : Bool)
  | postedWriteApply (k : MgmtPort)
  | brgResult (k : MgmtPort)
  | brgReservedCommand (k : MgmtPort) (code : Fin 256)
  | brgFetchTimeout (k : MgmtPort)
  | i3cSetdasa (k : MgmtPort) (addr : Fin 128)
  | i3cEntdaa (k : MgmtPort) (addr : Fin 128)
  | i3cRstdaa (k : MgmtPort)
  | mctpPacket (k : MgmtPort) (pkt : MctpPkt)
  | mctpReassemblyTimeout (k : MgmtPort) (srcEid : Fin 256) (tag : Fin 8)
  | mctpSetEndpointId (k : MgmtPort) (h : MctpHead) (op : Fin 4) (eid : Fin 256)
  | mctpGetEndpointId (k : MgmtPort) (h : MctpHead)
  | mctpGetEndpointUuid (k : MgmtPort) (h : MctpHead)
  | mctpGetVersionSupport (k : MgmtPort) (h : MctpHead) (msgType : Fin 256)
  | mctpGetMessageTypeSupport (k : MgmtPort) (h : MctpHead)
  | mctpGetVendorMsgSupport (k : MgmtPort) (h : MctpHead) (selector : Fin 256)
  | mctpUnsupportedCmd (k : MgmtPort) (h : MctpHead) (code : Fin 256)
  | fmApiCommand (src : FmSource) (opcode : Fin 65536) (answered : Nat)
  | pldmGetPdrRepositoryInfo (k : MgmtPort) (h : MctpHead)
  | pldmGetPdr (k : MgmtPort) (h : MctpHead) (handle : Nat)
  | pldmGetSensorReading (k : MgmtPort) (h : MctpHead) (sensor : Fin 65536)
  | pldmSetNumericSensorEnable (k : MgmtPort) (h : MctpHead) (sensor : Fin 65536) (en : Bool)
  | pldmSetEventReceiver (k : MgmtPort) (h : MctpHead) (eid : Fin 256)
  | pldmPollForEvent (k : MgmtPort) (h : MctpHead) (ack : Option (Fin 65536))
  | pldmUnsupportedCmd (k : MgmtPort) (h : MctpHead) (typ : Fin 64) (code arg : Fin 256)
  | sensorSample
  | platformEventSend
  | platformEventAck
  | ibiRaise (k : MgmtPort) (won : Bool)
  | alertResponse (k : MgmtPort)
  -- security and prefects (20_security.md)
  | secUpdBegin (pa : Path) (prefect : Bool)
  | secUpdData (pa : Path) (w : Word)
  | secUpdVerify (pa : Path) (prefect : Bool)
  | secUpdActivate (pa : Path) (prefect : Bool)
  | prefectActivationLoad
  | secCommitSvn (pa : Path) (prefect : Bool)
  | secKeyrev (pa : Path) (slots : Fin 16)
  | spdmGetCertificate (via : SpdmVia)
  | spdmChallenge (via : SpdmVia) (nonce : BitVec 256)
  | spdmGetMeasurements (via : SpdmVia) (nonce : BitVec 256)
  | spdmKeyExchange (via : SpdmVia) (exchange : Nat)
  | ideKmQuery (p : Port)
  | ideKmKeyProg (p : Port) (tx : Bool) (set : Fin 2) (key : BitVec 256)
  | ideKmKSetGo (p : Port) (tx : Bool) (set : Fin 2)
  | ideKmKSetStop (p : Port) (tx : Bool) (set : Fin 2)
  | secIdeFail (p : Port)
  | pfxFormHang (f : Grp)
  | pfxMemUe (f : Grp)
  -- counters (21_counters.md)
  | cntSnapGo (pa : Path)
  | cntSnapPeriod
  | cntSnapDone (durNs : Nat)
  | cntFreezeWrite (pa : Path) (on : Bool)
  | pgCselWrite (pa : Path) (pg : PageNo) (i : Fin 16) (v : Word)
  | pgCvalLoWrite (pa : Path) (pg : PageNo) (i : Fin 16) (v : Word)
  | pgCvalHiWrite (pa : Path) (pg : PageNo) (i : Fin 16) (v : Word)
  | pgCvalLoRead (pa : Path) (pg : PageNo) (i : Fin 16)
  | tenantCounterRead (p : Port) (off : Fin 1048576) (eight : Bool) (aligned : Bool) (pasid : Option (Fin 1048576))
      (tag : Nat)
  -- the register space (22_register_map.md)
  | glbFreezeWrite (pa : Path) (on : Bool)
  | pgLockWrite (pa : Path) (pg : PageNo)
  | registerWrite (pa : Path) (addr : Nat) (size : Nat) (v : BitVec 64)
  -- the ends of conditions, and events added at the table's end
  | pwrAuxWarnClear (mv : Fin 4096)
  | phyRefclkReturn (k : SerTile)
  | phyPllRelock (k : SerTile)
  | cdrRelock (l : Lane)
  | checkerLock (l : Lane)
  | orphanScanDone (bad : List Nat)
  | coreEnterSleep (c : Core)
  | clearEventRecords (p : Port) (n : Nat)
  | hdmDecoderProgram (p : Port) (i : Nat) (hostBase : Nat) (size : Nat) (dpaBase : Nat) (commit : Bool)
deriving DecidableEq, Repr

end Sys2Proof
end

