-- ==== Sys2Proof/WellFormed.lean ====
section
/-!
DEFINITION. Which commands have operands of a shape that their row can have. Everything else about operands is in
their types.
-/
namespace Sys2Proof

/-- The command's lists have a length its row can have: sixteen pace meters (03_power_start.md R100), at most 28
records in a marks flit (05_links.md R193), an MCTP packet of at most 64 bytes (19_bridge.md R553). -/
def wellFormed : Instr → Bool
  | .paceMeterWindow ps => ps.length == 16
  | .marksFlitReceive _ _ recs => recs.length ≤ 28
  | .mctpPacket _ pkt => pkt.payload.length ≤ 64
  | _ => true

end Sys2Proof
end

