-- ==== Sys2Proof/Decode.lean ====
section
/-!
DEFINITION. The command that a word of spec/opcode_table.json spells. The table gives no row of this block any bits:
its commands come over buses, links and pins, not as words, so no word spells one.
-/
namespace Sys2Proof

/-- The command a word of `nbits` bits spells by the table's bits: none, for every word (log entry 3). -/
def decodeTableWord (_nbits _w : Nat) : Option Instr := none

end Sys2Proof
end

