-- ==== Sys2Proof/Config.lean ====
section
/-!
DEFINITION. What one unit has fixed for life and what the spec leaves open: constants without a body, so that no proof
can see a value of them. Each is named in the assumption log.
-/
namespace Sys2Proof.Config

/-- A value that the spec leaves open, one for each draw (`Chip.draws`; log entry 6). -/
opaque freeValue : Nat → Nat
/-- The unit's serial number before its bound (22_register_map.md R605; log entry 5). -/
opaque serialSeed : Nat
/-- Fused minimum SVN of the management and the prefect image, and the fused set of revoked key slots
(20_security.md R570; log entry 5). -/
opaque fusedMgtMin : Nat
opaque fusedPfxMin : Nat
opaque fusedKeyRev : Nat
/-- Words 0 to 23 of the DeviceID public key (20_security.md R565; log entry 5). -/
opaque devidPub : Nat → Nat
/-- Whether the identity fuses can be read (20_security.md R566; log entry 5). -/
opaque fusesReadable : Bool
/-- The images that the boot memory holds when power first comes: management A, B, prefect A, B, and the active
slots (20_security.md R569; log entry 5). `true` is slot B. -/
opaque bootImage : Nat → List Nat
opaque bootMgtSlot : Bool
opaque bootPfxSlot : Bool
/-- The fused SHA-384 hash of the public key of each key slot (20_security.md R568; log entry 5). -/
opaque fusedKeyHash : Nat → Nat
/-- The signed data that SEC answers an SPDM request with: by request, over the seed of its Alias key, the request's own data
and the measurements (20_security.md R565, R575, R576; log entry 60). -/
opaque spdmData : Nat → Nat → List Nat → List Nat → List Nat
/-- The bytes of the device secret (20_security.md R565; log entry 5). -/
opaque deviceSecret : List Nat
/-- The digest of the boot ROM, and the bytes over which measurements 4 and 5 are taken, by block and subjects
(20_security.md R576; log entry 60). -/
opaque romDigest : Nat
opaque measuredBytes : Nat → List Nat → List Nat
/-- The endpoint's UUID, for which the spec gives no value (19_bridge.md R552; log entry 86). -/
opaque endpointUuid : Nat
/-- Byte i of the 64 that AES-XTS-256 takes, of a sealing key, which has 48 (20_security.md R565, R579; log entry 61). -/
opaque xtsKeyByte : Nat → Nat → Nat
/-- The strap lands MADDR0 to MADDR2 as sampled at a reset, and TESTEN (02_package_pins.md R73, R74; log entry 12). -/
opaque maddrStrap : Nat → Nat
opaque testen : Bool
/-- The phase at which a pseudo-random generator starts, and the symbol sequences that other standards define: PRBS13Q and
SSPRQ of IEEE 802.3, the PCIe compliance pattern of a rate (04_lanes.md R147; log entry 93). -/
opaque prbsSeed : Nat → Nat
opaque prbs13q : Nat → Nat
opaque ssprq : Nat → Nat
opaque compliance : Nat → Nat → Nat
/-- Whether an inexact device-age step is rounded up, by seconds, temperature, TREF and HALVE (11_media_care.md R375;
log entry 42). -/
opaque ageRound : Nat → Nat → Nat → Nat → Bool
/-- Records a pool face's Dynamic Capacity event log has room for (08_binding.md R634; log entry 31). -/
opaque dcLogRoom : Nat
/-- Number of receive buffers of a port's class (05_links.md R163; log entry 20). -/
opaque bufferCount : Nat → Nat → Nat
/-- Group port that serves a roll slice's packets (07_switch_core.md R241; log entry 26). -/
opaque rollGroup : Nat → Nat
/-- Bucket of a trunk pair that a packet's source port and destination PBR ID hash to (05_links.md; log entry 23). -/
opaque bucketHash : Nat → Nat → Nat

/-- The serial number: never 0 and never all ones (22_register_map.md R605). -/
def serial : Nat := 1 + serialSeed % (2 ^ 64 - 2)

end Sys2Proof.Config
end

