-- ==== Sys2Proof/Machine/Bits.lean ====
section
/-!
DEFINITION. Bit-field, saturation and serial-number helpers over natural numbers.
-/
namespace Sys2Proof.Machine

/-- Bits [lo + w - 1 : lo] of a word (00_scope.md R5). -/
def bits (v lo w : Nat) : Nat := v / 2 ^ lo % 2 ^ w

/-- Bit i of a word. -/
def bit (v i : Nat) : Bool := v / 2 ^ i % 2 == 1

/-- 1 for true, 0 for false. -/
def b2n (b : Bool) : Nat := if b then 1 else 0

/-- A word with bit i set. -/
def setBit (v i : Nat) : Nat := if bit v i then v else v + 2 ^ i

/-- A word with bit i cleared. -/
def clearBit (v i : Nat) : Nat := if bit v i then v - 2 ^ i else v

/-- The bits of a that are 0 in b. -/
def andNot (a b : Nat) : Nat := a - Nat.land a b

/-- A saturating sum within w bits. -/
def satAdd (w a b : Nat) : Nat := min (a + b) (2 ^ w - 1)

/-- A number within one of the ranges of a field (00_scope.md R10). -/
def inRanges (rs : List (Nat × Nat)) (v : Nat) : Bool := rs.any fun r => r.1 ≤ v && v ≤ r.2

/-- SEQ a is b or earlier, compared as serial numbers modulo 65,536 (16_faults.md R497). -/
def seqLe16 (a b : Nat) : Bool := (b + 65536 - a % 65536) % 65536 < 32768

/-- Flit number distance from a to b modulo 1,024 (05_links.md). -/
def flitDist (a b : Nat) : Nat := (b + 1024 - a % 1024) % 1024

/-- Bits set among the lowest n bits of a word. -/
def popCount : Nat → Nat → Nat
  | 0, _ => 0
  | n + 1, v => b2n (bit v n) + popCount n v

/-- Two's complement of w bits as an integer. -/
def toInt (w v : Nat) : Int := if v < 2 ^ (w - 1) then (v : Int) else (v : Int) - (2 ^ w : Nat)

/-- An integer as w bits of two's complement. -/
def ofInt (w : Nat) (x : Int) : Nat := (x % (2 ^ w : Nat)).toNat

/-- Position of the first element that meets a test. -/
def indexOf? {α : Type} (p : α → Bool) : List α → Option Nat
  | [] => none
  | x :: xs => if p x then some 0 else (indexOf? p xs).map (· + 1)

/-- A list with the element at a position changed. -/
def mapAt {α : Type} (l : List α) (i : Nat) (f : α → α) : List α :=
  match l, i with
  | [], _ => []
  | x :: xs, 0 => f x :: xs
  | x :: xs, i + 1 => x :: mapAt xs i f

/-- A list without the first element that meets a test. -/
def dropFirst {α : Type} (p : α → Bool) : List α → List α
  | [] => []
  | x :: xs => if p x then xs else x :: dropFirst p xs

/-- A number added at the end of a list that does not hold it. -/
def addNew (l : List Nat) (n : Nat) : List Nat := if l.contains n then l else l ++ [n]

/-- A list without a number. -/
def without (l : List Nat) (n : Nat) : List Nat := l.filter (· != n)

/-- The least of a list by a measure. -/
def minBy {α : Type} (f : α → Nat) : List α → Option α
  | [] => none
  | x :: xs => match minBy f xs with
    | none => some x
    | some y => if f y < f x then some y else some x

/-- An element put into a list that is in rising order of a measure. -/
def insertBy {α : Type} (f : α → Nat) (x : α) : List α → List α
  | [] => [x]
  | y :: ys => if f x ≤ f y then x :: y :: ys else y :: insertBy f x ys

/-- A list in rising order of a measure. -/
def sortBy {α : Type} (f : α → Nat) (l : List α) : List α := l.foldr (insertBy f) []

def sortNat (l : List Nat) : List Nat := sortBy id l

end Sys2Proof.Machine
end

