-- ==== Sys2Proof/Machine/Regs.lean ====
section
/-!
DEFINITION. The register pages and every register field of the part, one `Fld` each, named as the manual names them
(register, field): where it lies, its access type, its reset value and the values a write may set. A field marked
`view` is computed when it is read (Machine/RegRead.lean).
-/
namespace Sys2Proof.Machine

/-- The kinds of register page (22_register_map.md R601). -/
inductive PK where
  | glb | pwr | flt | sec | mgtC | mgtCore | mgtCfg | brgC | brgPort | brgSbc | brgSens | slp | tmb | cnt
  | xbrG | xbrC | rolC | rolS | map | mrk | rak | carD | carC | phyG | phyT | lnk | prt | bnd | ten
  | pfxF | pfxC | slt | shpT | shpP
deriving DecidableEq, Repr

/-- Access types (00_scope.md R13). -/
inductive Acc where
  | ro | rw | rw1c | rw1s | wo | rwl | rws
deriving DecidableEq, Repr

/-- How a field's reset value is found. -/
inductive RstKind where
  | const | first | irqPrio | irqMask | errSev
deriving DecidableEq, Repr

/-- A field of a register page: word offset, lowest bit, width, access, reset value, the number of like words and
their distance, and the ranges a write may set (none: every value of its width). -/
structure Fld where
  pk : PK
  off : Nat
  lo : Nat
  w : Nat
  acc : Acc
  rst : Nat
  cnt : Nat := 1
  stride : Nat := 4
  rng : List (Nat × Nat) := []
  rk : RstKind := .const
  view : Bool := false
deriving DecidableEq, Repr

/-- Page number of page 0 of a kind, and how many pages it has (R601). -/
def pageBase : PK → Nat
  | .glb => 0x0 | .pwr => 0x10 | .flt => 0x20 | .sec => 0x30 | .mgtC => 0x40 | .mgtCore => 0x41 | .mgtCfg => 0x48
  | .brgC => 0x80 | .brgPort => 0x81 | .brgSbc => 0x83 | .brgSens => 0x84 | .slp => 0xA0 | .tmb => 0xE0
  | .cnt => 0xF0 | .xbrG => 0x100 | .xbrC => 0x140 | .rolC => 0x200 | .rolS => 0x210 | .map => 0x300
  | .mrk => 0x400 | .rak => 0x480 | .carD => 0x500 | .carC => 0x720 | .phyG => 0x1000 | .phyT => 0x1040
  | .lnk => 0x1400 | .prt => 0x1800 | .bnd => 0x700 | .ten => 0x2000 | .pfxF => 0x3000 | .pfxC => 0x3040
  | .slt => 0x4000 | .shpT => 0x4400 | .shpP => 0x5400

def pageCount : PK → Nat
  | .mgtCore => 4 | .mgtCfg => 4 | .brgPort => 2 | .slp => 64 | .xbrG => 64 | .rolS => 32 | .carD => 512
  | .phyG => 64 | .phyT => 8 | .lnk => 1024 | .prt => 1024 | .ten => 4096 | .pfxF => 64 | .slt => 1024
  | .shpT => 4096 | .shpP => 1024
  | .glb => 1 | .pwr => 1 | .flt => 1 | .sec => 1 | .mgtC => 1 | .brgC => 1 | .brgSbc => 1 | .brgSens => 1
  | .tmb => 1 | .cnt => 1 | .xbrC => 1 | .rolC => 1 | .map => 1 | .mrk => 1 | .rak => 1 | .carC => 1 | .bnd => 1
  | .pfxC => 1

/-- Page number of page n of a kind. -/
def pageOf (k : PK) (n : Nat) : Nat := pageBase k + n

/-- Every kind of page. -/
def allPK : List PK :=
  [.glb, .pwr, .flt, .sec, .mgtC, .mgtCore, .mgtCfg, .brgC, .brgPort, .brgSbc, .brgSens, .slp, .tmb, .cnt, .xbrG,
   .xbrC, .rolC, .rolS, .map, .mrk, .rak, .carD, .carC, .phyG, .phyT, .lnk, .prt, .bnd, .ten, .pfxF, .pfxC, .slt,
   .shpT, .shpP]

/-- The kind and number of a page (R599: none for a page of no block). -/
def pageKind (pg : Nat) : Option (PK × Nat) :=
  (allPK.find? fun k => pageBase k ≤ pg && pg < pageBase k + pageCount k).map fun k => (k, pg - pageBase k)

/-- A page of the binding window table (R601). -/
def isWindowPage (pg : Nat) : Bool := 0x1C00 ≤ pg && pg < 0x2000

/-- Block code of R496. -/
def blockOf : PK → Nat
  | .glb => 0 | .pwr => 1 | .flt => 2 | .sec => 3 | .mgtC | .mgtCore | .mgtCfg => 4
  | .brgC | .brgPort | .brgSbc | .brgSens => 5 | .slp => 6 | .tmb => 7 | .cnt => 8 | .xbrG | .xbrC => 9
  | .rolC | .rolS => 10 | .map => 11 | .mrk => 12 | .rak => 13 | .carD | .carC => 14 | .phyG | .phyT => 15
  | .lnk => 16 | .prt => 17 | .bnd => 18 | .ten => 19 | .pfxF | .pfxC => 20 | .slt => 21 | .shpT | .shpP => 22

/-- Instance of page n of a kind (R601). -/
def instOf : PK → Nat → Nat
  | .mgtCore, n => 1 + n | .mgtCfg, n => 8 + n | .brgPort, n => 1 + n | .brgSbc, _ => 3 | .brgSens, _ => 4
  | .xbrC, _ => 64 | .rolS, n => 16 + n | .carC, _ => 544 | .phyT, n => 64 + n | .pfxC, _ => 64
  | .shpP, n => 4096 + n | _, n => n

/-- Stated severity of each PG_ERR bit of a page kind, bit 0 first: 0 CE, 1 UC, 2 FE (the owning chapters). -/
def errSevs : PK → List Nat
  | .glb => [0] | .pwr => [0, 0, 0, 0, 0, 2] | .flt => [1] | .sec => [0, 1, 1, 0, 0, 2] | .mgtC => [0, 2]
  | .mgtCore => [1, 0, 1] | .brgC => [0] | .brgPort => [0, 0] | .brgSbc => [1] | .slp => [0, 1, 0, 1, 1]
  | .tmb => [2] | .cnt => [0] | .xbrG => [0, 0, 1] | .xbrC => [2] | .rolC => [0, 0, 1, 1, 1, 1, 2]
  | .map => [0, 0, 0, 1, 1, 1, 1, 2] | .mrk => [0, 0, 0] | .rak => [0, 0, 1] | .carC => [1, 1, 1, 0, 0, 0]
  | .carD => [0, 0, 0, 1, 0] | .phyG => [0, 0, 0] | .phyT => [1, 1, 0] | .lnk => [0, 0, 1, 1, 1, 1, 1]
  | .prt => [1, 1, 1, 0, 0, 0] | .bnd => [1, 1, 0, 0, 1] | .ten => [0, 0] | .pfxF => [0, 1, 1] | .slt => [1, 0, 1, 2]
  | .mgtCfg | .brgSens | .rolS | .pfxC | .shpT | .shpP => []

/-- Number of PG_EVT_PEND bits a page kind uses (the owning chapters). -/
def evtBits : PK → Nat
  | .glb => 1 | .flt => 1 | .sec => 2 | .mgtC => 1 | .brgC => 1 | .brgSbc => 1 | .slp => 3 | .tmb => 1 | .cnt => 1
  | .rolC => 2 | .map => 3 | .mrk => 2 | .carC => 2 | .carD => 3 | .lnk => 1 | .prt => 3 | .bnd => 5 | .ten => 3
  | .slt => 2 | .shpT => 1
  | .pwr | .mgtCore | .mgtCfg | .brgPort | .brgSens | .xbrG | .xbrC | .rolS | .rak | .phyG | .phyT | .pfxF | .pfxC
  | .shpP => 0

/-- A list of severities as PG_ERR_SEV: bit i in bits [2i + 1 : 2i] (R488). -/
def packSev : List Nat → Nat
  | [] => 0
  | s :: r => s + 4 * packSev r

/-- Default mask of an interrupt ID's block (18_mgmt_interrupts.md R538): a bit for the target core. -/
def irqBlockMask (b : Nat) : Nat :=
  if b ≤ 1 ∨ b = 3 ∨ b = 4 ∨ b = 7 ∨ b = 8 then 1
  else if b = 5 ∨ b = 18 ∨ b = 19 ∨ b = 22 then 2
  else if b = 6 ∨ b = 9 ∨ b = 15 ∨ b = 16 ∨ b = 17 then 4
  else if b ≤ 22 then 8 else 0

def irqMaskReset (id : Nat) : Nat :=
  if id = 0 then 0
  else if 128 ≤ id ∧ id < 192 then (if id ≤ 131 then 4 else 0)
  else if id < 1472 then irqBlockMask (id / 64) else 0

def irqPrioReset (id : Nat) : Nat :=
  if id = 0 then 0
  else if 128 ≤ id ∧ id < 192 then
    (if id = 128 then 1 else if id = 129 then 3 else if id = 130 then 5 else if id = 131 then 7 else 0)
  else if id < 1472 then 1 else 0

/-- Reset value of a field on page n, word i. -/
def rstAt (f : Fld) (n i : Nat) : Nat :=
  match f.rk with
  | .const => f.rst
  | .first => if i = 0 then f.rst else 0
  | .irqPrio => irqPrioReset (n * 1024 + 4 * i + f.lo / 8)
  | .irqMask => irqMaskReset (n * 1024 + 4 * i + f.lo / 8)
  | .errSev => packSev (errSevs f.pk)

/-- The number under which a field is stored: its word's byte address times 32 plus its lowest bit. -/
def fldKey (f : Fld) (n i : Nat) : Nat := ((pageBase f.pk + n) * 4096 + f.off + i * f.stride) * 32 + f.lo

/-! ### The page header (22_register_map.md R602, R603) -/

def PG_LOCK (k : PK) : Fld := { pk := k, off := 0x00C, lo := 0, w := 1, acc := .rwl, rst := 0 }
def PG_CTRL_CFRZ (k : PK) : Fld := { pk := k, off := 0x010, lo := 0, w := 1, acc := .rw, rst := 0 }
def PG_ERR (k : PK) : Fld := { pk := k, off := 0x018, lo := 0, w := 16, acc := .rw1c, rst := 0 }
def PG_ERR_MASK (k : PK) : Fld := { pk := k, off := 0x01C, lo := 0, w := 16, acc := .rw, rst := 0 }
def PG_ERR_SEV (k : PK) : Fld := { pk := k, off := 0x020, lo := 0, w := 32, acc := .rw, rst := 0, rk := .errSev }
def PG_EVT_PEND (k : PK) : Fld := { pk := k, off := 0x028, lo := 0, w := 16, acc := .rw1c, rst := 0 }
def PG_EVT_EN (k : PK) : Fld := { pk := k, off := 0x02C, lo := 0, w := 16, acc := .rw, rst := 0 }

/-! ### Page kind `pwr` (R118, 03_power_start.md) -/

def PWR_VIN_LVL_HYST : Fld := { pk := .pwr, off := 0x040, lo := 16, w := 8, acc := .rwl, rst := 10, rng := [(5, 40)] }
def PWR_VIN_LVL_WARN : Fld := { pk := .pwr, off := 0x040, lo := 0, w := 9, acc := .rwl, rst := 165, rng := [(160, 350)] }
def PWR_VAUX_LVL_HYST : Fld := { pk := .pwr, off := 0x044, lo := 16, w := 8, acc := .rwl, rst := 10, rng := [(5, 40)] }
def PWR_VAUX_LVL_WARN : Fld := { pk := .pwr, off := 0x044, lo := 0, w := 9, acc := .rwl, rst := 165, rng := [(160, 350)] }
def PWR_PACE_TGT_TGT : Fld := { pk := .pwr, off := 0x050, lo := 0, w := 11, acc := .rw, rst := 1024, rng := [(768, 1280)] }
def PWR_PACE_USED : Fld := { pk := .pwr, off := 0x054, lo := 24, w := 5, acc := .ro, rst := 16 }
def PWR_PACE_SLOW : Fld := { pk := .pwr, off := 0x054, lo := 16, w := 4, acc := .ro, rst := 0 }
def PWR_PACE_MEAS : Fld := { pk := .pwr, off := 0x054, lo := 0, w := 11, acc := .ro, rst := 0 }
def PWR_VCORE_HOLD : Fld := { pk := .pwr, off := 0x058, lo := 31, w := 1, acc := .rw, rst := 0 }
def PWR_VCORE_VMAX : Fld := { pk := .pwr, off := 0x058, lo := 16, w := 10, acc := .rwl, rst := 900, rng := [(600, 900)] }
def PWR_VCORE_VCORE : Fld := { pk := .pwr, off := 0x058, lo := 0, w := 10, acc := .ro, rst := 0, view := true }
def PWR_TEMP_SENSOR : Fld := { pk := .pwr, off := 0x060, lo := 12, w := 4, acc := .ro, rst := 0 }
def PWR_TEMP_TJ : Fld := { pk := .pwr, off := 0x060, lo := 0, w := 10, acc := .ro, rst := 0 }
def PWR_TEMP_LVL_TRIP : Fld := { pk := .pwr, off := 0x064, lo := 8, w := 8, acc := .ro, rst := 130 }
def PWR_TEMP_LVL_WARN : Fld := { pk := .pwr, off := 0x064, lo := 0, w := 8, acc := .rwl, rst := 110, rng := [(70, 120)] }
def PWR_VSENSE_VAUX : Fld := { pk := .pwr, off := 0x068, lo := 16, w := 12, acc := .ro, rst := 0 }
def PWR_VSENSE_VIN : Fld := { pk := .pwr, off := 0x068, lo := 0, w := 12, acc := .ro, rst := 0 }
def PWR_HVSENSE_HV_IN : Fld := { pk := .pwr, off := 0x06C, lo := 0, w := 12, acc := .ro, rst := 0 }
def PWR_RSTCAUSE_CAUSE : Fld := { pk := .pwr, off := 0x070, lo := 0, w := 4, acc := .ro, rst := 0 }
def PWR_START_T_USEFUL : Fld := { pk := .pwr, off := 0x074, lo := 16, w := 16, acc := .ro, rst := 0 }
def PWR_START_USEFUL : Fld := { pk := .pwr, off := 0x074, lo := 6, w := 1, acc := .ro, rst := 0 }
def PWR_START_DONE : Fld := { pk := .pwr, off := 0x074, lo := 5, w := 1, acc := .ro, rst := 0 }
def PWR_START_HALT : Fld := { pk := .pwr, off := 0x074, lo := 4, w := 1, acc := .ro, rst := 0 }
def PWR_START_STAGE : Fld := { pk := .pwr, off := 0x074, lo := 0, w := 4, acc := .ro, rst := 0 }
def pwrFields0 : List Fld := [PWR_VIN_LVL_HYST, PWR_VIN_LVL_WARN, PWR_VAUX_LVL_HYST, PWR_VAUX_LVL_WARN, PWR_PACE_TGT_TGT, PWR_PACE_USED, PWR_PACE_SLOW, PWR_PACE_MEAS, PWR_VCORE_HOLD, PWR_VCORE_VMAX, PWR_VCORE_VCORE, PWR_TEMP_SENSOR]
def pwrFields1 : List Fld := [PWR_TEMP_TJ, PWR_TEMP_LVL_TRIP, PWR_TEMP_LVL_WARN, PWR_VSENSE_VAUX, PWR_VSENSE_VIN, PWR_HVSENSE_HV_IN, PWR_RSTCAUSE_CAUSE, PWR_START_T_USEFUL, PWR_START_USEFUL, PWR_START_DONE, PWR_START_HALT, PWR_START_STAGE]
def pwrFields : List Fld := pwrFields0 ++ pwrFields1

/-! ### Page kind `phyG` (R154, 04_lanes.md) -/

def PHY_LG_CTRL_FOLLOW : Fld := { pk := .phyG, off := 0x040, lo := 8, w := 1, acc := .rw, rst := 1 }
def PHY_LG_CTRL_PRECODE : Fld := { pk := .phyG, off := 0x040, lo := 4, w := 2, acc := .rw, rst := 0, rng := [(0, 2)] }
def PHY_LG_CTRL_RATECAP : Fld := { pk := .phyG, off := 0x040, lo := 0, w := 3, acc := .rw, rst := 6, rng := [(0, 6)] }
def PHY_LANE_CTRL_PD : Fld := { pk := .phyG, off := 0x100, lo := 31, w := 1, acc := .rw, rst := 0, cnt := 16, stride := 128 }
def PHY_LANE_CTRL_LB : Fld := { pk := .phyG, off := 0x100, lo := 28, w := 3, acc := .rw, rst := 0, cnt := 16, stride := 128, rng := [(0, 3)] }
def PHY_LANE_CTRL_LBRATE : Fld := { pk := .phyG, off := 0x100, lo := 25, w := 3, acc := .rw, rst := 0, cnt := 16, stride := 128, rng := [(0, 6)] }
def PHY_LANE_CTRL_CLKMODE : Fld := { pk := .phyG, off := 0x100, lo := 22, w := 2, acc := .rw, rst := 0, cnt := 16, stride := 128, rng := [(0, 2)] }
def PHY_LANE_CTRL_POL : Fld := { pk := .phyG, off := 0x100, lo := 20, w := 2, acc := .rw, rst := 0, cnt := 16, stride := 128, rng := [(0, 2)] }
def PHY_LANE_CTRL_FREEZE : Fld := { pk := .phyG, off := 0x100, lo := 19, w := 1, acc := .rw, rst := 0, cnt := 16, stride := 128 }
def PHY_LANE_CTRL_CDR_BW : Fld := { pk := .phyG, off := 0x100, lo := 16, w := 3, acc := .rw, rst := 1, cnt := 16, stride := 128, rng := [(0, 3)] }
def PHY_LANE_STAT_PDACT : Fld := { pk := .phyG, off := 0x104, lo := 31, w := 1, acc := .ro, rst := 0, cnt := 16, stride := 128 }
def PHY_LANE_STAT_LBACT : Fld := { pk := .phyG, off := 0x104, lo := 30, w := 1, acc := .ro, rst := 0, cnt := 16, stride := 128 }
def PHY_LANE_STAT_RATE : Fld := { pk := .phyG, off := 0x104, lo := 27, w := 3, acc := .ro, rst := 0, cnt := 16, stride := 128 }
def PHY_LANE_STAT_SIGDET : Fld := { pk := .phyG, off := 0x104, lo := 26, w := 1, acc := .ro, rst := 0, cnt := 16, stride := 128 }
def PHY_LANE_STAT_CDR_LOCK : Fld := { pk := .phyG, off := 0x104, lo := 25, w := 1, acc := .ro, rst := 0, cnt := 16, stride := 128 }
def PHY_LANE_STAT_CDR_LOST : Fld := { pk := .phyG, off := 0x104, lo := 24, w := 1, acc := .rw1c, rst := 0, cnt := 16, stride := 128 }
def PHY_LANE_STAT_POL_INV : Fld := { pk := .phyG, off := 0x104, lo := 23, w := 1, acc := .ro, rst := 0, cnt := 16, stride := 128 }
def PHY_LANE_STAT_PRE_TX : Fld := { pk := .phyG, off := 0x104, lo := 22, w := 1, acc := .ro, rst := 0, cnt := 16, stride := 128 }
def PHY_LANE_STAT_PRE_RX : Fld := { pk := .phyG, off := 0x104, lo := 21, w := 1, acc := .ro, rst := 0, cnt := 16, stride := 128 }
def PHY_LANE_STAT_ADAPT : Fld := { pk := .phyG, off := 0x104, lo := 19, w := 2, acc := .ro, rst := 0, cnt := 16, stride := 128 }
def PHY_LANE_STAT_REV : Fld := { pk := .phyG, off := 0x104, lo := 18, w := 1, acc := .ro, rst := 0, cnt := 16, stride := 128 }
def PHY_LANE_STAT_LOGICAL : Fld := { pk := .phyG, off := 0x104, lo := 14, w := 4, acc := .ro, rst := 0, cnt := 16, stride := 128 }
def PHY_LANE_STAT_TXPRE : Fld := { pk := .phyG, off := 0x104, lo := 10, w := 4, acc := .ro, rst := 0, cnt := 16, stride := 128 }
def PHY_LANE_STAT_CHK_LOCK : Fld := { pk := .phyG, off := 0x104, lo := 9, w := 1, acc := .ro, rst := 0, cnt := 16, stride := 128 }
def PHY_LANE_DFE0_TAP_D : Fld := { pk := .phyG, off := 0x108, lo := 24, w := 8, acc := .rw, rst := 0, cnt := 16, stride := 128 }
def PHY_LANE_DFE0_TAP_C : Fld := { pk := .phyG, off := 0x108, lo := 16, w := 8, acc := .rw, rst := 0, cnt := 16, stride := 128 }
def PHY_LANE_DFE0_TAP_B : Fld := { pk := .phyG, off := 0x108, lo := 8, w := 8, acc := .rw, rst := 0, cnt := 16, stride := 128 }
def PHY_LANE_DFE0_TAP_A : Fld := { pk := .phyG, off := 0x108, lo := 0, w := 8, acc := .rw, rst := 0, cnt := 16, stride := 128 }
def PHY_LANE_DFE1_TAP_D : Fld := { pk := .phyG, off := 0x10C, lo := 24, w := 8, acc := .rw, rst := 0, cnt := 16, stride := 128 }
def PHY_LANE_DFE1_TAP_C : Fld := { pk := .phyG, off := 0x10C, lo := 16, w := 8, acc := .rw, rst := 0, cnt := 16, stride := 128 }
def PHY_LANE_DFE1_TAP_B : Fld := { pk := .phyG, off := 0x10C, lo := 8, w := 8, acc := .rw, rst := 0, cnt := 16, stride := 128 }
def PHY_LANE_DFE1_TAP_A : Fld := { pk := .phyG, off := 0x10C, lo := 0, w := 8, acc := .rw, rst := 0, cnt := 16, stride := 128 }
def PHY_LANE_DFE2_TAP_D : Fld := { pk := .phyG, off := 0x110, lo := 24, w := 8, acc := .rw, rst := 0, cnt := 16, stride := 128 }
def PHY_LANE_DFE2_TAP_C : Fld := { pk := .phyG, off := 0x110, lo := 16, w := 8, acc := .rw, rst := 0, cnt := 16, stride := 128 }
def PHY_LANE_DFE2_TAP_B : Fld := { pk := .phyG, off := 0x110, lo := 8, w := 8, acc := .rw, rst := 0, cnt := 16, stride := 128 }
def PHY_LANE_DFE2_TAP_A : Fld := { pk := .phyG, off := 0x110, lo := 0, w := 8, acc := .rw, rst := 0, cnt := 16, stride := 128 }
def PHY_LANE_FTAP0_POS : Fld := { pk := .phyG, off := 0x114, lo := 16, w := 7, acc := .rw, rst := 13, cnt := 16, stride := 128, rng := [(13, 76)] }
def PHY_LANE_FTAP0_VAL : Fld := { pk := .phyG, off := 0x114, lo := 0, w := 8, acc := .rw, rst := 0, cnt := 16, stride := 128 }
def PHY_LANE_FTAP1_POS : Fld := { pk := .phyG, off := 0x118, lo := 16, w := 7, acc := .rw, rst := 14, cnt := 16, stride := 128, rng := [(13, 76)] }
def PHY_LANE_FTAP1_VAL : Fld := { pk := .phyG, off := 0x118, lo := 0, w := 8, acc := .rw, rst := 0, cnt := 16, stride := 128 }
def PHY_LANE_FTAP2_POS : Fld := { pk := .phyG, off := 0x11C, lo := 16, w := 7, acc := .rw, rst := 15, cnt := 16, stride := 128, rng := [(13, 76)] }
def PHY_LANE_FTAP2_VAL : Fld := { pk := .phyG, off := 0x11C, lo := 0, w := 8, acc := .rw, rst := 0, cnt := 16, stride := 128 }
def PHY_LANE_CTLE_PEAK : Fld := { pk := .phyG, off := 0x120, lo := 0, w := 5, acc := .rw, rst := 8, cnt := 16, stride := 128 }
def PHY_LANE_CDR_PPM : Fld := { pk := .phyG, off := 0x124, lo := 0, w := 16, acc := .ro, rst := 0, cnt := 16, stride := 128 }
def PHY_LANE_PAT_GEN_EN : Fld := { pk := .phyG, off := 0x128, lo := 31, w := 1, acc := .rw, rst := 0, cnt := 16, stride := 128 }
def PHY_LANE_PAT_CHK_EN : Fld := { pk := .phyG, off := 0x128, lo := 30, w := 1, acc := .rw, rst := 0, cnt := 16, stride := 128 }
def PHY_LANE_PAT_GEN_PAT : Fld := { pk := .phyG, off := 0x128, lo := 24, w := 4, acc := .rw, rst := 0, cnt := 16, stride := 128, rng := [(0, 9)] }
def PHY_LANE_PAT_CHK_PAT : Fld := { pk := .phyG, off := 0x128, lo := 20, w := 4, acc := .rw, rst := 0, cnt := 16, stride := 128, rng := [(0, 9)] }
def PHY_LANE_UPAT0_PAT : Fld := { pk := .phyG, off := 0x12C, lo := 0, w := 32, acc := .rw, rst := 0, cnt := 16, stride := 128 }
def PHY_LANE_UPAT1_PAT : Fld := { pk := .phyG, off := 0x130, lo := 0, w := 32, acc := .rw, rst := 0, cnt := 16, stride := 128 }
def PHY_LANE_BERR_ERRORS : Fld := { pk := .phyG, off := 0x134, lo := 0, w := 32, acc := .ro, rst := 0, cnt := 16, stride := 128 }
def PHY_LANE_BCNT_BITS : Fld := { pk := .phyG, off := 0x138, lo := 0, w := 32, acc := .ro, rst := 0, cnt := 16, stride := 128 }
def PHY_LANE_MARGIN_GO : Fld := { pk := .phyG, off := 0x13C, lo := 31, w := 1, acc := .rw1s, rst := 0, cnt := 16, stride := 128 }
def PHY_LANE_MARGIN_EYE : Fld := { pk := .phyG, off := 0x13C, lo := 28, w := 2, acc := .rw, rst := 1, cnt := 16, stride := 128, rng := [(0, 2)] }
def PHY_LANE_MARGIN_DWELL : Fld := { pk := .phyG, off := 0x13C, lo := 24, w := 4, acc := .rw, rst := 0, cnt := 16, stride := 128 }
def PHY_LANE_MARGIN_TOFF : Fld := { pk := .phyG, off := 0x13C, lo := 16, w := 8, acc := .rw, rst := 0, cnt := 16, stride := 128, rng := [(0, 32), (224, 255)] }
def PHY_LANE_MARGIN_VOFF : Fld := { pk := .phyG, off := 0x13C, lo := 8, w := 8, acc := .rw, rst := 0, cnt := 16, stride := 128, rng := [(0, 64), (192, 255)] }
def PHY_LANE_MRES_DONE : Fld := { pk := .phyG, off := 0x140, lo := 31, w := 1, acc := .ro, rst := 0, cnt := 16, stride := 128 }
def PHY_LANE_MRES_REFUSED : Fld := { pk := .phyG, off := 0x140, lo := 30, w := 1, acc := .ro, rst := 0, cnt := 16, stride := 128 }
def PHY_LANE_MRES_ERRORS : Fld := { pk := .phyG, off := 0x140, lo := 0, w := 30, acc := .ro, rst := 0, cnt := 16, stride := 128 }
def phyGFields0 : List Fld := [PHY_LG_CTRL_FOLLOW, PHY_LG_CTRL_PRECODE, PHY_LG_CTRL_RATECAP, PHY_LANE_CTRL_PD, PHY_LANE_CTRL_LB, PHY_LANE_CTRL_LBRATE, PHY_LANE_CTRL_CLKMODE, PHY_LANE_CTRL_POL, PHY_LANE_CTRL_FREEZE, PHY_LANE_CTRL_CDR_BW, PHY_LANE_STAT_PDACT, PHY_LANE_STAT_LBACT]
def phyGFields1 : List Fld := [PHY_LANE_STAT_RATE, PHY_LANE_STAT_SIGDET, PHY_LANE_STAT_CDR_LOCK, PHY_LANE_STAT_CDR_LOST, PHY_LANE_STAT_POL_INV, PHY_LANE_STAT_PRE_TX, PHY_LANE_STAT_PRE_RX, PHY_LANE_STAT_ADAPT, PHY_LANE_STAT_REV, PHY_LANE_STAT_LOGICAL, PHY_LANE_STAT_TXPRE, PHY_LANE_STAT_CHK_LOCK]
def phyGFields2 : List Fld := [PHY_LANE_DFE0_TAP_D, PHY_LANE_DFE0_TAP_C, PHY_LANE_DFE0_TAP_B, PHY_LANE_DFE0_TAP_A, PHY_LANE_DFE1_TAP_D, PHY_LANE_DFE1_TAP_C, PHY_LANE_DFE1_TAP_B, PHY_LANE_DFE1_TAP_A, PHY_LANE_DFE2_TAP_D, PHY_LANE_DFE2_TAP_C, PHY_LANE_DFE2_TAP_B, PHY_LANE_DFE2_TAP_A]
def phyGFields3 : List Fld := [PHY_LANE_FTAP0_POS, PHY_LANE_FTAP0_VAL, PHY_LANE_FTAP1_POS, PHY_LANE_FTAP1_VAL, PHY_LANE_FTAP2_POS, PHY_LANE_FTAP2_VAL, PHY_LANE_CTLE_PEAK, PHY_LANE_CDR_PPM, PHY_LANE_PAT_GEN_EN, PHY_LANE_PAT_CHK_EN, PHY_LANE_PAT_GEN_PAT, PHY_LANE_PAT_CHK_PAT]
def phyGFields4 : List Fld := [PHY_LANE_UPAT0_PAT, PHY_LANE_UPAT1_PAT, PHY_LANE_BERR_ERRORS, PHY_LANE_BCNT_BITS, PHY_LANE_MARGIN_GO, PHY_LANE_MARGIN_EYE, PHY_LANE_MARGIN_DWELL, PHY_LANE_MARGIN_TOFF, PHY_LANE_MARGIN_VOFF, PHY_LANE_MRES_DONE, PHY_LANE_MRES_REFUSED, PHY_LANE_MRES_ERRORS]
def phyGFields : List Fld := phyGFields0 ++ phyGFields1 ++ phyGFields2 ++ phyGFields3 ++ phyGFields4

/-! ### Page kind `phyT` (R154, 04_lanes.md) -/

def PHY_ST_CTRL_REFSEL : Fld := { pk := .phyT, off := 0x040, lo := 0, w := 1, acc := .rw, rst := 0 }
def PHY_ST_STAT_REF_PPM : Fld := { pk := .phyT, off := 0x044, lo := 16, w := 16, acc := .ro, rst := 0 }
def PHY_ST_STAT_PLL_LOCK : Fld := { pk := .phyT, off := 0x044, lo := 1, w := 1, acc := .ro, rst := 0, view := true }
def PHY_ST_STAT_REF_OK : Fld := { pk := .phyT, off := 0x044, lo := 0, w := 1, acc := .ro, rst := 0, view := true }
def phyTFields0 : List Fld := [PHY_ST_CTRL_REFSEL, PHY_ST_STAT_REF_PPM, PHY_ST_STAT_PLL_LOCK, PHY_ST_STAT_REF_OK]
def phyTFields : List Fld := phyTFields0

/-! ### Page kind `lnk` (R196, 05_links.md) -/

def LNK_CTRL_RETRAIN : Fld := { pk := .lnk, off := 0x040, lo := 8, w := 1, acc := .rw1s, rst := 0 }
def LNK_CTRL_SELNAK : Fld := { pk := .lnk, off := 0x040, lo := 5, w := 1, acc := .rw, rst := 1 }
def LNK_CTRL_REPLAY_LIMIT : Fld := { pk := .lnk, off := 0x040, lo := 0, w := 4, acc := .rw, rst := 4, rng := [(1, 15)] }
def LNK_STAT_STATE : Fld := { pk := .lnk, off := 0x044, lo := 29, w := 3, acc := .ro, rst := 0 }
def LNK_STAT_RATE : Fld := { pk := .lnk, off := 0x044, lo := 26, w := 3, acc := .ro, rst := 0 }
def LNK_STAT_WIDTH : Fld := { pk := .lnk, off := 0x044, lo := 21, w := 5, acc := .ro, rst := 0 }
def LNK_STAT_FLIT : Fld := { pk := .lnk, off := 0x044, lo := 20, w := 1, acc := .ro, rst := 0 }
def LNK_STAT_SELNAK_P : Fld := { pk := .lnk, off := 0x044, lo := 19, w := 1, acc := .ro, rst := 0 }
def LNK_STAT_RETRAIN_SPENT : Fld := { pk := .lnk, off := 0x044, lo := 18, w := 1, acc := .ro, rst := 0 }
def LNK_STAT_REPLAY_NUM : Fld := { pk := .lnk, off := 0x044, lo := 14, w := 4, acc := .ro, rst := 0 }
def LNK_SEQ_NEXT_TX : Fld := { pk := .lnk, off := 0x048, lo := 20, w := 10, acc := .ro, rst := 0 }
def LNK_SEQ_ACKD : Fld := { pk := .lnk, off := 0x048, lo := 10, w := 10, acc := .ro, rst := 0 }
def LNK_SEQ_LAST_RX : Fld := { pk := .lnk, off := 0x048, lo := 0, w := 10, acc := .ro, rst := 0 }
def LNK_REPLAY_CAP : Fld := { pk := .lnk, off := 0x04C, lo := 16, w := 9, acc := .ro, rst := 0, view := true }
def LNK_REPLAY_OCC : Fld := { pk := .lnk, off := 0x04C, lo := 0, w := 9, acc := .ro, rst := 0, view := true }
def LNK_TRUNK_PRIMARY : Fld := { pk := .lnk, off := 0x050, lo := 31, w := 1, acc := .rw, rst := 0 }
def LNK_TRUNK_PARTNER : Fld := { pk := .lnk, off := 0x050, lo := 16, w := 10, acc := .rw, rst := 0 }
def LNK_TRUNK_FAILBACK_HOLD : Fld := { pk := .lnk, off := 0x050, lo := 8, w := 8, acc := .rw, rst := 10, rng := [(1, 100)] }
def LNK_TRUNK_LOCK_TMR : Fld := { pk := .lnk, off := 0x050, lo := 0, w := 8, acc := .rw, rst := 20, rng := [(2, 255)] }
def LNK_PAIR_SPLIT : Fld := { pk := .lnk, off := 0x054, lo := 0, w := 9, acc := .rw, rst := 128, rng := [(0, 256)] }
def LNK_TSTAT_PEER_ID : Fld := { pk := .lnk, off := 0x058, lo := 20, w := 12, acc := .ro, rst := 0 }
def LNK_TSTAT_CARRYING : Fld := { pk := .lnk, off := 0x058, lo := 19, w := 1, acc := .ro, rst := 0 }
def LNK_TSTAT_BUCKETS : Fld := { pk := .lnk, off := 0x058, lo := 8, w := 9, acc := .ro, rst := 0, view := true }
def LNK_WIDTH_GO : Fld := { pk := .lnk, off := 0x05C, lo := 31, w := 1, acc := .rw1s, rst := 0 }
def LNK_WIDTH_WITHDRAWN : Fld := { pk := .lnk, off := 0x05C, lo := 30, w := 1, acc := .rw1c, rst := 0 }
def LNK_WIDTH_DONE : Fld := { pk := .lnk, off := 0x05C, lo := 29, w := 1, acc := .ro, rst := 0 }
def LNK_WIDTH_REQ : Fld := { pk := .lnk, off := 0x05C, lo := 0, w := 5, acc := .rw, rst := 16, rng := [(1, 1), (2, 2), (4, 4), (8, 8), (16, 16)] }
def LNK_CRED_ADV : Fld := { pk := .lnk, off := 0x060, lo := 16, w := 12, acc := .rw, rst := 0, cnt := 4, stride := 4, view := true }
def LNK_CRED_AVAIL : Fld := { pk := .lnk, off := 0x060, lo := 0, w := 12, acc := .ro, rst := 0, cnt := 4, stride := 4 }
def LNK_MKCH_EN : Fld := { pk := .lnk, off := 0x070, lo := 31, w := 1, acc := .rw, rst := 1 }
def LNK_MKCH_AGE : Fld := { pk := .lnk, off := 0x070, lo := 8, w := 8, acc := .rw, rst := 100, rng := [(1, 255)] }
def LNK_MKCH_SHARE : Fld := { pk := .lnk, off := 0x070, lo := 0, w := 4, acc := .rw, rst := 8, rng := [(4, 10)] }
def lnkFields0 : List Fld := [LNK_CTRL_RETRAIN, LNK_CTRL_SELNAK, LNK_CTRL_REPLAY_LIMIT, LNK_STAT_STATE, LNK_STAT_RATE, LNK_STAT_WIDTH, LNK_STAT_FLIT, LNK_STAT_SELNAK_P, LNK_STAT_RETRAIN_SPENT, LNK_STAT_REPLAY_NUM, LNK_SEQ_NEXT_TX, LNK_SEQ_ACKD]
def lnkFields1 : List Fld := [LNK_SEQ_LAST_RX, LNK_REPLAY_CAP, LNK_REPLAY_OCC, LNK_TRUNK_PRIMARY, LNK_TRUNK_PARTNER, LNK_TRUNK_FAILBACK_HOLD, LNK_TRUNK_LOCK_TMR, LNK_PAIR_SPLIT, LNK_TSTAT_PEER_ID, LNK_TSTAT_CARRYING, LNK_TSTAT_BUCKETS, LNK_WIDTH_GO]
def lnkFields2 : List Fld := [LNK_WIDTH_WITHDRAWN, LNK_WIDTH_DONE, LNK_WIDTH_REQ, LNK_CRED_ADV, LNK_CRED_AVAIL, LNK_MKCH_EN, LNK_MKCH_AGE, LNK_MKCH_SHARE]
def lnkFields : List Fld := lnkFields0 ++ lnkFields1 ++ lnkFields2

/-! ### Page kind `prt` (R228, 06_ports.md) -/

def PRT_CFG_EN : Fld := { pk := .prt, off := 0x040, lo := 31, w := 1, acc := .rw, rst := 0 }
def PRT_CFG_PERS : Fld := { pk := .prt, off := 0x040, lo := 28, w := 3, acc := .rw, rst := 0 }
def PRT_CFG_WIDTH : Fld := { pk := .prt, off := 0x040, lo := 23, w := 5, acc := .rw, rst := 1 }
def PRT_CFG_X128_EN : Fld := { pk := .prt, off := 0x040, lo := 22, w := 1, acc := .rw, rst := 1 }
def PRT_CFG_MGR : Fld := { pk := .prt, off := 0x040, lo := 21, w := 1, acc := .rwl, rst := 0 }
def PRT_CFG_IDE_REQ : Fld := { pk := .prt, off := 0x040, lo := 20, w := 1, acc := .rwl, rst := 0 }
def PRT_STAT_CFG_STATUS : Fld := { pk := .prt, off := 0x044, lo := 28, w := 4, acc := .ro, rst := 0 }
def PRT_STAT_TWIDTH : Fld := { pk := .prt, off := 0x044, lo := 23, w := 5, acc := .ro, rst := 0 }
def PRT_STAT_X128_P : Fld := { pk := .prt, off := 0x044, lo := 22, w := 1, acc := .ro, rst := 0 }
def PRT_STAT_IDE_ON : Fld := { pk := .prt, off := 0x044, lo := 21, w := 1, acc := .ro, rst := 0 }
def PRT_SLOT_IN_BTN : Fld := { pk := .prt, off := 0x048, lo := 16, w := 10, acc := .rw, rst := 1023 }
def PRT_SLOT_IN_PRSNT : Fld := { pk := .prt, off := 0x048, lo := 0, w := 10, acc := .rw, rst := 1023 }
def PRT_SLOT_OUT_PERST : Fld := { pk := .prt, off := 0x04C, lo := 20, w := 10, acc := .rw, rst := 1023 }
def PRT_SLOT_OUT_PWR_LED : Fld := { pk := .prt, off := 0x04C, lo := 10, w := 10, acc := .rw, rst := 1023 }
def PRT_SLOT_OUT_ATTN_LED : Fld := { pk := .prt, off := 0x04C, lo := 0, w := 10, acc := .rw, rst := 1023 }
def PRT_SLOT_SLOTTED : Fld := { pk := .prt, off := 0x050, lo := 31, w := 1, acc := .rw, rst := 0 }
def PRT_SLOT_CHAN : Fld := { pk := .prt, off := 0x050, lo := 25, w := 6, acc := .rw, rst := 0 }
def PRT_SLOT_AUTO : Fld := { pk := .prt, off := 0x050, lo := 24, w := 1, acc := .rw, rst := 0 }
def PRT_SLOT_PWR_REQ : Fld := { pk := .prt, off := 0x050, lo := 23, w := 1, acc := .rw, rst := 0 }
def PRT_SLOT_REMOVE_REQ : Fld := { pk := .prt, off := 0x050, lo := 22, w := 1, acc := .rw1s, rst := 0 }
def PRT_SLOT_ATTN : Fld := { pk := .prt, off := 0x050, lo := 20, w := 2, acc := .rw, rst := 0, rng := [(0, 2)] }
def PRT_SLOT_PWR_IND : Fld := { pk := .prt, off := 0x050, lo := 18, w := 2, acc := .ro, rst := 0 }
def PRT_SLOT_PRESENT : Fld := { pk := .prt, off := 0x050, lo := 17, w := 1, acc := .ro, rst := 0, view := true }
def PRT_SLOT_PG : Fld := { pk := .prt, off := 0x050, lo := 16, w := 1, acc := .ro, rst := 0, view := true }
def PRT_SLOT_TPERST : Fld := { pk := .prt, off := 0x050, lo := 0, w := 8, acc := .rw, rst := 10, rng := [(1, 100)] }
def PRT_DEV_PAN : Fld := { pk := .prt, off := 0x054, lo := 30, w := 2, acc := .rw, rst := 0 }
def PRT_DEV_ACTIVE_TMO : Fld := { pk := .prt, off := 0x054, lo := 22, w := 8, acc := .rw, rst := 16, rng := [(1, 255)] }
def PRT_DEV_SAME : Fld := { pk := .prt, off := 0x054, lo := 21, w := 1, acc := .ro, rst := 0 }
def PRT_DEV_CAPPED : Fld := { pk := .prt, off := 0x054, lo := 20, w := 1, acc := .ro, rst := 0 }
def PRT_DEV_CPL_TMO : Fld := { pk := .prt, off := 0x054, lo := 4, w := 8, acc := .rw, rst := 50, rng := [(1, 255)] }
def PRT_DEV_RESULT : Fld := { pk := .prt, off := 0x054, lo := 0, w := 4, acc := .ro, rst := 0 }
def PRT_DEV_CAP_TILES : Fld := { pk := .prt, off := 0x058, lo := 0, w := 32, acc := .ro, rst := 0 }
def prtFields0 : List Fld := [PRT_CFG_EN, PRT_CFG_PERS, PRT_CFG_WIDTH, PRT_CFG_X128_EN, PRT_CFG_MGR, PRT_CFG_IDE_REQ, PRT_STAT_CFG_STATUS, PRT_STAT_TWIDTH, PRT_STAT_X128_P, PRT_STAT_IDE_ON, PRT_SLOT_IN_BTN, PRT_SLOT_IN_PRSNT]
def prtFields1 : List Fld := [PRT_SLOT_OUT_PERST, PRT_SLOT_OUT_PWR_LED, PRT_SLOT_OUT_ATTN_LED, PRT_SLOT_SLOTTED, PRT_SLOT_CHAN, PRT_SLOT_AUTO, PRT_SLOT_PWR_REQ, PRT_SLOT_REMOVE_REQ, PRT_SLOT_ATTN, PRT_SLOT_PWR_IND, PRT_SLOT_PRESENT, PRT_SLOT_PG]
def prtFields2 : List Fld := [PRT_SLOT_TPERST, PRT_DEV_PAN, PRT_DEV_ACTIVE_TMO, PRT_DEV_SAME, PRT_DEV_CAPPED, PRT_DEV_CPL_TMO, PRT_DEV_RESULT, PRT_DEV_CAP_TILES]
def prtFields : List Fld := prtFields0 ++ prtFields1 ++ prtFields2

/-! ### Page kind `xbrC` (R259, 07_switch_core.md) -/

def XBR_CTRL_STALL : Fld := { pk := .xbrC, off := 0x040, lo := 0, w := 20, acc := .rw, rst := 2000, rng := [(256, 1000000)] }
def XBR_DT_K3 : Fld := { pk := .xbrC, off := 0x044, lo := 12, w := 4, acc := .rw, rst := 0, rng := [(0, 3), (13, 15)] }
def XBR_DT_K2 : Fld := { pk := .xbrC, off := 0x044, lo := 8, w := 4, acc := .rw, rst := 0, rng := [(0, 3), (13, 15)] }
def XBR_DT_K1 : Fld := { pk := .xbrC, off := 0x044, lo := 4, w := 4, acc := .rw, rst := 0, rng := [(0, 3), (13, 15)] }
def XBR_DT_K0 : Fld := { pk := .xbrC, off := 0x044, lo := 0, w := 4, acc := .rw, rst := 0, rng := [(0, 3), (13, 15)] }
def XBR_ALLOT_INT : Fld := { pk := .xbrC, off := 0x048, lo := 16, w := 9, acc := .ro, rst := 128 }
def XBR_ALLOT_LANE : Fld := { pk := .xbrC, off := 0x048, lo := 0, w := 9, acc := .rw, rst := 160, rng := [(64, 256)] }
def XBR_SHARED_S : Fld := { pk := .xbrC, off := 0x04C, lo := 0, w := 19, acc := .ro, rst := 385024, view := true }
def XBR_USED_U : Fld := { pk := .xbrC, off := 0x050, lo := 0, w := 19, acc := .ro, rst := 0, view := true }
def XBR_MC_PKTS : Fld := { pk := .xbrC, off := 0x054, lo := 0, w := 16, acc := .ro, rst := 0, view := true }
def xbrCFields0 : List Fld := [XBR_CTRL_STALL, XBR_DT_K3, XBR_DT_K2, XBR_DT_K1, XBR_DT_K0, XBR_ALLOT_INT, XBR_ALLOT_LANE, XBR_SHARED_S, XBR_USED_U, XBR_MC_PKTS]
def xbrCFields : List Fld := xbrCFields0

/-! ### Page kind `xbrG` (R259, 07_switch_core.md) -/

def XBR_PMODE_B0_FR : Fld := { pk := .xbrG, off := 0x040, lo := 7, w := 1, acc := .rw, rst := 0, cnt := 4, stride := 4 }
def XBR_PMODE_B0_CT : Fld := { pk := .xbrG, off := 0x040, lo := 0, w := 4, acc := .rw, rst := 15, cnt := 4, stride := 4 }
def XBR_PMODE_B1_FR : Fld := { pk := .xbrG, off := 0x040, lo := 15, w := 1, acc := .rw, rst := 0, cnt := 4, stride := 4 }
def XBR_PMODE_B1_CT : Fld := { pk := .xbrG, off := 0x040, lo := 8, w := 4, acc := .rw, rst := 15, cnt := 4, stride := 4 }
def XBR_PMODE_B2_FR : Fld := { pk := .xbrG, off := 0x040, lo := 23, w := 1, acc := .rw, rst := 0, cnt := 4, stride := 4 }
def XBR_PMODE_B2_CT : Fld := { pk := .xbrG, off := 0x040, lo := 16, w := 4, acc := .rw, rst := 15, cnt := 4, stride := 4 }
def XBR_PMODE_B3_FR : Fld := { pk := .xbrG, off := 0x040, lo := 31, w := 1, acc := .rw, rst := 0, cnt := 4, stride := 4 }
def XBR_PMODE_B3_CT : Fld := { pk := .xbrG, off := 0x040, lo := 24, w := 4, acc := .rw, rst := 15, cnt := 4, stride := 4 }
def XBR_GP_STALL_VALID : Fld := { pk := .xbrG, off := 0x050, lo := 31, w := 1, acc := .rw1c, rst := 0 }
def XBR_GP_STALL_CLASS : Fld := { pk := .xbrG, off := 0x050, lo := 20, w := 2, acc := .ro, rst := 0 }
def XBR_GP_STALL_EGRESS : Fld := { pk := .xbrG, off := 0x050, lo := 10, w := 10, acc := .ro, rst := 0 }
def XBR_GP_STALL_INGRESS : Fld := { pk := .xbrG, off := 0x050, lo := 0, w := 10, acc := .ro, rst := 0 }
def XBR_GP_PTR_GRANT : Fld := { pk := .xbrG, off := 0x054, lo := 16, w := 6, acc := .ro, rst := 0 }
def XBR_GP_PTR_ACCEPT : Fld := { pk := .xbrG, off := 0x054, lo := 0, w := 6, acc := .ro, rst := 0 }
def XBR_GP_QSEL_CLASS : Fld := { pk := .xbrG, off := 0x058, lo := 4, w := 2, acc := .rw, rst := 0 }
def XBR_GP_QSEL_POS : Fld := { pk := .xbrG, off := 0x058, lo := 0, w := 4, acc := .rw, rst := 0 }
def XBR_GP_QLEN_HELD : Fld := { pk := .xbrG, off := 0x05C, lo := 20, w := 12, acc := .ro, rst := 0, view := true }
def XBR_GP_QLEN_SHARED : Fld := { pk := .xbrG, off := 0x05C, lo := 0, w := 19, acc := .ro, rst := 0, view := true }
def XBR_GP_ALLOT_SIZE : Fld := { pk := .xbrG, off := 0x060, lo := 16, w := 16, acc := .ro, rst := 128, view := true }
def XBR_GP_ALLOT_USED : Fld := { pk := .xbrG, off := 0x060, lo := 0, w := 16, acc := .ro, rst := 0, view := true }
def xbrGFields0 : List Fld := [XBR_PMODE_B0_FR, XBR_PMODE_B0_CT, XBR_PMODE_B1_FR, XBR_PMODE_B1_CT, XBR_PMODE_B2_FR, XBR_PMODE_B2_CT, XBR_PMODE_B3_FR, XBR_PMODE_B3_CT, XBR_GP_STALL_VALID, XBR_GP_STALL_CLASS, XBR_GP_STALL_EGRESS, XBR_GP_STALL_INGRESS]
def xbrGFields1 : List Fld := [XBR_GP_PTR_GRANT, XBR_GP_PTR_ACCEPT, XBR_GP_QSEL_CLASS, XBR_GP_QSEL_POS, XBR_GP_QLEN_HELD, XBR_GP_QLEN_SHARED, XBR_GP_ALLOT_SIZE, XBR_GP_ALLOT_USED]
def xbrGFields : List Fld := xbrGFields0 ++ xbrGFields1

/-! ### Page kind `bnd` (R287, 08_binding.md) -/

def BND_CTRL_COMMIT_WAIT : Fld := { pk := .bnd, off := 0x040, lo := 8, w := 8, acc := .rw, rst := 10, rng := [(1, 255)] }
def BND_CTRL_VIEW : Fld := { pk := .bnd, off := 0x040, lo := 0, w := 1, acc := .rw, rst := 0 }
def BND_FSID_FSID : Fld := { pk := .bnd, off := 0x044, lo := 0, w := 12, acc := .rwl, rst := 0 }
def BND_COMMIT_GO : Fld := { pk := .bnd, off := 0x048, lo := 31, w := 1, acc := .rw1s, rst := 0 }
def BND_COMMIT_DISCARD : Fld := { pk := .bnd, off := 0x048, lo := 30, w := 1, acc := .wo, rst := 0 }
def BND_COMMIT_DIRTY : Fld := { pk := .bnd, off := 0x048, lo := 0, w := 11, acc := .ro, rst := 0, view := true }
def BND_STATUS_CODE : Fld := { pk := .bnd, off := 0x04C, lo := 27, w := 5, acc := .ro, rst := 0 }
def BND_STATUS_DETAIL : Fld := { pk := .bnd, off := 0x04C, lo := 16, w := 11, acc := .ro, rst := 0 }
def BND_STATUS_WINDOW : Fld := { pk := .bnd, off := 0x04C, lo := 0, w := 16, acc := .ro, rst := 0 }
def BND_EPOCH_EPOCH : Fld := { pk := .bnd, off := 0x050, lo := 0, w := 32, acc := .ro, rst := 0 }
def BND_DRAIN_OLDEST : Fld := { pk := .bnd, off := 0x054, lo := 0, w := 32, acc := .ro, rst := 0, view := true }
def BND_DRAIN_TGT_TGT : Fld := { pk := .bnd, off := 0x058, lo := 0, w := 32, acc := .rw, rst := 0 }
def BND_MISS_VALID : Fld := { pk := .bnd, off := 0x05C, lo := 31, w := 1, acc := .rw1c, rst := 0 }
def BND_MISS_TYPE : Fld := { pk := .bnd, off := 0x05C, lo := 29, w := 2, acc := .ro, rst := 0 }
def BND_MISS_PORT : Fld := { pk := .bnd, off := 0x05C, lo := 0, w := 10, acc := .ro, rst := 0 }
def BND_MISS_ADDR_LO_ADDR : Fld := { pk := .bnd, off := 0x060, lo := 0, w := 32, acc := .ro, rst := 0 }
def BND_MISS_ADDR_HI_ADDR : Fld := { pk := .bnd, off := 0x064, lo := 0, w := 18, acc := .ro, rst := 0 }
def BND_UE_WIN_VALID : Fld := { pk := .bnd, off := 0x068, lo := 31, w := 1, acc := .rw1c, rst := 0 }
def BND_UE_WIN_WINDOW : Fld := { pk := .bnd, off := 0x068, lo := 0, w := 16, acc := .ro, rst := 0 }
def bndFields0 : List Fld := [BND_CTRL_COMMIT_WAIT, BND_CTRL_VIEW, BND_FSID_FSID, BND_COMMIT_GO, BND_COMMIT_DISCARD, BND_COMMIT_DIRTY, BND_STATUS_CODE, BND_STATUS_DETAIL, BND_STATUS_WINDOW, BND_EPOCH_EPOCH, BND_DRAIN_OLDEST, BND_DRAIN_TGT_TGT]
def bndFields1 : List Fld := [BND_MISS_VALID, BND_MISS_TYPE, BND_MISS_PORT, BND_MISS_ADDR_LO_ADDR, BND_MISS_ADDR_HI_ADDR, BND_UE_WIN_VALID, BND_UE_WIN_WINDOW]
def bndFields : List Fld := bndFields0 ++ bndFields1

/-! ### Page kind `map` (R317, 09_tile_map.md) -/

def MAP_CTRL_RUN : Fld := { pk := .map, off := 0x040, lo := 31, w := 1, acc := .rw, rst := 0 }
def MAP_CTRL_INIT : Fld := { pk := .map, off := 0x040, lo := 30, w := 1, acc := .rw1s, rst := 0 }
def MAP_CTRL_REBUILD : Fld := { pk := .map, off := 0x040, lo := 29, w := 1, acc := .rw1s, rst := 0 }
def MAP_CTRL_SCRUB_H : Fld := { pk := .map, off := 0x040, lo := 16, w := 8, acc := .rw, rst := 24, rng := [(1, 255)] }
def MAP_CTRL_PLACE_WAIT : Fld := { pk := .map, off := 0x040, lo := 0, w := 16, acc := .rw, rst := 1000, rng := [(10, 10000)] }
def MAP_CFG_POOL_U : Fld := { pk := .map, off := 0x044, lo := 0, w := 14, acc := .rwl, rst := 0, rng := [(1, 8192)] }
def MAP_COPY0_N : Fld := { pk := .map, off := 0x048, lo := 30, w := 2, acc := .rw, rst := 0, cnt := 2, stride := 8, rng := [(0, 2)] }
def MAP_COPY0_DEV1 : Fld := { pk := .map, off := 0x048, lo := 16, w := 10, acc := .rw, rst := 0, cnt := 2, stride := 8 }
def MAP_COPY0_DEV0 : Fld := { pk := .map, off := 0x048, lo := 0, w := 10, acc := .rw, rst := 0, cnt := 2, stride := 8 }
def MAP_COPY1_DEV3 : Fld := { pk := .map, off := 0x04C, lo := 16, w := 10, acc := .rw, rst := 0, cnt := 2, stride := 8 }
def MAP_COPY1_DEV2 : Fld := { pk := .map, off := 0x04C, lo := 0, w := 10, acc := .rw, rst := 0, cnt := 2, stride := 8 }
def MAP_STAT_RUNNING : Fld := { pk := .map, off := 0x058, lo := 31, w := 1, acc := .ro, rst := 0 }
def MAP_STAT_RSTATUS : Fld := { pk := .map, off := 0x058, lo := 28, w := 3, acc := .ro, rst := 0 }
def MAP_STAT_SINGLE : Fld := { pk := .map, off := 0x058, lo := 26, w := 2, acc := .ro, rst := 0 }
def MAP_STAT_SPLITS : Fld := { pk := .map, off := 0x058, lo := 17, w := 9, acc := .ro, rst := 0, view := true }
def MAP_STAT_OSCAN : Fld := { pk := .map, off := 0x058, lo := 16, w := 1, acc := .ro, rst := 0 }
def MAP_STAT_ORPHANS : Fld := { pk := .map, off := 0x058, lo := 0, w := 16, acc := .ro, rst := 0 }
def MAP_ERR_TILE_VALID : Fld := { pk := .map, off := 0x05C, lo := 31, w := 1, acc := .rw1c, rst := 0 }
def MAP_ERR_TILE_TILE : Fld := { pk := .map, off := 0x05C, lo := 0, w := 29, acc := .ro, rst := 0 }
def MAP_RING_VALID : Fld := { pk := .map, off := 0x060, lo := 31, w := 1, acc := .ro, rst := 0, view := true }
def MAP_RING_KIND : Fld := { pk := .map, off := 0x060, lo := 29, w := 2, acc := .ro, rst := 0, view := true }
def MAP_RING_TILE : Fld := { pk := .map, off := 0x060, lo := 0, w := 29, acc := .ro, rst := 0, view := true }
def MAP_RING_LOC_LOC : Fld := { pk := .map, off := 0x064, lo := 0, w := 32, acc := .ro, rst := 0 }
def MAP_CMD_GO : Fld := { pk := .map, off := 0x070, lo := 31, w := 1, acc := .rw1s, rst := 0 }
def MAP_CMD_OP : Fld := { pk := .map, off := 0x070, lo := 27, w := 4, acc := .rw, rst := 0 }
def MAP_CMD_REASON : Fld := { pk := .map, off := 0x070, lo := 24, w := 3, acc := .rw, rst := 0 }
def MAP_CMD_MSLOT : Fld := { pk := .map, off := 0x070, lo := 23, w := 1, acc := .rw, rst := 0 }
def MAP_CMD_TWIN : Fld := { pk := .map, off := 0x070, lo := 22, w := 1, acc := .rw, rst := 0 }
def MAP_CMD_STATUS : Fld := { pk := .map, off := 0x070, lo := 0, w := 4, acc := .ro, rst := 0 }
def MAP_CMD_TILE_TILE : Fld := { pk := .map, off := 0x074, lo := 0, w := 29, acc := .rw, rst := 0 }
def MAP_CMD_A_LOC : Fld := { pk := .map, off := 0x078, lo := 0, w := 32, acc := .rw, rst := 0 }
def MAP_CMD_B_LOC : Fld := { pk := .map, off := 0x07C, lo := 0, w := 32, acc := .rw, rst := 0 }
def MAP_CMD_E_WORD : Fld := { pk := .map, off := 0x080, lo := 0, w := 32, acc := .ro, rst := 0, cnt := 4, stride := 4 }
def mapFields0 : List Fld := [MAP_CTRL_RUN, MAP_CTRL_INIT, MAP_CTRL_REBUILD, MAP_CTRL_SCRUB_H, MAP_CTRL_PLACE_WAIT, MAP_CFG_POOL_U, MAP_COPY0_N, MAP_COPY0_DEV1, MAP_COPY0_DEV0, MAP_COPY1_DEV3, MAP_COPY1_DEV2, MAP_STAT_RUNNING]
def mapFields1 : List Fld := [MAP_STAT_RSTATUS, MAP_STAT_SINGLE, MAP_STAT_SPLITS, MAP_STAT_OSCAN, MAP_STAT_ORPHANS, MAP_ERR_TILE_VALID, MAP_ERR_TILE_TILE, MAP_RING_VALID, MAP_RING_KIND, MAP_RING_TILE, MAP_RING_LOC_LOC, MAP_CMD_GO]
def mapFields2 : List Fld := [MAP_CMD_OP, MAP_CMD_REASON, MAP_CMD_MSLOT, MAP_CMD_TWIN, MAP_CMD_STATUS, MAP_CMD_TILE_TILE, MAP_CMD_A_LOC, MAP_CMD_B_LOC, MAP_CMD_E_WORD]
def mapFields : List Fld := mapFields0 ++ mapFields1 ++ mapFields2

/-! ### Page kind `pfxF` (R317, 09_tile_map.md) -/

def PFX_CMD_GO : Fld := { pk := .pfxF, off := 0x070, lo := 31, w := 1, acc := .rw1s, rst := 0 }
def PFX_CMD_OP : Fld := { pk := .pfxF, off := 0x070, lo := 27, w := 4, acc := .rw, rst := 0 }
def PFX_CMD_REASON : Fld := { pk := .pfxF, off := 0x070, lo := 24, w := 3, acc := .rw, rst := 0 }
def PFX_CMD_MSLOT : Fld := { pk := .pfxF, off := 0x070, lo := 23, w := 1, acc := .rw, rst := 0 }
def PFX_CMD_TWIN : Fld := { pk := .pfxF, off := 0x070, lo := 22, w := 1, acc := .rw, rst := 0 }
def PFX_CMD_STATUS : Fld := { pk := .pfxF, off := 0x070, lo := 0, w := 4, acc := .ro, rst := 0 }
def PFX_CMD_TILE_TILE : Fld := { pk := .pfxF, off := 0x074, lo := 0, w := 29, acc := .rw, rst := 0 }
def PFX_CMD_A_LOC : Fld := { pk := .pfxF, off := 0x078, lo := 0, w := 32, acc := .rw, rst := 0 }
def PFX_CMD_B_LOC : Fld := { pk := .pfxF, off := 0x07C, lo := 0, w := 32, acc := .rw, rst := 0 }
def PFX_CMD_E_WORD : Fld := { pk := .pfxF, off := 0x080, lo := 0, w := 32, acc := .ro, rst := 0, cnt := 4, stride := 4 }
def pfxFFields0 : List Fld := [PFX_CMD_GO, PFX_CMD_OP, PFX_CMD_REASON, PFX_CMD_MSLOT, PFX_CMD_TWIN, PFX_CMD_STATUS, PFX_CMD_TILE_TILE, PFX_CMD_A_LOC, PFX_CMD_B_LOC, PFX_CMD_E_WORD]
def pfxFFields : List Fld := pfxFFields0

/-! ### Page kind `mrk` (R356, 10_placement.md) -/

def MRK_CTRL_EN : Fld := { pk := .mrk, off := 0x040, lo := 31, w := 1, acc := .rw, rst := 0 }
def MRK_CTRL_SWEEP_GBS : Fld := { pk := .mrk, off := 0x040, lo := 16, w := 8, acc := .rw, rst := 16, rng := [(1, 64)] }
def MRK_CTRL_CONFIRM : Fld := { pk := .mrk, off := 0x040, lo := 12, w := 4, acc := .rw, rst := 2, rng := [(1, 8)] }
def MRK_CTRL_TERM : Fld := { pk := .mrk, off := 0x040, lo := 0, w := 9, acc := .rw, rst := 16, rng := [(1, 256)] }
def MRK_TERMNO_N : Fld := { pk := .mrk, off := 0x048, lo := 0, w := 32, acc := .ro, rst := 0 }
def MRK_SWEEP_T_T : Fld := { pk := .mrk, off := 0x04C, lo := 0, w := 32, acc := .ro, rst := 0 }
def MRK_BUDGET_MAXMOVES : Fld := { pk := .mrk, off := 0x050, lo := 0, w := 20, acc := .rw, rst := 65536 }
def MRK_UNBOUND_PANS : Fld := { pk := .mrk, off := 0x054, lo := 0, w := 4, acc := .rw, rst := 15 }
def MRK_PAN_CFG_EN : Fld := { pk := .mrk, off := 0x060, lo := 31, w := 1, acc := .rw, rst := 0, cnt := 4, stride := 8 }
def MRK_PAN_CFG_WW : Fld := { pk := .mrk, off := 0x060, lo := 24, w := 4, acc := .rw, rst := 1, cnt := 4, stride := 8 }
def MRK_PAN_CFG_PROMOTE : Fld := { pk := .mrk, off := 0x060, lo := 16, w := 8, acc := .rw, rst := 64, cnt := 4, stride := 8 }
def MRK_PAN_CFG_DEMOTE : Fld := { pk := .mrk, off := 0x060, lo := 8, w := 8, acc := .rw, rst := 2, cnt := 4, stride := 8 }
def MRK_PAN_FILL_FILL_HI : Fld := { pk := .mrk, off := 0x064, lo := 16, w := 7, acc := .rw, rst := 95, cnt := 4, stride := 8, rng := [(1, 100)] }
def MRK_PAN_FILL_FILL_LO : Fld := { pk := .mrk, off := 0x064, lo := 8, w := 7, acc := .rw, rst := 80, cnt := 4, stride := 8, rng := [(0, 99)] }
def MRK_PAN_CAP_TILES : Fld := { pk := .mrk, off := 0x080, lo := 0, w := 32, acc := .ro, rst := 0, cnt := 4, stride := 8, view := true }
def MRK_PAN_USED_TILES : Fld := { pk := .mrk, off := 0x084, lo := 0, w := 32, acc := .ro, rst := 0, cnt := 4, stride := 8 }
def MRK_HIST_SEL_PAN : Fld := { pk := .mrk, off := 0x0A0, lo := 4, w := 2, acc := .rw, rst := 0 }
def MRK_HIST_SEL_BUCKET : Fld := { pk := .mrk, off := 0x0A0, lo := 0, w := 4, acc := .rw, rst := 0 }
def MRK_HIST_COUNT : Fld := { pk := .mrk, off := 0x0A4, lo := 0, w := 32, acc := .ro, rst := 0, view := true }
def MRK_CAND_UP_N : Fld := { pk := .mrk, off := 0x0A8, lo := 0, w := 32, acc := .ro, rst := 0 }
def MRK_CAND_DOWN_N : Fld := { pk := .mrk, off := 0x0AC, lo := 0, w := 32, acc := .ro, rst := 0 }
def MRK_CAND_DROP_N : Fld := { pk := .mrk, off := 0x0B0, lo := 0, w := 32, acc := .ro, rst := 0 }
def mrkFields0 : List Fld := [MRK_CTRL_EN, MRK_CTRL_SWEEP_GBS, MRK_CTRL_CONFIRM, MRK_CTRL_TERM, MRK_TERMNO_N, MRK_SWEEP_T_T, MRK_BUDGET_MAXMOVES, MRK_UNBOUND_PANS, MRK_PAN_CFG_EN, MRK_PAN_CFG_WW, MRK_PAN_CFG_PROMOTE, MRK_PAN_CFG_DEMOTE]
def mrkFields1 : List Fld := [MRK_PAN_FILL_FILL_HI, MRK_PAN_FILL_FILL_LO, MRK_PAN_CAP_TILES, MRK_PAN_USED_TILES, MRK_HIST_SEL_PAN, MRK_HIST_SEL_BUCKET, MRK_HIST_COUNT, MRK_CAND_UP_N, MRK_CAND_DOWN_N, MRK_CAND_DROP_N]
def mrkFields : List Fld := mrkFields0 ++ mrkFields1

/-! ### Page kind `rak` (R357, 10_placement.md) -/

def RAK_CTRL_EN : Fld := { pk := .rak, off := 0x040, lo := 31, w := 1, acc := .rw, rst := 1 }
def RAK_CTRL_SRC_WAIT : Fld := { pk := .rak, off := 0x040, lo := 16, w := 6, acc := .rw, rst := 5, rng := [(1, 60)] }
def RAK_CTRL_TEN_SLOTS : Fld := { pk := .rak, off := 0x040, lo := 0, w := 7, acc := .rw, rst := 32, rng := [(0, 64)] }
def RAK_CAP_TEN_PCT : Fld := { pk := .rak, off := 0x044, lo := 16, w := 7, acc := .rw, rst := 25, rng := [(0, 100)] }
def RAK_CAP_GBS : Fld := { pk := .rak, off := 0x044, lo := 0, w := 9, acc := .rw, rst := 50, rng := [(1, 400)] }
def RAK_STAT_BUSY : Fld := { pk := .rak, off := 0x048, lo := 24, w := 8, acc := .ro, rst := 0, view := true }
def RAK_STAT_TENJOBS : Fld := { pk := .rak, off := 0x048, lo := 16, w := 7, acc := .ro, rst := 0, view := true }
def RAK_STAT_PENDING : Fld := { pk := .rak, off := 0x048, lo := 0, w := 14, acc := .ro, rst := 0, view := true }
def RAK_ERR_VALID : Fld := { pk := .rak, off := 0x04C, lo := 31, w := 1, acc := .rw1c, rst := 0 }
def RAK_ERR_CAUSE : Fld := { pk := .rak, off := 0x04C, lo := 29, w := 2, acc := .ro, rst := 0 }
def RAK_ERR_TILE : Fld := { pk := .rak, off := 0x04C, lo := 0, w := 29, acc := .ro, rst := 0 }
def RAK_SLOT_BUSY : Fld := { pk := .rak, off := 0x100, lo := 31, w := 1, acc := .ro, rst := 0, cnt := 128, stride := 8, view := true }
def RAK_SLOT_KIND : Fld := { pk := .rak, off := 0x100, lo := 29, w := 2, acc := .ro, rst := 0, cnt := 128, stride := 8, view := true }
def RAK_SLOT_ID : Fld := { pk := .rak, off := 0x100, lo := 0, w := 29, acc := .ro, rst := 0, cnt := 128, stride := 8, view := true }
def RAK_SLOT_PROG_WAITSRC : Fld := { pk := .rak, off := 0x104, lo := 20, w := 1, acc := .ro, rst := 0, cnt := 128, stride := 8, view := true }
def RAK_SLOT_PROG_REASON : Fld := { pk := .rak, off := 0x104, lo := 16, w := 4, acc := .ro, rst := 0, cnt := 128, stride := 8, view := true }
def RAK_SLOT_PROG_PROG : Fld := { pk := .rak, off := 0x104, lo := 0, w := 16, acc := .ro, rst := 0, cnt := 128, stride := 8, view := true }
def rakFields0 : List Fld := [RAK_CTRL_EN, RAK_CTRL_SRC_WAIT, RAK_CTRL_TEN_SLOTS, RAK_CAP_TEN_PCT, RAK_CAP_GBS, RAK_STAT_BUSY, RAK_STAT_TENJOBS, RAK_STAT_PENDING, RAK_ERR_VALID, RAK_ERR_CAUSE, RAK_ERR_TILE, RAK_SLOT_BUSY]
def rakFields1 : List Fld := [RAK_SLOT_KIND, RAK_SLOT_ID, RAK_SLOT_PROG_WAITSRC, RAK_SLOT_PROG_REASON, RAK_SLOT_PROG_PROG]
def rakFields : List Fld := rakFields0 ++ rakFields1

/-! ### Page kind `carC` (R389, 11_media_care.md) -/

def CAR_CTRL_EN : Fld := { pk := .carC, off := 0x040, lo := 31, w := 1, acc := .rw, rst := 1 }
def CAR_CTRL_PASS_H : Fld := { pk := .carC, off := 0x040, lo := 16, w := 8, acc := .rw, rst := 6, rng := [(1, 48)] }
def CAR_CTRL_PASS_GBS : Fld := { pk := .carC, off := 0x040, lo := 8, w := 8, acc := .rw, rst := 4, rng := [(1, 64)] }
def CAR_CTRL_RECOVER : Fld := { pk := .carC, off := 0x040, lo := 7, w := 1, acc := .rw, rst := 0 }
def CAR_TIMERS_LOST_WAIT : Fld := { pk := .carC, off := 0x044, lo := 16, w := 16, acc := .rw, rst := 60, rng := [(1, 3600)] }
def CAR_TIMERS_EVAC_S : Fld := { pk := .carC, off := 0x044, lo := 0, w := 16, acc := .rw, rst := 600, rng := [(1, 65535)] }
def CAR_TIMERS2_OFF_EQH : Fld := { pk := .carC, off := 0x048, lo := 16, w := 16, acc := .rw, rst := 720 }
def CAR_TIMERS2_HEALTH_S : Fld := { pk := .carC, off := 0x048, lo := 0, w := 12, acc := .rw, rst := 10, rng := [(1, 3600)] }
def CAR_MARGIN_H : Fld := { pk := .carC, off := 0x04C, lo := 0, w := 32, acc := .ro, rst := 0xFFFFFFFF }
def CAR_MARGIN_TILE_VALID : Fld := { pk := .carC, off := 0x050, lo := 31, w := 1, acc := .ro, rst := 0 }
def CAR_MARGIN_TILE_TILE : Fld := { pk := .carC, off := 0x050, lo := 0, w := 29, acc := .ro, rst := 0 }
def CAR_PASSNO_N : Fld := { pk := .carC, off := 0x054, lo := 0, w := 32, acc := .ro, rst := 0 }
def CAR_PASS_T_T : Fld := { pk := .carC, off := 0x058, lo := 0, w := 32, acc := .ro, rst := 0 }
def CAR_RING_VALID : Fld := { pk := .carC, off := 0x060, lo := 31, w := 1, acc := .ro, rst := 0, view := true }
def CAR_RING_KIND : Fld := { pk := .carC, off := 0x060, lo := 28, w := 3, acc := .ro, rst := 0, view := true }
def CAR_RING_SLOT : Fld := { pk := .carC, off := 0x060, lo := 27, w := 1, acc := .ro, rst := 0, view := true }
def CAR_RING_PORT : Fld := { pk := .carC, off := 0x060, lo := 0, w := 10, acc := .ro, rst := 0, view := true }
def CAR_RING_TILE_TILE : Fld := { pk := .carC, off := 0x064, lo := 0, w := 29, acc := .ro, rst := 0 }
def CAR_EXP_TILE_VALID : Fld := { pk := .carC, off := 0x068, lo := 31, w := 1, acc := .rw1c, rst := 0 }
def CAR_EXP_TILE_TILE : Fld := { pk := .carC, off := 0x068, lo := 0, w := 29, acc := .ro, rst := 0 }
def carCFields0 : List Fld := [CAR_CTRL_EN, CAR_CTRL_PASS_H, CAR_CTRL_PASS_GBS, CAR_CTRL_RECOVER, CAR_TIMERS_LOST_WAIT, CAR_TIMERS_EVAC_S, CAR_TIMERS2_OFF_EQH, CAR_TIMERS2_HEALTH_S, CAR_MARGIN_H, CAR_MARGIN_TILE_VALID, CAR_MARGIN_TILE_TILE, CAR_PASSNO_N]
def carCFields1 : List Fld := [CAR_PASS_T_T, CAR_RING_VALID, CAR_RING_KIND, CAR_RING_SLOT, CAR_RING_PORT, CAR_RING_TILE_TILE, CAR_EXP_TILE_VALID, CAR_EXP_TILE_TILE]
def carCFields : List Fld := carCFields0 ++ carCFields1

/-! ### Page kind `carD` (R389, 11_media_care.md) -/

def CAR_DEV_CFG_EN : Fld := { pk := .carD, off := 0x040, lo := 31, w := 1, acc := .rw, rst := 0 }
def CAR_DEV_CFG_CLASS : Fld := { pk := .carD, off := 0x040, lo := 26, w := 2, acc := .rw, rst := 0, rng := [(0, 1)] }
def CAR_DEV_CFG_CSTAT : Fld := { pk := .carD, off := 0x040, lo := 20, w := 4, acc := .ro, rst := 0 }
def CAR_DEV_CFG_PORT : Fld := { pk := .carD, off := 0x040, lo := 0, w := 10, acc := .rw, rst := 0 }
def CAR_DEV_MEDIA_RET_H : Fld := { pk := .carD, off := 0x044, lo := 16, w := 16, acc := .rw, rst := 2000, rng := [(1, 65535)] }
def CAR_DEV_MEDIA_TREF : Fld := { pk := .carD, off := 0x044, lo := 8, w := 8, acc := .rw, rst := 40, rng := [(0, 125)] }
def CAR_DEV_MEDIA_HALVE : Fld := { pk := .carD, off := 0x044, lo := 0, w := 6, acc := .rw, rst := 10, rng := [(1, 63)] }
def CAR_DEV_THR_TDEF : Fld := { pk := .carD, off := 0x048, lo := 24, w := 8, acc := .rw, rst := 85, rng := [(0, 125)] }
def CAR_DEV_THR_REWET_PCT : Fld := { pk := .carD, off := 0x048, lo := 16, w := 8, acc := .rw, rst := 60, rng := [(10, 95)] }
def CAR_DEV_THR_SPARE_PCT : Fld := { pk := .carD, off := 0x048, lo := 8, w := 8, acc := .rw, rst := 2, rng := [(0, 20)] }
def CAR_DEV_THR_RETMAX_PCT : Fld := { pk := .carD, off := 0x048, lo := 0, w := 8, acc := .rw, rst := 5, rng := [(1, 50)] }
def CAR_DEV_WEAR_ENDUR : Fld := { pk := .carD, off := 0x04C, lo := 24, w := 8, acc := .rw, rst := 10, rng := [(1, 131)] }
def CAR_DEV_WEAR_WL_GAP : Fld := { pk := .carD, off := 0x04C, lo := 16, w := 8, acc := .rw, rst := 10, rng := [(1, 50)] }
def CAR_DEV_WEAR_RETIRE_PCT : Fld := { pk := .carD, off := 0x04C, lo := 8, w := 8, acc := .rw, rst := 90, rng := [(50, 100)] }
def CAR_DEV_WEAR_DEF_MAX : Fld := { pk := .carD, off := 0x04C, lo := 4, w := 4, acc := .rw, rst := 2, rng := [(1, 15)] }
def CAR_DEV_STAT_STATE : Fld := { pk := .carD, off := 0x050, lo := 29, w := 3, acc := .ro, rst := 0 }
def CAR_DEV_STAT_HOLD : Fld := { pk := .carD, off := 0x050, lo := 28, w := 1, acc := .ro, rst := 0 }
def CAR_DEV_STAT_MAINT : Fld := { pk := .carD, off := 0x050, lo := 27, w := 1, acc := .ro, rst := 0 }
def CAR_DEV_STAT_DEGRADED : Fld := { pk := .carD, off := 0x050, lo := 26, w := 1, acc := .ro, rst := 0 }
def CAR_DEV_STAT_REPLACE : Fld := { pk := .carD, off := 0x050, lo := 25, w := 1, acc := .ro, rst := 0 }
def CAR_DEV_STAT_LIFE : Fld := { pk := .carD, off := 0x050, lo := 18, w := 7, acc := .ro, rst := 0 }
def CAR_DEV_STAT_TWSTALE : Fld := { pk := .carD, off := 0x050, lo := 17, w := 1, acc := .ro, rst := 0 }
def CAR_DEV_STAT_TVALID : Fld := { pk := .carD, off := 0x050, lo := 10, w := 1, acc := .ro, rst := 0 }
def CAR_DEV_STAT_TEMP : Fld := { pk := .carD, off := 0x050, lo := 0, w := 10, acc := .ro, rst := 0 }
def CAR_DEV_AGE_AGE : Fld := { pk := .carD, off := 0x054, lo := 0, w := 32, acc := .ro, rst := 0 }
def CAR_DEV_REGION_C : Fld := { pk := .carD, off := 0x058, lo := 0, w := 16, acc := .ro, rst := 0 }
def CAR_DEV_RETIRED_N : Fld := { pk := .carD, off := 0x05C, lo := 0, w := 32, acc := .ro, rst := 0 }
def CAR_DEV_WMEAN_MEAN : Fld := { pk := .carD, off := 0x060, lo := 0, w := 32, acc := .ro, rst := 0 }
def CAR_DEV_EVAC_ABORT : Fld := { pk := .carD, off := 0x064, lo := 31, w := 1, acc := .wo, rst := 0 }
def CAR_DEV_EVAC_CODE : Fld := { pk := .carD, off := 0x064, lo := 28, w := 3, acc := .wo, rst := 0 }
def CAR_DEV_EVAC_STATUS : Fld := { pk := .carD, off := 0x064, lo := 0, w := 4, acc := .ro, rst := 0 }
def CAR_DEV_EVAC_LEFT_LEFT : Fld := { pk := .carD, off := 0x068, lo := 0, w := 32, acc := .ro, rst := 0 }
def carDFields0 : List Fld := [CAR_DEV_CFG_EN, CAR_DEV_CFG_CLASS, CAR_DEV_CFG_CSTAT, CAR_DEV_CFG_PORT, CAR_DEV_MEDIA_RET_H, CAR_DEV_MEDIA_TREF, CAR_DEV_MEDIA_HALVE, CAR_DEV_THR_TDEF, CAR_DEV_THR_REWET_PCT, CAR_DEV_THR_SPARE_PCT, CAR_DEV_THR_RETMAX_PCT, CAR_DEV_WEAR_ENDUR]
def carDFields1 : List Fld := [CAR_DEV_WEAR_WL_GAP, CAR_DEV_WEAR_RETIRE_PCT, CAR_DEV_WEAR_DEF_MAX, CAR_DEV_STAT_STATE, CAR_DEV_STAT_HOLD, CAR_DEV_STAT_MAINT, CAR_DEV_STAT_DEGRADED, CAR_DEV_STAT_REPLACE, CAR_DEV_STAT_LIFE, CAR_DEV_STAT_TWSTALE, CAR_DEV_STAT_TVALID, CAR_DEV_STAT_TEMP]
def carDFields2 : List Fld := [CAR_DEV_AGE_AGE, CAR_DEV_REGION_C, CAR_DEV_RETIRED_N, CAR_DEV_WMEAN_MEAN, CAR_DEV_EVAC_ABORT, CAR_DEV_EVAC_CODE, CAR_DEV_EVAC_STATUS, CAR_DEV_EVAC_LEFT_LEFT]
def carDFields : List Fld := carDFields0 ++ carDFields1 ++ carDFields2

/-! ### Page kind `rolC` (R421, 12_coherence.md) -/

def ROL_CTRL_SNP_TMO : Fld := { pk := .rolC, off := 0x040, lo := 0, w := 16, acc := .rw, rst := 10000, rng := [(100, 65535)] }
def ROL_STAT_SCRUB : Fld := { pk := .rolC, off := 0x044, lo := 31, w := 1, acc := .ro, rst := 0 }
def ROL_STAT_GONE_N : Fld := { pk := .rolC, off := 0x044, lo := 0, w := 9, acc := .ro, rst := 0, view := true }
def ROL_GONE_GONE : Fld := { pk := .rolC, off := 0x048, lo := 0, w := 32, acc := .ro, rst := 0, cnt := 8, stride := 4 }
def ROL_PARK_USED : Fld := { pk := .rolC, off := 0x068, lo := 0, w := 20, acc := .ro, rst := 0, view := true }
def ROL_PARK_HW_CLR : Fld := { pk := .rolC, off := 0x06C, lo := 31, w := 1, acc := .wo, rst := 0 }
def ROL_PARK_HW_HW : Fld := { pk := .rolC, off := 0x06C, lo := 0, w := 20, acc := .ro, rst := 0 }
def ROL_ERR_VALID : Fld := { pk := .rolC, off := 0x070, lo := 31, w := 1, acc := .rw1c, rst := 0 }
def ROL_ERR_CAUSE : Fld := { pk := .rolC, off := 0x070, lo := 28, w := 3, acc := .ro, rst := 0 }
def ROL_ERR_HOST : Fld := { pk := .rolC, off := 0x070, lo := 0, w := 8, acc := .ro, rst := 0 }
def ROL_ERR_LINE_LO_LINE : Fld := { pk := .rolC, off := 0x074, lo := 0, w := 32, acc := .ro, rst := 0 }
def ROL_ERR_LINE_HI_LINE : Fld := { pk := .rolC, off := 0x078, lo := 0, w := 12, acc := .ro, rst := 0 }
def ROL_PROBE_GO : Fld := { pk := .rolC, off := 0x080, lo := 31, w := 1, acc := .rw1s, rst := 0 }
def ROL_PROBE_HIT : Fld := { pk := .rolC, off := 0x080, lo := 30, w := 1, acc := .ro, rst := 0 }
def ROL_PROBE_LOCKED : Fld := { pk := .rolC, off := 0x080, lo := 29, w := 1, acc := .ro, rst := 0 }
def ROL_PROBE_LINE_HI : Fld := { pk := .rolC, off := 0x080, lo := 0, w := 12, acc := .rw, rst := 0 }
def ROL_PROBE_LO_LINE_LO : Fld := { pk := .rolC, off := 0x084, lo := 0, w := 32, acc := .rw, rst := 0 }
def ROL_PROBE_E0_ENTRY : Fld := { pk := .rolC, off := 0x088, lo := 0, w := 32, acc := .ro, rst := 0 }
def ROL_PROBE_E1_ENTRY : Fld := { pk := .rolC, off := 0x08C, lo := 0, w := 32, acc := .ro, rst := 0 }
def rolCFields0 : List Fld := [ROL_CTRL_SNP_TMO, ROL_STAT_SCRUB, ROL_STAT_GONE_N, ROL_GONE_GONE, ROL_PARK_USED, ROL_PARK_HW_CLR, ROL_PARK_HW_HW, ROL_ERR_VALID, ROL_ERR_CAUSE, ROL_ERR_HOST, ROL_ERR_LINE_LO_LINE, ROL_ERR_LINE_HI_LINE]
def rolCFields1 : List Fld := [ROL_PROBE_GO, ROL_PROBE_HIT, ROL_PROBE_LOCKED, ROL_PROBE_LINE_HI, ROL_PROBE_LO_LINE_LO, ROL_PROBE_E0_ENTRY, ROL_PROBE_E1_ENTRY]
def rolCFields : List Fld := rolCFields0 ++ rolCFields1

/-! ### Page kind `rolS` (R421, 12_coherence.md) -/

def ROL_SL_STAT_TRK : Fld := { pk := .rolS, off := 0x040, lo := 16, w := 11, acc := .ro, rst := 0, view := true }
def ROL_SL_STAT_WAIT : Fld := { pk := .rolS, off := 0x040, lo := 0, w := 16, acc := .ro, rst := 0, view := true }
def ROL_SL_VALID_N : Fld := { pk := .rolS, off := 0x044, lo := 0, w := 18, acc := .ro, rst := 0, view := true }
def ROL_SL_COARSE_N : Fld := { pk := .rolS, off := 0x048, lo := 0, w := 18, acc := .ro, rst := 0, view := true }
def rolSFields0 : List Fld := [ROL_SL_STAT_TRK, ROL_SL_STAT_WAIT, ROL_SL_VALID_N, ROL_SL_COARSE_N]
def rolSFields : List Fld := rolSFields0

/-! ### Page kind `slt` (R449, 13_ordering.md) -/

def SLT_CTRL_AGE : Fld := { pk := .slt, off := 0x040, lo := 0, w := 10, acc := .rw, rst := 50, rng := [(1, 1000)] }
def SLT_WAT_HIWAT : Fld := { pk := .slt, off := 0x044, lo := 16, w := 11, acc := .rw, rst := 768, rng := [(64, 1024)] }
def SLT_WAT_LOWAT : Fld := { pk := .slt, off := 0x044, lo := 0, w := 11, acc := .rw, rst := 512, rng := [(0, 1023)] }
def SLT_STAT_DRAINALL : Fld := { pk := .slt, off := 0x048, lo := 31, w := 1, acc := .ro, rst := 0, view := true }
def SLT_STAT_OCC : Fld := { pk := .slt, off := 0x048, lo := 16, w := 11, acc := .ro, rst := 0, view := true }
def SLT_STAT_INFLIGHT : Fld := { pk := .slt, off := 0x048, lo := 0, w := 11, acc := .ro, rst := 0, view := true }
def SLT_DRAIN_GO : Fld := { pk := .slt, off := 0x04C, lo := 31, w := 1, acc := .rw1s, rst := 0 }
def SLT_OCC_HW_CLR : Fld := { pk := .slt, off := 0x050, lo := 31, w := 1, acc := .wo, rst := 0 }
def SLT_OCC_HW_HW : Fld := { pk := .slt, off := 0x050, lo := 0, w := 11, acc := .ro, rst := 0 }
def SLT_ERR_VALID : Fld := { pk := .slt, off := 0x054, lo := 31, w := 1, acc := .rw1c, rst := 0 }
def SLT_ERR_CAUSE : Fld := { pk := .slt, off := 0x054, lo := 28, w := 3, acc := .ro, rst := 0 }
def SLT_ERR_TEN : Fld := { pk := .slt, off := 0x054, lo := 12, w := 12, acc := .ro, rst := 0 }
def SLT_ERR_LINE_LO_LINE : Fld := { pk := .slt, off := 0x058, lo := 0, w := 32, acc := .ro, rst := 0 }
def SLT_ERR_LINE_HI_LINE : Fld := { pk := .slt, off := 0x05C, lo := 0, w := 12, acc := .ro, rst := 0 }
def SLT_LOSTTAB_USED : Fld := { pk := .slt, off := 0x060, lo := 0, w := 19, acc := .ro, rst := 0, view := true }
def sltFields0 : List Fld := [SLT_CTRL_AGE, SLT_WAT_HIWAT, SLT_WAT_LOWAT, SLT_STAT_DRAINALL, SLT_STAT_OCC, SLT_STAT_INFLIGHT, SLT_DRAIN_GO, SLT_OCC_HW_CLR, SLT_OCC_HW_HW, SLT_ERR_VALID, SLT_ERR_CAUSE, SLT_ERR_TEN]
def sltFields1 : List Fld := [SLT_ERR_LINE_LO_LINE, SLT_ERR_LINE_HI_LINE, SLT_LOSTTAB_USED]
def sltFields : List Fld := sltFields0 ++ sltFields1

/-! ### Page kind `ten` (R472, 14_tenancy_qos.md) -/

def TEN_CFG_SELFRST : Fld := { pk := .ten, off := 0x040, lo := 31, w := 1, acc := .rw, rst := 0 }
def TEN_CFG_PORT : Fld := { pk := .ten, off := 0x040, lo := 0, w := 10, acc := .rw, rst := 0 }
def TEN_PASID_LO_PASID : Fld := { pk := .ten, off := 0x044, lo := 0, w := 20, acc := .rw, rst := 0 }
def TEN_PASID_HI_PASID : Fld := { pk := .ten, off := 0x048, lo := 0, w := 20, acc := .rw, rst := 0xFFFFF }
def TEN_STAT_STATE : Fld := { pk := .ten, off := 0x04C, lo := 29, w := 3, acc := .ro, rst := 0 }
def TEN_STAT_JOBPAUSED : Fld := { pk := .ten, off := 0x04C, lo := 28, w := 1, acc := .ro, rst := 0, view := true }
def TEN_STAT_LOSTPEND : Fld := { pk := .ten, off := 0x04C, lo := 27, w := 1, acc := .ro, rst := 0, view := true }
def TEN_STAT_GEN : Fld := { pk := .ten, off := 0x04C, lo := 0, w := 16, acc := .ro, rst := 0 }
def TEN_CMD_GO : Fld := { pk := .ten, off := 0x050, lo := 31, w := 1, acc := .rw1s, rst := 0 }
def TEN_CMD_OP : Fld := { pk := .ten, off := 0x050, lo := 28, w := 3, acc := .rw, rst := 0 }
def TEN_CMD_STATUS : Fld := { pk := .ten, off := 0x050, lo := 0, w := 4, acc := .ro, rst := 0 }
def TEN_BELL_LIMIT_LIMIT : Fld := { pk := .ten, off := 0x054, lo := 0, w := 14, acc := .rw, rst := 200, rng := [(10, 10000)] }
def TEN_DRAIN_LIMIT : Fld := { pk := .ten, off := 0x058, lo := 0, w := 14, acc := .rw, rst := 100, rng := [(10, 10000)] }
def TEN_ABASE_LO_ABASE : Fld := { pk := .ten, off := 0x05C, lo := 12, w := 20, acc := .rw, rst := 0 }
def TEN_ABASE_HI_ABASE : Fld := { pk := .ten, off := 0x060, lo := 0, w := 18, acc := .rw, rst := 0 }
def TEN_LOSS_CNT_OVF : Fld := { pk := .ten, off := 0x064, lo := 8, w := 24, acc := .ro, rst := 0, view := true }
def TEN_LOSS_CNT_N : Fld := { pk := .ten, off := 0x064, lo := 0, w := 7, acc := .ro, rst := 0, view := true }
def TEN_LOSS_CLR_OVFCLR : Fld := { pk := .ten, off := 0x068, lo := 31, w := 1, acc := .wo, rst := 0 }
def TEN_LOSS_CLR_N : Fld := { pk := .ten, off := 0x068, lo := 0, w := 7, acc := .wo, rst := 0 }
def tenFields0 : List Fld := [TEN_CFG_SELFRST, TEN_CFG_PORT, TEN_PASID_LO_PASID, TEN_PASID_HI_PASID, TEN_STAT_STATE, TEN_STAT_JOBPAUSED, TEN_STAT_LOSTPEND, TEN_STAT_GEN, TEN_CMD_GO, TEN_CMD_OP, TEN_CMD_STATUS, TEN_BELL_LIMIT_LIMIT]
def tenFields1 : List Fld := [TEN_DRAIN_LIMIT, TEN_ABASE_LO_ABASE, TEN_ABASE_HI_ABASE, TEN_LOSS_CNT_OVF, TEN_LOSS_CNT_N, TEN_LOSS_CLR_OVFCLR, TEN_LOSS_CLR_N]
def tenFields : List Fld := tenFields0 ++ tenFields1

/-! ### Page kind `shpT` (R473, 14_tenancy_qos.md) -/

def SHP_PRATE_EN : Fld := { pk := .shpT, off := 0x040, lo := 31, w := 1, acc := .rw, rst := 0 }
def SHP_PRATE_RATE : Fld := { pk := .shpT, off := 0x040, lo := 0, w := 24, acc := .rw, rst := 256, rng := [(1, 16777215)] }
def SHP_PBURST_BURST : Fld := { pk := .shpT, off := 0x044, lo := 0, w := 20, acc := .rw, rst := 4096, rng := [(2, 1048575)] }
def SHP_PTOK_TOK : Fld := { pk := .shpT, off := 0x048, lo := 0, w := 32, acc := .ro, rst := 0 }
def SHP_SRATE_EN : Fld := { pk := .shpT, off := 0x04C, lo := 31, w := 1, acc := .rw, rst := 0 }
def SHP_SRATE_RATE : Fld := { pk := .shpT, off := 0x04C, lo := 0, w := 24, acc := .rw, rst := 256, rng := [(1, 16777215)] }
def SHP_SBURST_QMAX : Fld := { pk := .shpT, off := 0x050, lo := 20, w := 11, acc := .rw, rst := 0, rng := [(0, 1024)] }
def SHP_SBURST_BURST : Fld := { pk := .shpT, off := 0x050, lo := 0, w := 20, acc := .rw, rst := 4096, rng := [(2, 1048575)] }
def SHP_STOK_TOK : Fld := { pk := .shpT, off := 0x054, lo := 0, w := 32, acc := .ro, rst := 0 }
def SHP_SQ_QREFUSED : Fld := { pk := .shpT, off := 0x058, lo := 31, w := 1, acc := .rw1c, rst := 0 }
def SHP_SQ_QUEUED : Fld := { pk := .shpT, off := 0x058, lo := 0, w := 11, acc := .ro, rst := 0, view := true }
def SHP_WEIGHT_W : Fld := { pk := .shpT, off := 0x05C, lo := 0, w := 8, acc := .rw, rst := 16 }
def shpTFields0 : List Fld := [SHP_PRATE_EN, SHP_PRATE_RATE, SHP_PBURST_BURST, SHP_PTOK_TOK, SHP_SRATE_EN, SHP_SRATE_RATE, SHP_SBURST_QMAX, SHP_SBURST_BURST, SHP_STOK_TOK, SHP_SQ_QREFUSED, SHP_SQ_QUEUED, SHP_WEIGHT_W]
def shpTFields : List Fld := shpTFields0

/-! ### Page kind `shpP` (R473, 14_tenancy_qos.md) -/

def SHP_PORT_EN : Fld := { pk := .shpP, off := 0x040, lo := 31, w := 1, acc := .rw, rst := 1 }
def SHP_PORT_SYSW : Fld := { pk := .shpP, off := 0x040, lo := 0, w := 8, acc := .rw, rst := 64, rng := [(1, 255)] }
def SHP_PORT_Q_QSUM : Fld := { pk := .shpP, off := 0x044, lo := 16, w := 11, acc := .ro, rst := 0, view := true }
def SHP_PORT_Q_USED : Fld := { pk := .shpP, off := 0x044, lo := 0, w := 11, acc := .ro, rst := 0, view := true }
def shpPFields0 : List Fld := [SHP_PORT_EN, SHP_PORT_SYSW, SHP_PORT_Q_QSUM, SHP_PORT_Q_USED]
def shpPFields : List Fld := shpPFields0

/-! ### Page kind `flt` (R509, 16_faults.md) -/

def FLT_CTRL_FE_ACT : Fld := { pk := .flt, off := 0x040, lo := 16, w := 2, acc := .rwl, rst := 0, rng := [(0, 2)] }
def FLT_CTRL_FE_DELAY : Fld := { pk := .flt, off := 0x040, lo := 8, w := 8, acc := .rwl, rst := 10, rng := [(1, 255)] }
def FLT_ERRN_FORCE : Fld := { pk := .flt, off := 0x044, lo := 31, w := 1, acc := .rw, rst := 0 }
def FLT_ERRN_MODE : Fld := { pk := .flt, off := 0x044, lo := 30, w := 1, acc := .rw, rst := 0 }
def FLT_ERRN_LOW : Fld := { pk := .flt, off := 0x044, lo := 29, w := 1, acc := .ro, rst := 0, view := true }
def FLT_ERRN_SEV_FE : Fld := { pk := .flt, off := 0x044, lo := 26, w := 1, acc := .ro, rst := 1 }
def FLT_ERRN_SEV_UC : Fld := { pk := .flt, off := 0x044, lo := 25, w := 1, acc := .rw, rst := 1 }
def FLT_ERRN_SEV_CE : Fld := { pk := .flt, off := 0x044, lo := 24, w := 1, acc := .rw, rst := 0 }
def FLT_ERRN_PULSE : Fld := { pk := .flt, off := 0x044, lo := 0, w := 8, acc := .rw, rst := 2, rng := [(2, 255)] }
def FLT_PEND_SEV : Fld := { pk := .flt, off := 0x048, lo := 0, w := 3, acc := .rw1c, rst := 0 }
def FLT_IRQ_EN_SEV : Fld := { pk := .flt, off := 0x04C, lo := 0, w := 3, acc := .rw, rst := 7 }
def FLT_CLR_SEQ : Fld := { pk := .flt, off := 0x050, lo := 0, w := 16, acc := .wo, rst := 0 }
def FLT_CNTCE_N : Fld := { pk := .flt, off := 0x054, lo := 0, w := 32, acc := .ro, rst := 0 }
def FLT_CNTUC_N : Fld := { pk := .flt, off := 0x058, lo := 0, w := 32, acc := .ro, rst := 0 }
def FLT_CNTFE_N : Fld := { pk := .flt, off := 0x05C, lo := 0, w := 32, acc := .ro, rst := 0 }
def FLT_LOG_STAT_NEWEST : Fld := { pk := .flt, off := 0x060, lo := 16, w := 16, acc := .ro, rst := 0, view := true }
def FLT_LOG_STAT_OLDEST : Fld := { pk := .flt, off := 0x060, lo := 0, w := 16, acc := .ro, rst := 0, view := true }
def FLT_LOG_LOST_N : Fld := { pk := .flt, off := 0x064, lo := 0, w := 32, acc := .ro, rst := 0 }
def FLT_LOG_SEL_HIT : Fld := { pk := .flt, off := 0x068, lo := 31, w := 1, acc := .ro, rst := 0, view := true }
def FLT_LOG_SEL_SEQ : Fld := { pk := .flt, off := 0x068, lo := 0, w := 16, acc := .rw, rst := 0 }
def FLT_LINK_STAT_VALID : Fld := { pk := .flt, off := 0x06C, lo := 31, w := 1, acc := .ro, rst := 0, view := true }
def FLT_LINK_STAT_BLOCK : Fld := { pk := .flt, off := 0x06C, lo := 26, w := 5, acc := .ro, rst := 0, view := true }
def FLT_LINK_STAT_INST : Fld := { pk := .flt, off := 0x06C, lo := 13, w := 13, acc := .ro, rst := 0, view := true }
def FLT_LINK_STAT_N : Fld := { pk := .flt, off := 0x06C, lo := 0, w := 13, acc := .ro, rst := 0, view := true }
def FLT_FIRST_WORD : Fld := { pk := .flt, off := 0x080, lo := 0, w := 32, acc := .ro, rst := 0, cnt := 5, stride := 4 }
def FLT_NEXT_WORD : Fld := { pk := .flt, off := 0x0A0, lo := 0, w := 32, acc := .ro, rst := 0, cnt := 5, stride := 4 }
def FLT_LOG_E_WORD : Fld := { pk := .flt, off := 0x0C0, lo := 0, w := 32, acc := .ro, rst := 0, cnt := 5, stride := 4, view := true }
def fltFields0 : List Fld := [FLT_CTRL_FE_ACT, FLT_CTRL_FE_DELAY, FLT_ERRN_FORCE, FLT_ERRN_MODE, FLT_ERRN_LOW, FLT_ERRN_SEV_FE, FLT_ERRN_SEV_UC, FLT_ERRN_SEV_CE, FLT_ERRN_PULSE, FLT_PEND_SEV, FLT_IRQ_EN_SEV, FLT_CLR_SEQ]
def fltFields1 : List Fld := [FLT_CNTCE_N, FLT_CNTUC_N, FLT_CNTFE_N, FLT_LOG_STAT_NEWEST, FLT_LOG_STAT_OLDEST, FLT_LOG_LOST_N, FLT_LOG_SEL_HIT, FLT_LOG_SEL_SEQ, FLT_LINK_STAT_VALID, FLT_LINK_STAT_BLOCK, FLT_LINK_STAT_INST, FLT_LINK_STAT_N]
def fltFields2 : List Fld := [FLT_FIRST_WORD, FLT_NEXT_WORD, FLT_LOG_E_WORD]
def fltFields : List Fld := fltFields0 ++ fltFields1 ++ fltFields2

/-! ### Page kind `slp` (R527, 17_slot_power.md) -/

def SLP_CFG_EN : Fld := { pk := .slp, off := 0x040, lo := 31, w := 1, acc := .rws, rst := 0 }
def SLP_CFG_RETRIES : Fld := { pk := .slp, off := 0x040, lo := 28, w := 3, acc := .rws, rst := 3 }
def SLP_CFG_GOV : Fld := { pk := .slp, off := 0x040, lo := 24, w := 4, acc := .rws, rst := 10, rng := [(5, 10)] }
def SLP_CFG_VLIM : Fld := { pk := .slp, off := 0x040, lo := 16, w := 7, acc := .rws, rst := 25, rng := [(10, 80)] }
def SLP_CFG_RAMP : Fld := { pk := .slp, off := 0x040, lo := 8, w := 8, acc := .rws, rst := 10, rng := [(1, 100)] }
def SLP_CFG_RAMPTO : Fld := { pk := .slp, off := 0x040, lo := 0, w := 8, acc := .rws, rst := 50, rng := [(1, 255)] }
def SLP_TIM_TFLT : Fld := { pk := .slp, off := 0x044, lo := 24, w := 8, acc := .rws, rst := 39 }
def SLP_TIM_COOL : Fld := { pk := .slp, off := 0x044, lo := 16, w := 7, acc := .rws, rst := 9 }
def SLP_TIM_TPGQ : Fld := { pk := .slp, off := 0x044, lo := 8, w := 8, acc := .rws, rst := 10, rng := [(1, 255)] }
def SLP_PRES_TINS : Fld := { pk := .slp, off := 0x048, lo := 24, w := 8, acc := .rws, rst := 10, rng := [(1, 255)] }
def SLP_PRES_TREM : Fld := { pk := .slp, off := 0x048, lo := 16, w := 8, acc := .rws, rst := 10, rng := [(1, 255)] }
def SLP_PRES_PBIT : Fld := { pk := .slp, off := 0x048, lo := 0, w := 10, acc := .rws, rst := 1023 }
def SLP_RAIL_VWARN : Fld := { pk := .slp, off := 0x04C, lo := 16, w := 9, acc := .rws, rst := 216, rng := [(50, 280)] }
def SLP_RAIL_VHYS : Fld := { pk := .slp, off := 0x04C, lo := 0, w := 7, acc := .rws, rst := 20, rng := [(5, 100)] }
def SLP_CTRL_REQ : Fld := { pk := .slp, off := 0x050, lo := 31, w := 1, acc := .rws, rst := 0 }
def SLP_STAT_STATE : Fld := { pk := .slp, off := 0x054, lo := 29, w := 3, acc := .ro, rst := 0 }
def SLP_STAT_PG : Fld := { pk := .slp, off := 0x054, lo := 28, w := 1, acc := .ro, rst := 0 }
def SLP_STAT_PRESENT : Fld := { pk := .slp, off := 0x054, lo := 27, w := 1, acc := .ro, rst := 0 }
def SLP_STAT_RAW : Fld := { pk := .slp, off := 0x054, lo := 26, w := 1, acc := .ro, rst := 0, view := true }
def SLP_STAT_LIMIT : Fld := { pk := .slp, off := 0x054, lo := 25, w := 1, acc := .ro, rst := 0 }
def SLP_STAT_GATEFULL : Fld := { pk := .slp, off := 0x054, lo := 24, w := 1, acc := .ro, rst := 0 }
def SLP_STAT_HVOK : Fld := { pk := .slp, off := 0x054, lo := 23, w := 1, acc := .ro, rst := 0, view := true }
def SLP_STAT_RETRY : Fld := { pk := .slp, off := 0x054, lo := 20, w := 3, acc := .ro, rst := 0 }
def SLP_STAT_CAUSE : Fld := { pk := .slp, off := 0x054, lo := 17, w := 3, acc := .ro, rst := 0 }
def SLP_STAT_MAPPED : Fld := { pk := .slp, off := 0x054, lo := 16, w := 1, acc := .ro, rst := 0, view := true }
def SLP_STAT_PORT : Fld := { pk := .slp, off := 0x054, lo := 0, w := 10, acc := .ro, rst := 0, view := true }
def SLP_SENSE_ISNS : Fld := { pk := .slp, off := 0x058, lo := 16, w := 16, acc := .ro, rst := 0 }
def SLP_SENSE_SRAIL : Fld := { pk := .slp, off := 0x058, lo := 0, w := 16, acc := .ro, rst := 0 }
def SLP_GATE_VGS : Fld := { pk := .slp, off := 0x05C, lo := 0, w := 16, acc := .ro, rst := 0 }
def SLP_COOL_LEFT_MS : Fld := { pk := .slp, off := 0x060, lo := 0, w := 14, acc := .ro, rst := 0, view := true }
def SLP_TRIP_T_LO_TIME : Fld := { pk := .slp, off := 0x064, lo := 0, w := 32, acc := .ro, rst := 0 }
def SLP_TRIP_T_HI_TIME : Fld := { pk := .slp, off := 0x068, lo := 0, w := 32, acc := .ro, rst := 0 }
def SLP_PEAK_CLR : Fld := { pk := .slp, off := 0x06C, lo := 31, w := 1, acc := .wo, rst := 0 }
def SLP_PEAK_PEAK : Fld := { pk := .slp, off := 0x06C, lo := 0, w := 16, acc := .ro, rst := 0 }
def SLP_SHELF_MAXRAMP : Fld := { pk := .slp, off := 0x080, lo := 16, w := 7, acc := .rws, rst := 1, rng := [(1, 64)] }
def SLP_SHELF_GAP : Fld := { pk := .slp, off := 0x080, lo := 0, w := 8, acc := .rws, rst := 10 }
def SLP_SHELF_STAT_WAITING : Fld := { pk := .slp, off := 0x084, lo := 16, w := 7, acc := .ro, rst := 0, view := true }
def SLP_SHELF_STAT_RAMPING : Fld := { pk := .slp, off := 0x084, lo := 0, w := 7, acc := .ro, rst := 0, view := true }
def slpFields0 : List Fld := [SLP_CFG_EN, SLP_CFG_RETRIES, SLP_CFG_GOV, SLP_CFG_VLIM, SLP_CFG_RAMP, SLP_CFG_RAMPTO, SLP_TIM_TFLT, SLP_TIM_COOL, SLP_TIM_TPGQ, SLP_PRES_TINS, SLP_PRES_TREM, SLP_PRES_PBIT]
def slpFields1 : List Fld := [SLP_RAIL_VWARN, SLP_RAIL_VHYS, SLP_CTRL_REQ, SLP_STAT_STATE, SLP_STAT_PG, SLP_STAT_PRESENT, SLP_STAT_RAW, SLP_STAT_LIMIT, SLP_STAT_GATEFULL, SLP_STAT_HVOK, SLP_STAT_RETRY, SLP_STAT_CAUSE]
def slpFields2 : List Fld := [SLP_STAT_MAPPED, SLP_STAT_PORT, SLP_SENSE_ISNS, SLP_SENSE_SRAIL, SLP_GATE_VGS, SLP_COOL_LEFT_MS, SLP_TRIP_T_LO_TIME, SLP_TRIP_T_HI_TIME, SLP_PEAK_CLR, SLP_PEAK_PEAK, SLP_SHELF_MAXRAMP, SLP_SHELF_GAP]
def slpFields3 : List Fld := [SLP_SHELF_STAT_WAITING, SLP_SHELF_STAT_RAMPING]
def slpFields : List Fld := slpFields0 ++ slpFields1 ++ slpFields2 ++ slpFields3

/-! ### Page kind `mgtC` (R542, 18_mgmt_interrupts.md) -/

def MGT_SWI_ID : Fld := { pk := .mgtC, off := 0x040, lo := 0, w := 12, acc := .wo, rst := 0 }
def MGT_SUM_SEL_ID : Fld := { pk := .mgtC, off := 0x044, lo := 0, w := 12, acc := .rw, rst := 0 }
def MGT_SUM_LO_SUM : Fld := { pk := .mgtC, off := 0x048, lo := 0, w := 32, acc := .ro, rst := 0, view := true }
def MGT_SUM_HI_SUM : Fld := { pk := .mgtC, off := 0x04C, lo := 0, w := 32, acc := .ro, rst := 0, view := true }
def MGT_PEND_PEND : Fld := { pk := .mgtC, off := 0x400, lo := 0, w := 32, acc := .ro, rst := 0, cnt := 128, stride := 4 }
def MGT_ACT_ACT : Fld := { pk := .mgtC, off := 0x600, lo := 0, w := 32, acc := .ro, rst := 0, cnt := 128, stride := 4 }
def mgtCFields0 : List Fld := [MGT_SWI_ID, MGT_SUM_SEL_ID, MGT_SUM_LO_SUM, MGT_SUM_HI_SUM, MGT_PEND_PEND, MGT_ACT_ACT]
def mgtCFields : List Fld := mgtCFields0

/-! ### Page kind `mgtCore` (R542, 18_mgmt_interrupts.md) -/

def MGT_CORE_CTRL_RST : Fld := { pk := .mgtCore, off := 0x040, lo := 31, w := 1, acc := .rw, rst := 0 }
def MGT_CORE_CTRL_WDT : Fld := { pk := .mgtCore, off := 0x040, lo := 0, w := 16, acc := .rw, rst := 0 }
def MGT_CORE_KICK_KICK : Fld := { pk := .mgtCore, off := 0x044, lo := 0, w := 32, acc := .wo, rst := 0 }
def MGT_CORE_STAT_STATE : Fld := { pk := .mgtCore, off := 0x048, lo := 30, w := 2, acc := .ro, rst := 0 }
def MGT_CORE_STAT_NOTIFY : Fld := { pk := .mgtCore, off := 0x048, lo := 29, w := 1, acc := .ro, rst := 0, view := true }
def MGT_CORE_STAT_WAKE : Fld := { pk := .mgtCore, off := 0x048, lo := 28, w := 1, acc := .ro, rst := 0 }
def MGT_CORE_STAT_HELD : Fld := { pk := .mgtCore, off := 0x048, lo := 16, w := 12, acc := .ro, rst := 0, view := true }
def MGT_CORE_STAT_RESTARTS : Fld := { pk := .mgtCore, off := 0x048, lo := 0, w := 16, acc := .ro, rst := 0 }
def MGT_THRESH_T : Fld := { pk := .mgtCore, off := 0x04C, lo := 0, w := 3, acc := .rw, rst := 0 }
def MGT_CLAIM_ID : Fld := { pk := .mgtCore, off := 0x050, lo := 0, w := 12, acc := .ro, rst := 0, view := true }
def MGT_COMP_ID : Fld := { pk := .mgtCore, off := 0x054, lo := 0, w := 12, acc := .wo, rst := 0 }
def MGT_SPUR_N : Fld := { pk := .mgtCore, off := 0x058, lo := 0, w := 32, acc := .ro, rst := 0 }
def mgtCoreFields0 : List Fld := [MGT_CORE_CTRL_RST, MGT_CORE_CTRL_WDT, MGT_CORE_KICK_KICK, MGT_CORE_STAT_STATE, MGT_CORE_STAT_NOTIFY, MGT_CORE_STAT_WAKE, MGT_CORE_STAT_HELD, MGT_CORE_STAT_RESTARTS, MGT_THRESH_T, MGT_CLAIM_ID, MGT_COMP_ID, MGT_SPUR_N]
def mgtCoreFields : List Fld := mgtCoreFields0

/-! ### Page kind `mgtCfg` (R542, 18_mgmt_interrupts.md) -/

def MGT_ID_B0_PRIO : Fld := { pk := .mgtCfg, off := 0x100, lo := 4, w := 3, acc := .rw, rst := 0, cnt := 256, stride := 4, rk := .irqPrio }
def MGT_ID_B0_MASK : Fld := { pk := .mgtCfg, off := 0x100, lo := 0, w := 4, acc := .rw, rst := 0, cnt := 256, stride := 4, rk := .irqMask }
def MGT_ID_B1_PRIO : Fld := { pk := .mgtCfg, off := 0x100, lo := 12, w := 3, acc := .rw, rst := 0, cnt := 256, stride := 4, rk := .irqPrio }
def MGT_ID_B1_MASK : Fld := { pk := .mgtCfg, off := 0x100, lo := 8, w := 4, acc := .rw, rst := 0, cnt := 256, stride := 4, rk := .irqMask }
def MGT_ID_B2_PRIO : Fld := { pk := .mgtCfg, off := 0x100, lo := 20, w := 3, acc := .rw, rst := 0, cnt := 256, stride := 4, rk := .irqPrio }
def MGT_ID_B2_MASK : Fld := { pk := .mgtCfg, off := 0x100, lo := 16, w := 4, acc := .rw, rst := 0, cnt := 256, stride := 4, rk := .irqMask }
def MGT_ID_B3_PRIO : Fld := { pk := .mgtCfg, off := 0x100, lo := 28, w := 3, acc := .rw, rst := 0, cnt := 256, stride := 4, rk := .irqPrio }
def MGT_ID_B3_MASK : Fld := { pk := .mgtCfg, off := 0x100, lo := 24, w := 4, acc := .rw, rst := 0, cnt := 256, stride := 4, rk := .irqMask }
def mgtCfgFields0 : List Fld := [MGT_ID_B0_PRIO, MGT_ID_B0_MASK, MGT_ID_B1_PRIO, MGT_ID_B1_MASK, MGT_ID_B2_PRIO, MGT_ID_B2_MASK, MGT_ID_B3_PRIO, MGT_ID_B3_MASK]
def mgtCfgFields : List Fld := mgtCfgFields0

/-! ### Page kind `brgC` (R564, 19_bridge.md) -/

def BRG_CTRL_FETCH_TMO : Fld := { pk := .brgC, off := 0x040, lo := 0, w := 8, acc := .rw, rst := 10, rng := [(1, 255)] }
def BRG_EID_EID : Fld := { pk := .brgC, off := 0x044, lo := 0, w := 8, acc := .ro, rst := 0 }
def BRG_ALERT_CFG_SEV : Fld := { pk := .brgC, off := 0x048, lo := 3, w := 3, acc := .rw, rst := 6 }
def BRG_ALERT_CFG_PIN : Fld := { pk := .brgC, off := 0x048, lo := 2, w := 1, acc := .rw, rst := 1 }
def BRG_ALERT_CFG_IBI : Fld := { pk := .brgC, off := 0x048, lo := 0, w := 2, acc := .rw, rst := 3 }
def BRG_EVQ_LOST : Fld := { pk := .brgC, off := 0x04C, lo := 16, w := 16, acc := .ro, rst := 0 }
def BRG_EVQ_USED : Fld := { pk := .brgC, off := 0x04C, lo := 0, w := 6, acc := .ro, rst := 0, view := true }
def BRG_WRANGE_EN : Fld := { pk := .brgC, off := 0x050, lo := 31, w := 1, acc := .rw, rst := 1, cnt := 4, stride := 8, rk := .first }
def BRG_WRANGE_POSTED : Fld := { pk := .brgC, off := 0x050, lo := 30, w := 1, acc := .rw, rst := 1, cnt := 4, stride := 8, rk := .first }
def BRG_WRANGE_BASE : Fld := { pk := .brgC, off := 0x050, lo := 0, w := 15, acc := .rw, rst := 0x1C00, cnt := 4, stride := 8, rk := .first }
def BRG_WRLIM_LIMIT : Fld := { pk := .brgC, off := 0x054, lo := 0, w := 15, acc := .rw, rst := 0x1FFF, cnt := 4, stride := 8, rk := .first }
def brgCFields0 : List Fld := [BRG_CTRL_FETCH_TMO, BRG_EID_EID, BRG_ALERT_CFG_SEV, BRG_ALERT_CFG_PIN, BRG_ALERT_CFG_IBI, BRG_EVQ_LOST, BRG_EVQ_USED, BRG_WRANGE_EN, BRG_WRANGE_POSTED, BRG_WRANGE_BASE, BRG_WRLIM_LIMIT]
def brgCFields : List Fld := brgCFields0

/-! ### Page kind `brgPort` (R564, 19_bridge.md) -/

def BRG_PORT_CFG_SMB_ONLY : Fld := { pk := .brgPort, off := 0x040, lo := 1, w := 1, acc := .rw, rst := 0 }
def BRG_PORT_CFG_EN : Fld := { pk := .brgPort, off := 0x040, lo := 0, w := 1, acc := .rw, rst := 1 }
def BRG_PORT_STAT_I3C : Fld := { pk := .brgPort, off := 0x044, lo := 31, w := 1, acc := .ro, rst := 0 }
def BRG_PORT_STAT_DADDR : Fld := { pk := .brgPort, off := 0x044, lo := 16, w := 7, acc := .ro, rst := 0 }
def BRG_PORT_STAT_SADDR : Fld := { pk := .brgPort, off := 0x044, lo := 0, w := 7, acc := .ro, rst := 0, view := true }
def BRG_PORT_PID0_PID : Fld := { pk := .brgPort, off := 0x048, lo := 0, w := 32, acc := .ro, rst := 0, view := true }
def BRG_PORT_PID1_PID : Fld := { pk := .brgPort, off := 0x04C, lo := 0, w := 16, acc := .ro, rst := 0, view := true }
def BRG_PORT_REQ_DISC : Fld := { pk := .brgPort, off := 0x050, lo := 16, w := 16, acc := .ro, rst := 0 }
def BRG_PORT_REQ_PWQ : Fld := { pk := .brgPort, off := 0x050, lo := 0, w := 5, acc := .ro, rst := 0, view := true }
def BRG_PORT_PWERR_VALID : Fld := { pk := .brgPort, off := 0x054, lo := 31, w := 1, acc := .rw1c, rst := 0 }
def BRG_PORT_PWERR_ADDR : Fld := { pk := .brgPort, off := 0x054, lo := 0, w := 27, acc := .ro, rst := 0 }
def brgPortFields0 : List Fld := [BRG_PORT_CFG_SMB_ONLY, BRG_PORT_CFG_EN, BRG_PORT_STAT_I3C, BRG_PORT_STAT_DADDR, BRG_PORT_STAT_SADDR, BRG_PORT_PID0_PID, BRG_PORT_PID1_PID, BRG_PORT_REQ_DISC, BRG_PORT_REQ_PWQ, BRG_PORT_PWERR_VALID, BRG_PORT_PWERR_ADDR]
def brgPortFields : List Fld := brgPortFields0

/-! ### Page kind `brgSbc` (R564, 19_bridge.md) -/

def BRG_SBC_CFG_LEN : Fld := { pk := .brgSbc, off := 0x040, lo := 24, w := 8, acc := .rw, rst := 8, rng := [(2, 128)] }
def BRG_SBC_CFG_FREQ : Fld := { pk := .brgSbc, off := 0x040, lo := 16, w := 5, acc := .rw, rst := 10, rng := [(1, 25)] }
def BRG_SBC_CFG_POLL : Fld := { pk := .brgSbc, off := 0x040, lo := 0, w := 10, acc := .rw, rst := 10, rng := [(1, 1000)] }
def BRG_SBC_STAT_BROKEN : Fld := { pk := .brgSbc, off := 0x044, lo := 31, w := 1, acc := .ro, rst := 0 }
def BRG_SBC_STAT_LATE : Fld := { pk := .brgSbc, off := 0x044, lo := 16, w := 15, acc := .ro, rst := 0 }
def BRG_SBC_STAT_BAD : Fld := { pk := .brgSbc, off := 0x044, lo := 0, w := 16, acc := .ro, rst := 0 }
def BRG_SBC_IN_IN : Fld := { pk := .brgSbc, off := 0x100, lo := 0, w := 32, acc := .ro, rst := 0, cnt := 32, stride := 4, view := true }
def BRG_SBC_OUT_OUT : Fld := { pk := .brgSbc, off := 0x180, lo := 0, w := 32, acc := .rw, rst := 0, cnt := 32, stride := 4, view := true }
def BRG_SBC_CHG_CHG : Fld := { pk := .brgSbc, off := 0x200, lo := 0, w := 32, acc := .rw1c, rst := 0, cnt := 32, stride := 4 }
def brgSbcFields0 : List Fld := [BRG_SBC_CFG_LEN, BRG_SBC_CFG_FREQ, BRG_SBC_CFG_POLL, BRG_SBC_STAT_BROKEN, BRG_SBC_STAT_LATE, BRG_SBC_STAT_BAD, BRG_SBC_IN_IN, BRG_SBC_OUT_OUT, BRG_SBC_CHG_CHG]
def brgSbcFields : List Fld := brgSbcFields0

/-! ### Page kind `brgSens` (R564, 19_bridge.md) -/

def BRG_SENS_CTRL_PERIOD : Fld := { pk := .brgSens, off := 0x040, lo := 0, w := 8, acc := .rw, rst := 10, rng := [(1, 255)] }
def BRG_SENS_SEL_ENTRY : Fld := { pk := .brgSens, off := 0x044, lo := 0, w := 8, acc := .rw, rst := 0 }
def BRG_SENS_E_WORD : Fld := { pk := .brgSens, off := 0x050, lo := 0, w := 32, acc := .rw, rst := 0, cnt := 4, stride := 4, view := true }
def BRG_SENS_VAL_READING : Fld := { pk := .brgSens, off := 0x060, lo := 0, w := 32, acc := .ro, rst := 0, view := true }
def brgSensFields0 : List Fld := [BRG_SENS_CTRL_PERIOD, BRG_SENS_SEL_ENTRY, BRG_SENS_E_WORD, BRG_SENS_VAL_READING]
def brgSensFields : List Fld := brgSensFields0

/-! ### Page kind `sec` (R582, 20_security.md) -/

def SEC_STAT_MGT_SLOT : Fld := { pk := .sec, off := 0x040, lo := 31, w := 1, acc := .ro, rst := 0, view := true }
def SEC_STAT_PFX_SLOT : Fld := { pk := .sec, off := 0x040, lo := 30, w := 1, acc := .ro, rst := 0, view := true }
def SEC_STAT_MGT_OK : Fld := { pk := .sec, off := 0x040, lo := 29, w := 1, acc := .ro, rst := 0 }
def SEC_STAT_PFX_OK : Fld := { pk := .sec, off := 0x040, lo := 28, w := 1, acc := .ro, rst := 0 }
def SEC_STAT_PFXLOAD : Fld := { pk := .sec, off := 0x040, lo := 27, w := 1, acc := .ro, rst := 0 }
def SEC_STAT_FAILED : Fld := { pk := .sec, off := 0x040, lo := 25, w := 2, acc := .ro, rst := 0 }
def SEC_SVN_PFX_MIN : Fld := { pk := .sec, off := 0x044, lo := 16, w := 7, acc := .ro, rst := 0, view := true }
def SEC_SVN_MGT_MIN : Fld := { pk := .sec, off := 0x044, lo := 0, w := 7, acc := .ro, rst := 0, view := true }
def SEC_KEYREV_REV : Fld := { pk := .sec, off := 0x048, lo := 0, w := 4, acc := .rw1s, rst := 0, view := true }
def SEC_UPD_CTRL_GO : Fld := { pk := .sec, off := 0x04C, lo := 31, w := 1, acc := .rw1s, rst := 0 }
def SEC_UPD_CTRL_OP : Fld := { pk := .sec, off := 0x04C, lo := 28, w := 3, acc := .rw, rst := 0, rng := [(1, 4)] }
def SEC_UPD_CTRL_TYPE : Fld := { pk := .sec, off := 0x04C, lo := 27, w := 1, acc := .rw, rst := 0 }
def SEC_UPD_CTRL_STATUS : Fld := { pk := .sec, off := 0x04C, lo := 0, w := 4, acc := .ro, rst := 0 }
def SEC_UPD_DATA_WORD : Fld := { pk := .sec, off := 0x050, lo := 0, w := 32, acc := .wo, rst := 0 }
def SEC_UPD_LEN_BYTES : Fld := { pk := .sec, off := 0x054, lo := 0, w := 32, acc := .ro, rst := 0 }
def SEC_CLOSE_MGR_BLOCKS : Fld := { pk := .sec, off := 0x058, lo := 0, w := 23, acc := .rw1s, rst := 0 }
def SEC_CLOSE_BRG_BLOCKS : Fld := { pk := .sec, off := 0x05C, lo := 0, w := 23, acc := .rw1s, rst := 0 }
def SEC_SEAL_BRG : Fld := { pk := .sec, off := 0x060, lo := 1, w := 1, acc := .rw, rst := 0 }
def SEC_SEAL_MGR : Fld := { pk := .sec, off := 0x060, lo := 0, w := 1, acc := .rw, rst := 0 }
def SEC_IDE_ERR_VALID : Fld := { pk := .sec, off := 0x064, lo := 31, w := 1, acc := .rw1c, rst := 0 }
def SEC_IDE_ERR_PORT : Fld := { pk := .sec, off := 0x064, lo := 0, w := 10, acc := .ro, rst := 0 }
def SEC_DEVID_PUB_KEY : Fld := { pk := .sec, off := 0x100, lo := 0, w := 32, acc := .ro, rst := 0, cnt := 24, stride := 4, view := true }
def secFields0 : List Fld := [SEC_STAT_MGT_SLOT, SEC_STAT_PFX_SLOT, SEC_STAT_MGT_OK, SEC_STAT_PFX_OK, SEC_STAT_PFXLOAD, SEC_STAT_FAILED, SEC_SVN_PFX_MIN, SEC_SVN_MGT_MIN, SEC_KEYREV_REV, SEC_UPD_CTRL_GO, SEC_UPD_CTRL_OP, SEC_UPD_CTRL_TYPE]
def secFields1 : List Fld := [SEC_UPD_CTRL_STATUS, SEC_UPD_DATA_WORD, SEC_UPD_LEN_BYTES, SEC_CLOSE_MGR_BLOCKS, SEC_CLOSE_BRG_BLOCKS, SEC_SEAL_BRG, SEC_SEAL_MGR, SEC_IDE_ERR_VALID, SEC_IDE_ERR_PORT, SEC_DEVID_PUB_KEY]
def secFields : List Fld := secFields0 ++ secFields1

/-! ### Page kind `cnt` (R594, 21_counters.md) -/

def CNT_CTRL_FREEZE : Fld := { pk := .cnt, off := 0x040, lo := 31, w := 1, acc := .rw, rst := 0 }
def CNT_CTRL_FROZEN : Fld := { pk := .cnt, off := 0x040, lo := 30, w := 1, acc := .ro, rst := 0 }
def CNT_CTRL_PERIOD : Fld := { pk := .cnt, off := 0x040, lo := 0, w := 20, acc := .rw, rst := 0, rng := [(0, 0), (10, 1000000)] }
def CNT_SNAP_GO : Fld := { pk := .cnt, off := 0x044, lo := 31, w := 1, acc := .rw1s, rst := 0 }
def CNT_SNAP_PART : Fld := { pk := .cnt, off := 0x044, lo := 30, w := 1, acc := .ro, rst := 0 }
def CNT_SNAP_SEQ : Fld := { pk := .cnt, off := 0x044, lo := 0, w := 16, acc := .ro, rst := 0 }
def CNT_SNAP_TLO_TIME : Fld := { pk := .cnt, off := 0x048, lo := 0, w := 32, acc := .ro, rst := 0 }
def CNT_SNAP_THI_TIME : Fld := { pk := .cnt, off := 0x04C, lo := 0, w := 32, acc := .ro, rst := 0 }
def CNT_SNAP_DUR_NS : Fld := { pk := .cnt, off := 0x050, lo := 0, w := 32, acc := .ro, rst := 0 }
def CNT_STAT_REFUSED : Fld := { pk := .cnt, off := 0x054, lo := 0, w := 16, acc := .ro, rst := 0 }
def cntFields0 : List Fld := [CNT_CTRL_FREEZE, CNT_CTRL_FROZEN, CNT_CTRL_PERIOD, CNT_SNAP_GO, CNT_SNAP_PART, CNT_SNAP_SEQ, CNT_SNAP_TLO_TIME, CNT_SNAP_THI_TIME, CNT_SNAP_DUR_NS, CNT_STAT_REFUSED]
def cntFields : List Fld := cntFields0

/-! ### Page kind `glb` (R605, 22_register_map.md) -/

def GLB_ID_PART : Fld := { pk := .glb, off := 0x040, lo := 16, w := 16, acc := .ro, rst := 0x1024 }
def GLB_ID_REV : Fld := { pk := .glb, off := 0x040, lo := 8, w := 8, acc := .ro, rst := 0xB1 }
def GLB_ID_VARIANT : Fld := { pk := .glb, off := 0x040, lo := 0, w := 8, acc := .ro, rst := 1 }
def GLB_SERIAL_LO_SERIAL : Fld := { pk := .glb, off := 0x044, lo := 0, w := 32, acc := .ro, rst := 0, view := true }
def GLB_SERIAL_HI_SERIAL : Fld := { pk := .glb, off := 0x048, lo := 0, w := 32, acc := .ro, rst := 0, view := true }
def GLB_RESET_KEY : Fld := { pk := .glb, off := 0x04C, lo := 0, w := 16, acc := .wo, rst := 0 }
def GLB_STAGGER_INTERVAL : Fld := { pk := .glb, off := 0x050, lo := 0, w := 5, acc := .rws, rst := 10, rng := [(5, 20)] }
def GLB_FREEZE_FREEZE : Fld := { pk := .glb, off := 0x054, lo := 31, w := 1, acc := .rw, rst := 0 }
def GLB_FREEZE_FROZEN : Fld := { pk := .glb, off := 0x054, lo := 30, w := 1, acc := .ro, rst := 0 }
def GLB_FREEZE_ON_FE : Fld := { pk := .glb, off := 0x054, lo := 2, w := 1, acc := .rw, rst := 0 }
def GLB_FREEZE_ON_UC : Fld := { pk := .glb, off := 0x054, lo := 1, w := 1, acc := .rw, rst := 0 }
def GLB_FREEZE_ON_CE : Fld := { pk := .glb, off := 0x054, lo := 0, w := 1, acc := .rw, rst := 0 }
def GLB_AERR_VALID : Fld := { pk := .glb, off := 0x058, lo := 31, w := 1, acc := .rw1c, rst := 0 }
def GLB_AERR_PATH : Fld := { pk := .glb, off := 0x058, lo := 29, w := 2, acc := .ro, rst := 0 }
def GLB_AERR_KIND : Fld := { pk := .glb, off := 0x058, lo := 27, w := 2, acc := .ro, rst := 0 }
def GLB_AERR_ADDR : Fld := { pk := .glb, off := 0x058, lo := 0, w := 27, acc := .ro, rst := 0 }
def GLB_SCRATCH_DATA : Fld := { pk := .glb, off := 0x060, lo := 0, w := 32, acc := .rws, rst := 0, cnt := 4, stride := 4 }
def glbFields0 : List Fld := [GLB_ID_PART, GLB_ID_REV, GLB_ID_VARIANT, GLB_SERIAL_LO_SERIAL, GLB_SERIAL_HI_SERIAL, GLB_RESET_KEY, GLB_STAGGER_INTERVAL, GLB_FREEZE_FREEZE, GLB_FREEZE_FROZEN, GLB_FREEZE_ON_FE, GLB_FREEZE_ON_UC, GLB_FREEZE_ON_CE]
def glbFields1 : List Fld := [GLB_AERR_VALID, GLB_AERR_PATH, GLB_AERR_KIND, GLB_AERR_ADDR, GLB_SCRATCH_DATA]
def glbFields : List Fld := glbFields0 ++ glbFields1

/-! ### Page kind `tmb` (R608, 22_register_map.md) -/

def TMB_NOW_LO_NOW : Fld := { pk := .tmb, off := 0x040, lo := 0, w := 32, acc := .ro, rst := 0, view := true }
def TMB_NOW_HI_NOW : Fld := { pk := .tmb, off := 0x044, lo := 0, w := 32, acc := .ro, rst := 0, view := true }
def TMB_OFS_LO_OFS : Fld := { pk := .tmb, off := 0x048, lo := 0, w := 32, acc := .rws, rst := 0 }
def TMB_OFS_HI_OFS : Fld := { pk := .tmb, off := 0x04C, lo := 0, w := 32, acc := .rws, rst := 0 }
def TMB_RACK_LO_RACK : Fld := { pk := .tmb, off := 0x050, lo := 0, w := 32, acc := .ro, rst := 0, view := true }
def TMB_RACK_HI_RACK : Fld := { pk := .tmb, off := 0x054, lo := 0, w := 32, acc := .ro, rst := 0, view := true }
def TMB_STAT_RUN : Fld := { pk := .tmb, off := 0x058, lo := 31, w := 1, acc := .ro, rst := 0, view := true }
def TMB_STAT_STALLED : Fld := { pk := .tmb, off := 0x058, lo := 30, w := 1, acc := .rw1c, rst := 0 }
def TMB_STAT_STALLS : Fld := { pk := .tmb, off := 0x058, lo := 0, w := 16, acc := .ro, rst := 0 }
def tmbFields0 : List Fld := [TMB_NOW_LO_NOW, TMB_NOW_HI_NOW, TMB_OFS_LO_OFS, TMB_OFS_HI_OFS, TMB_RACK_LO_RACK, TMB_RACK_HI_RACK, TMB_STAT_RUN, TMB_STAT_STALLED, TMB_STAT_STALLS]
def tmbFields : List Fld := tmbFields0


/-- The block register fields of a page kind, views among them. -/
def fieldsOf : PK → List Fld
  | .glb => glbFields | .pwr => pwrFields | .flt => fltFields | .sec => secFields | .mgtC => mgtCFields
  | .mgtCore => mgtCoreFields | .mgtCfg => mgtCfgFields | .brgC => brgCFields | .brgPort => brgPortFields
  | .brgSbc => brgSbcFields | .brgSens => brgSensFields | .slp => slpFields | .tmb => tmbFields | .cnt => cntFields
  | .xbrG => xbrGFields | .xbrC => xbrCFields | .rolC => rolCFields | .rolS => rolSFields | .map => mapFields
  | .mrk => mrkFields | .rak => rakFields | .carD => carDFields | .carC => carCFields | .phyG => phyGFields
  | .phyT => phyTFields | .lnk => lnkFields | .prt => prtFields | .bnd => bndFields | .ten => tenFields
  | .pfxF => pfxFFields | .pfxC => [] | .slt => sltFields | .shpT => shpTFields | .shpP => shpPFields

end Sys2Proof.Machine
end

