-- ==== Sys2Proof/Machine/State.lean ====
section
/-!
DEFINITION. The state of the SX1024 as plain data, the reasons a step can stop, and the state after reset. Register
fields live in `Chip.fld` (Machine/Regs.lean names each); everything the spec gives the part beside register fields has
a typed home here. The queue of waiting commands, the list of what the part sent, the counter of free values and the
record buffers stand at the top.
-/
namespace Sys2Proof.Machine

/-! ### Time base, supplies, pins -/

/-- What one access path holds: the 64-bit latch of a low-word read and the low word of a held write, each with the
byte address of its register (21_counters.md R587, 22_register_map.md R610). -/
structure PathLatch where
  rdAddr : Option Nat
  rdVal : Nat
  wrAddr : Option Nat
  wrVal : Nat
deriving DecidableEq, Repr

/-- The time base (22_register_map.md R608 to R610). -/
structure Tmb where
  /-- TMB_NOW in ns. -/
  now : Nat
  /-- TMB has begun to count since the last cold reset (stage 0 has started). -/
  started : Bool
  /-- TMB stands because REFCLK0 is absent (R609). -/
  stalled : Bool
  mgr : PathLatch
  core : PathLatch
  bridge : PathLatch
deriving DecidableEq, Repr

/-- Supplies, warnings, the staggered start and the voltage loop (03_power_start.md). -/
structure Pwr where
  vin : Bool
  vaux : Bool
  /-- PWR_WARN stands (R93, R94). -/
  warn : Bool
  auxWarn : Bool
  tjWarn : Bool
  paceShort : Bool
  /-- The VIN domain is off after a thermal trip (R98). -/
  thermOff : Bool
  /-- The VAUX domain has left reset (step 1 of R111). -/
  vauxUp : Bool
  /-- Time 0 of the start timeline has come and the start has not been abandoned. -/
  time0 : Bool
  /-- TMB value at time 0. -/
  time0At : Nat
  /-- Stages started and stages completed: bit k for stage k (R107). -/
  begun : BitVec 15
  done : BitVec 15
  /-- Stage 0 has completed since the last cold reset (R109, R113). -/
  stage0Once : Bool
  /-- VCORE in units of 0.5 mV (R101: steps of 2.5 mV). -/
  vcore2 : Nat
  /-- The sixteen pace meters' last readings, in 1/1,024 of nominal (R100). -/
  paces : List Nat
  /-- The pace meters excluded by R102. -/
  excluded : BitVec 16
  /-- The address straps as sampled at the end of the last reset (R73). -/
  maddr : Nat
  /-- TESTEN was high at the end of the last cold reset, so the part stays in warm reset (R74). -/
  testHold : Bool
  /-- A frame of the sideband chain may run: since step 2 of R111. -/
  chainUp : Bool
deriving DecidableEq, Repr

/-- The sideband chain (02_package_pins.md R75 to R81, 19_bridge.md R561). -/
structure Sbc where
  inImg : BitVec 1024
  outImg : BitVec 1024
  /-- What the running frame shifted out, and what the output pins hold. Both belong to the external registers: their
  content until the first frame's sample instant is undefined from power-on, and the 0 of every reset is a DESIGN
  CHOICE (log entry 92). -/
  shifted : BitVec 1024
  pins : BitVec 1024
  badRun : Nat
  /-- A frame has run since the last cold or warm reset (R81). -/
  ran : Bool
  /-- Settings in use by the running frame: chain bytes, MHz, poll units (BRG_SBC_CFG, "at the next frame"). -/
  len : Nat
  freq : Nat
  poll : Nat
deriving DecidableEq, Repr

/-- States of the 1149.1 controller (02_package_pins.md R82). -/
inductive TapCtl where
  | testLogicReset | runTestIdle
  | selectDr | captureDr | shiftDr | exit1Dr | pauseDr | exit2Dr | updateDr
  | selectIr | captureIr | shiftIr | exit1Ir | pauseIr | exit2Ir | updateIr
deriving DecidableEq, Repr

/-- The test access port (02_package_pins.md R82 to R88). -/
structure Tap where
  /-- State of the controller. -/
  ctl : TapCtl
  /-- The instruction register: its shift stages, and the instruction that is loaded. -/
  irShift : BitVec 8
  ir : BitVec 8
  /-- The bypass register. -/
  bypass : Bool
  /-- Shift stages of the boundary-scan register, and its update latches (R86). -/
  cells : BitVec 3171
  latches : BitVec 3171
  /-- The scanned lands are taken from functional logic (R88). -/
  controlling : Bool
deriving DecidableEq, Repr

/-! ### Lanes, links, ports -/

/-- The phase of a loopback (04_lanes.md R142, R143): none, far-end without signal, closed, as PCIe follower, or set by
register on a lane that is powered down. -/
inductive LbPhase where
  | none | waitSignal | closed | follower | off
deriving DecidableEq, Repr

/-- A margin measurement that runs (04_lanes.md R151, R152): who asked for it, the eye compared at a PAM4 rate, the dwell
exponent, and the sampler's offsets in 1/64 UI and in 2.5 mV. -/
structure MarginRun where
  pcie : Bool
  eye : Option Nat
  dwell : Nat
  toff : Int
  voff : Int
deriving DecidableEq, Repr

/-- Per-lane state that no register field holds. -/
structure LaneSt where
  lb : LbPhase
  /-- The generator and the checker act (R149). -/
  genOn : Bool
  chkOn : Bool
  /-- The lane has trained in the link that its port has now (R133). -/
  trained : Bool
  /-- The lane is idled by L0p (R127). -/
  idled : Bool
  margin : Option MarginRun
  /-- Bits compared beyond the last multiple of 2^20 (R150, PHY_LANE_BCNT). -/
  compared : Nat
deriving DecidableEq, Repr

/-- Lanes and tiles: sparse, an unlisted lane is `LaneSt.idle`; the inputs REFCLKk that are absent (02_package_pins.md
R67, R68), and the tiles whose PLL has lost lock. -/
structure Phy where
  lane : KV LaneSt
  absent : BitVec 8
  pllLost : BitVec 8
deriving DecidableEq, Repr

/-- A flit kept for replay: its number, its message, the bucket of the pair it travels in, and the original number of
a failover resend flit (R179). -/
structure TxFlit where
  seq : Nat
  msg : Option FlitMsg
  bucket : Nat
  orig : Option Nat
deriving DecidableEq, Repr

/-- Link state of one port beyond its registers (05_links.md). -/
structure LnkSt where
  /-- Unacknowledged flits, oldest first (R160). -/
  unacked : List TxFlit
  /-- Flits accepted since the last Ack was sent (R159). -/
  sinceAck : Nat
  /-- The number last acknowledged at the previous replay (R161), and the replay count. -/
  lastReplayAck : Option Nat
  replays : Nat
  /-- Flits acknowledged since the retrain of R169 ended in L0, while RETRAIN_SPENT is 1. -/
  ackedSinceRetrain : Nat
  /-- Since the link entered L0, by class of R163 and then for posted headers on an edge link (R164): credits the partner
  consumed, credits freed, freed credits reported, and the last credit return received (R165, R166). -/
  used : List Nat
  freed : List Nat
  told : List Nat
  lastRet : List Nat
  /-- Posted-header credits held for sending on an edge link; LNK_CREDc.AVAIL shows the four classes (R164). -/
  headAvail : Nat
  /-- ADV as in force since the link entered L0 (R167), and whether credits restart at the return to L0 (R166). -/
  inForce : List Nat
  credRestart : Bool
  /-- Failover resend flits that wait for credits or replay room of this survivor, and the buckets whose new packets wait
  behind them (steps 3 and 6 of R179, R181). -/
  resend : List TxFlit
  moved : List Nat
  /-- Flits sent since the last marks flit (R192). -/
  sinceMarks : Nat
  /-- The partner's width change that won over ours and has not completed (R188, R189). -/
  peerWidth : Option Nat
  /-- PRIMARY and PARTNER as the last training took them (R196). -/
  role : Option (Bool × Nat)
  /-- The trunk has been declared down and is not back in L0 (R174). -/
  declaredDown : Bool
  /-- Failback hold runs; buckets move back one at a time (R184). -/
  holdRuns : Bool
  failback : Bool
  /-- What training settled; none where the link may not enter L0. -/
  info : Option TrainInfo
deriving DecidableEq, Repr

/-- A marks record waiting on a trunk pair (R195): tile, read and write deltas. -/
structure MarkWait where
  tile : Nat
  rd : Nat
  wr : Nat
deriving DecidableEq, Repr

/-- What the pool path sends over a trunk pair (08_binding.md R268 to R270): a request to a line's home, or an answer. -/
inductive TrunkBody where
  | req (tag xid addr : Nat) (write : Bool) (mask : Mask) (data : Line) (poison : Bool)
  | rsp (tag : Nat) (data : Line) (poison : Bool)
deriving DecidableEq, Repr

/-- A message of the pool path that waits for credits and replay room of a trunk pair, with its bucket. -/
structure TrunkMsg where
  typ : MsgType
  lines : Nat
  bucket : Nat
  body : TrunkBody
  /-- Epoch of the lookup that it comes of: it is in the part until it leaves (08_binding.md R284). -/
  epoch : Nat
deriving DecidableEq, Repr

/-- Links: sparse by port; messages of the pool path toward a trunk pair by its primary's port number; the carrier of a moved bucket by (primary * 256 + bucket); marks records held by the
primary's port number; ADV of a trunk class that software set, by (port * 4 + class). -/
structure Lnk where
  st : KV LnkSt
  out : KV (List TrunkMsg)
  carrier : KV Nat
  marks : KV (List MarkWait)
  adv : KV Nat
deriving DecidableEq, Repr

/-- Steps of hot-add (06_ports.md R219). -/
inductive HotStep where
  | idle | waitPower | waitPerst | waitLink | waitActive | ready | failed
deriving DecidableEq, Repr

/-- Port state beyond its registers. -/
structure PrtSt where
  hot : HotStep
  /-- PERST_N driven high. -/
  perstHigh : Bool
  dev : Option DeviceInfo
  /-- Serial number of the device that was last READY here (R222). -/
  lastSerial : Option Nat
  /-- The pan that the device's capacity has joined: PRT_DEV.PAN at the last READY (R228). -/
  pan : Nat
  /-- A removal in progress has completed its evacuation, so the loss of presence is no surprise (R223, R224). -/
  removed : Bool
  /-- The clocking mode that the last training took from the lowest lane: 0 CC, 1 SRNS, 2 SRIS (04_lanes.md R131). -/
  clk : Nat
  /-- Non-posted requests outstanding to the device of a pass-through face, each with the port it came in on (R224). -/
  asked : List (Nat × Nat)
deriving DecidableEq, Repr

/-- Ports: sparse; an unlisted port is `PrtSt.idle`. -/
structure Prt where
  st : KV PrtSt
deriving DecidableEq, Repr

/-! ### Switch core -/

/-- How a packet moves (07_switch_core.md R251). -/
inductive FwdMode where
  | cut | saf | fr
deriving DecidableEq, Repr

/-- A packet in the cell buffer. -/
structure Pkt where
  id : Nat
  ingress : Nat
  /-- Egress ports still to be served: one for unicast, the undelivered destinations for multicast. -/
  egress : List Nat
  typ : MsgType
  lines : Nat
  cells : Nat
  arrived : Nat
  sent : Nat
  /-- Its credits on the egress link are spent. -/
  paid : Bool
  relaxed : Bool
  pbr : Option Nat
  mode : FwdMode
  /-- Charged to the shared region rather than to an allotment (R243). -/
  shared : Bool
  /-- Held at its ingress because the shared region's test refused it (R243). -/
  held : Bool
  /-- Internal injector: charged to the group port's internal allotment. -/
  internal : Bool
  /-- Its ingress link has started again since it came, and owes no credits for it (R165). -/
  repaid : Bool
  multicast : Bool
  /-- For a multicast snoop: the transaction whose snoop it is, with type. -/
  snoopOf : Option Nat
  ten : Option Nat
  epoch : Nat
  pool : Bool
  exportReq : Option ExportReq
  /-- Ended by the stall rule: its late remainder is discarded (R254). -/
  stalled : Bool
  poisoned : Bool
deriving DecidableEq, Repr

/-- Weighted deficit round robin of one egress port and class (14_tenancy_qos.md R465): active sub-queues in order,
each with its deficit; 4,096 is the system sub-queue. -/
structure Wdrr where
  active : List (Nat × Nat)
deriving DecidableEq, Repr

/-- The switch core: packets in arrival order, the class pointer of each group pair and the schedulers' lists. -/
structure Xbr where
  pkts : List Pkt
  /-- LANE at each enabled port's enable (R246). -/
  laneAt : KV Nat
  /-- Weighted round robin by egress port * 4 + class (R465). -/
  wdrr : KV Wdrr
  /-- Class pointers by ingress group port * 64 + egress group port (R237). -/
  clsPtr : KV Nat
  /-- Egress group ports that took part in the multicast phase of the last slot (R250). -/
  mcLast : List Nat
  /-- Multicast packets that wait for room in a group port's internal allotment (R242). -/
  waiting : List Pkt
  /-- Packets freed or dropped because their egress went down, or for an error in their header's cell (R240, R256, R257). -/
  lost : Nat
  nextId : Nat
deriving DecidableEq, Repr

/-! ### Binding -/

/-- One binding window (08_binding.md R263). Bases and size in tiles; `tag` is the 128-bit extent tag. -/
structure Window where
  valid : Bool
  kind : Nat
  rtype : Nat
  shared : Bool
  twin : Bool
  pans : Nat
  rel : Bool
  dcr : Nat
  state : Nat
  remote : Bool
  ten : Nat
  port : Nat
  hbase : Nat
  pbase : Nat
  size : Nat
  vppb : Nat
  ld : Nat
  xid : Nat
  target : Nat
  tag : Nat
  lepoch : Nat
  /-- An uncorrectable error holds the live window invalid until the next commit that writes it (R264). -/
  ue : Bool
deriving DecidableEq, Repr

/-- A record of a Dynamic Capacity event log (R271 to R273). -/
structure DcRec where
  win : Nat
  /-- 0 Add Capacity, 1 Release Capacity, 2 Release Capacity with the forced-removal flag. -/
  kind : Nat
  dpa : Nat
  len : Nat
  tag : Nat
  seq : Nat
deriving DecidableEq, Repr

/-- A pool face's event log: records visible to the host and records held for room (R634). -/
structure DcLog where
  recs : List DcRec
  held : List DcRec
deriving DecidableEq, Repr

/-- An HDM decoder of a pool face as the host programmed it (R205, R265). -/
structure HdmDec where
  hostBase : Nat
  size : Nat
  dpaBase : Nat
  committed : Bool
deriving DecidableEq, Repr

/-- A write to the window table or to BND_COMMIT that waits while GO is 1 (R283). -/
inductive HeldWrite where
  | window (pa : Path) (w word v : Nat)
  | discard
  | go
deriving DecidableEq, Repr

/-- A host's Dynamic Capacity command on a pool face: the offered extents it accepts, or the extent it releases. -/
inductive DcCmd where
  | add (p : Nat) (accepted : List Nat)
  | release (p w : Nat)
deriving DecidableEq, Repr

/-- Binding table: live and staged windows (unlisted: `Window.free`), dirty marks, held writes, event logs. -/
structure Bnd where
  live : KV Window
  staged : KV Window
  dirty : List Nat
  held : List HeldWrite
  /-- BND_DRAINED is owed for the target last written (R284). -/
  drainOwed : List Nat
  dcLog : KV DcLog
  hdm : KV HdmDec
  dcSeq : Nat
  /-- Host Dynamic Capacity commands that wait for an epoch tracker, oldest first (R274). -/
  dcWait : List DcCmd
deriving DecidableEq, Repr

/-! ### Tenancies, slates -/

/-- An entry of the loss log in the management view (14_tenancy_qos.md R467). -/
structure LossEntry where
  line : Nat
  cause : Nat
deriving DecidableEq, Repr

/-- A tenant job (10_placement.md R351 to R353, 14_tenancy_qos.md R454). -/
structure Job where
  kind : Nat
  src : Nat
  dst : Nat
  len : Nat
  /-- Bytes completed, a multiple of 64 KiB until the end. -/
  bytes : Nat
  status : Nat
  /-- Submitted, running or paused: TC_JOB_CTRL.GO. -/
  go : Bool
  started : Bool
  paused : Bool
  /-- A chunk is running, with its first byte offset. -/
  chunk : Bool
  stopping : Bool
  failed : Bool
  poison : Bool
  /-- Slate entries of the tenancy acknowledged before the submission and not yet visible or lost (R352). -/
  waitLines : List Nat
deriving DecidableEq, Repr

/-- A bell decided and not completed (13_ordering.md R436). -/
structure Bell where
  port : Nat
  tag : Nat
  eight : Bool
  gen : Nat
  /-- The covered entries not yet visible or lost. -/
  covers : List Nat
  internal : Bool
  limit : Bool
  /-- Its pool face's link went down since it was decided (06_ports.md R227). -/
  lostLink : Bool
deriving DecidableEq, Repr

/-- Tenancy state beyond its registers. -/
structure TenSt where
  log : List LossEntry
  ovf : Nat
  /-- Losses since the host's last bell completed (R439). -/
  nlost : Nat
  seq : Nat
  job : Job
  bells : List Bell
  /-- State to return to after a reset, and whether the running reset ends in OFF (DISABLE). -/
  prev : Nat
  resetting : Bool
  disabling : Bool
  freezing : Bool
  selfReset : Bool
  /-- Job registers of the control page: source, destination, length, kind. -/
  jSrc : Nat
  jDst : Nat
  jLen : Nat
  jKind : Nat
  /-- Requests in the shaper queue, oldest first: transaction numbers (R460). -/
  queue : List Nat
  /-- SHP_SRATE.EN and SHP_PRATE.EN as in effect since the last refill (R462); a refill reads RATE itself. -/
  pEn : Bool
  sEn : Bool
  /-- QMAX, the weight and the two bucket sizes in tokens, as in effect since the last refill (R462). -/
  qmaxNow : Nat
  wNow : Nat
  pBurst : Nat
  sBurst : Nat
deriving DecidableEq, Repr

structure Tenancies where
  st : KV TenSt
deriving DecidableEq, Repr

/-- One slate entry (13_ordering.md, "The slate"). -/
structure SlateEntry where
  id : Nat
  port : Nat
  line : Nat
  ten : Nat
  epoch : Nat
  mask : Mask
  data : Line
  time : Nat
  draining : Bool
  /-- A drain trigger that waits for the DRAINING entry of the same line (R432): its row of R431. -/
  trig : Option Nat
  win : Nat
  host : Option Nat
  shared : Bool
  /-- Transaction of its drain write. -/
  txn : Option Nat
  /-- Made DRAINING for a write that waits under R430. -/
  forWait : Bool
  /-- In the slate at a port reset, which clears SLT_STAT: SLT_STAT and SLT_OCC_HW no longer count it (R450). -/
  shed : Bool := false
  /-- What the lookups of its drain find in the tables (12_coherence.md R419): the commands of the writes it merged say so. -/
  ecc : Ecc := {}
deriving DecidableEq, Repr

/-- Slates of all pool faces in merge order, the part's lost-line table (each line with the port that lost it), and the entries that an SLT_DRAIN waits for. -/
structure Slt where
  entries : List SlateEntry
  lost : List (Nat × Nat)
  /-- Lost lines whose poison write is in flight. -/
  poisoning : List Nat
  drainAll : KV (List Nat)
  /-- The number of the next entry taken. -/
  nextId : Nat
deriving DecidableEq, Repr

/-! ### Coherence -/

/-- A roll entry (12_coherence.md R392): FMT, STATE, listed hosts as pointers or group bits, and its use stamp. -/
structure RollEntry where
  coarse : Bool
  owned : Bool
  hosts : List Nat
  groups : BitVec 32
  stamp : Nat
deriving DecidableEq, Repr

/-- The three forms of BISnp that the roll sends. -/
inductive SnpType where
  | inv | cur | data
deriving DecidableEq, Repr

/-- An open snoop to one host. -/
structure Snoop where
  tag : Nat
  txn : Nat
  host : Nat
  port : Nat
  line : Nat
  typ : SnpType
  answered : Bool
  rsp : BiRsp
  /-- The host departed before it answered (R408). -/
  gone : Bool
  /-- A writeback of the host for the line arrived while the snoop was open. -/
  wroteBack : Bool
deriving DecidableEq, Repr

/-- The roll. -/
structure Rol where
  entries : KV RollEntry
  snoops : List Snoop
  nextTag : Nat
  clock : Nat
  /-- Departed hosts whose face has been out of L0 or reset since the departure (R410). -/
  goneMet : List Nat
deriving DecidableEq, Repr

/-! ### The pool path -/

inductive TxnKind where
  | rd | wr | inv | atom | drain | poison | ownerPoison | evict | jobRd | jobWr | exRd | exWr
deriving DecidableEq, Repr

/-- Where a transaction waits (15_mode_matrix.md R481). -/
inductive Stage where
  | shaper | slateIngress | slateHold | devOrder | gone | lockWait | parked | snoop | evictWait | mapMiss
  | placeHold | moveHold | writeOrder | remote | device | done
deriving DecidableEq, Repr

inductive LegSt where
  | out | ok | poison | fail
deriving DecidableEq, Repr

/-- One access outstanding at a device: LOC slot 0, 1 or 2 (2: the destination of a move). -/
structure Leg where
  dport : Nat
  dtag : Nat
  dtile : Nat
  slot : Nat
  write : Bool
  st : LegSt
  data : Line
deriving DecidableEq, Repr

structure AtomSpec where
  kind : AtomicKind
  width : AtomicWidth
  off : Nat
  operand : BitVec 128
  compare : BitVec 128
deriving DecidableEq, Repr

/-- A request in flight on the pool path. -/
structure Txn where
  id : Nat
  kind : TxnKind
  port : Nat
  host : Option Nat
  tag : Nat
  ten : Option Nat
  gen : Nat
  epoch : Nat
  win : Nat
  dpa : Nat
  line : Nat
  rtype : Nat
  shared : Bool
  mv : MetaVal
  mask : Mask
  data : Line
  poison : Bool
  atom : Option AtomSpec
  stage : Stage
  lock : Bool
  holder : Bool
  legs : List Leg
  /-- Line data before the write of an atomic, for its completion. -/
  old : Line
  /-- The read phase of an atomic, or of a partial write to a sealed window, is over. -/
  readDone : Bool
  /-- Its tile has been marked for it (10_placement.md R322). -/
  marked : Bool
  /-- Its pool face's link went down since it arrived, so its answer is discarded (06_ports.md R227). -/
  lostLink : Bool
  /-- The result of a write that its own row ends: 0 none, 1 ok, 2 device error, 3 link down, 4 tile state. -/
  res : Nat
  /-- Bell or job the transaction belongs to is the tenancy's job: line offset within the chunk's range. -/
  jobOff : Nat
  ecc : Ecc
  /-- It waits in its pool face's ingress with its link credits withheld (13_ordering.md R430). -/
  owes : Bool
  /-- Tag of the window it came through, which names the key of sealed data (20_security.md R565, R579). -/
  sealTag : Nat
  /-- The bytes that the slate held for a read when it was decided, and which bytes they are (13_ordering.md R434). -/
  overMask : Mask := 0#64
  overData : Line := 0#512
  /-- What a COPY job's write finds in the tables, kept while its read runs (12_coherence.md R419). -/
  ecc2 : Ecc := {}
deriving DecidableEq, Repr

/-! ### The tile map -/

/-- A map entry (09_tile_map.md R293). -/
structure Entry where
  state : Nat
  twin : Bool
  mslot : Bool
  reason : Nat
  rmark : Nat
  wmark : Nat
  flips : Nat
  loc0 : Nat
  loc1 : Nat
  dest : Nat
deriving DecidableEq, Repr

/-- A region header (R292). -/
structure MapHeader where
  poolU : Nat
  copy : Nat
  index : Nat
  n : Nat
  fsid : Nat
  gen : Nat
deriving DecidableEq, Repr

/-- A cached line of four entries with its use stamp and what keeps it in the cache (R312). -/
structure CacheLine where
  e : List Entry
  stamp : Nat
  /-- Entries of this line that R304 has not yet written to either copy. -/
  unwritten : List Nat
  /-- Read and write marks of each entry as the copies last took them, zeroed where a sweep has gathered them since (R313). -/
  base : List (Nat × Nat) := []
deriving DecidableEq, Repr

/-- A request ring item (R315): KIND 0 PLACE, 1 ORPHAN, 2 RELEASE, 3 SPLIT. -/
structure RingItem where
  kind : Nat
  tile : Nat
  loc : Nat
deriving DecidableEq, Repr

/-- A command, abort or flip that waits for room on the ring (R315), with what it does then. -/
inductive RingWait where
  | item (i : RingItem)
  | command (f : Nat) (cw : CopyWrites)
  /-- `drop`: the flip of a move that copies nothing and ends a twin (R636). -/
  | flip (t : Nat) (cw : CopyWrites) (drop : Bool)
  | abort (t : Nat) (cw : CopyWrites)
deriving DecidableEq, Repr

structure MapS where
  cache : KV CacheLine
  clock : Nat
  ring : List RingItem
  waiting : List RingWait
  /-- Split records: tile and its good location (R303). -/
  splits : List (Nat × Bool)
  /-- Tiles whose ORPHAN item has been placed in the running scan. -/
  orphaned : List Nat
  /-- The state each moving tile held before it entered MOVING or REWETTING (R297). -/
  before : KV Nat
  /-- Tiles whose entry cannot be read from either copy (R309). -/
  unreadable : List Nat
  /-- Stored lines of a lost copy that the rebuild has copied: every line below this (R310). -/
  rebuilt : Nat
  rebuilding : Bool
  /-- Tiles with a first write held whose PLACE_WAIT runs (R314). -/
  placing : List Nat
  /-- Entries of tiles served from the cache only since both copies were lost. -/
  bothLost : Bool
deriving DecidableEq, Repr

/-! ### Marks, placement, rake, care -/

/-- A candidate record (10_placement.md R329). -/
structure Cand where
  tile : Nat
  down : Bool
  pan : Nat
  rmark : Nat
  wmark : Nat
  heat : Nat
deriving DecidableEq, Repr

/-- The second MOVE of a twin tile's heat move (R335): `due` once the first has flipped. -/
structure SecondMove where
  tile : Nat
  dest : Nat
  due : Bool
  cw : CopyWrites
deriving DecidableEq, Repr

structure Mrk where
  sweeping : Bool
  termRuns : Bool
  deferred : Bool
  /-- Histogram of the last completed sweep and of the running one: key pan * 16 + bucket. -/
  hist : KV Nat
  histNext : KV Nat
  /-- Candidate rings by form. -/
  rings : KV (List Cand)
  /-- Consecutive sweeps a tile was a candidate in one direction: tile to (down, count). -/
  confirm : KV (Bool × Nat)
  dropped : Nat
  /-- Tiles that must leave their pan (R333), and tiles that owe a TWIN move (R484). -/
  misplaced : List Nat
  twinOwed : List Nat
  /-- Twin tiles whose second heat move is owed after the first flips (R335). -/
  secondMove : List SecondMove
  /-- Heat MOVEs issued since the last term ended, against MAXMOVES (R332). -/
  issued : Nat
  /-- The term's heat moves that wait for a fill or an interface, the firmware's latest picks, and first placements that wait
  for their form's interface (R332, R334). -/
  todo : List Cand
  picks : List MovePick
  places : List (Nat × PlaceChoice)
  /-- CONFIRM as the running or last sweep started with it (15_mode_matrix.md R483). -/
  confirmNow : Nat
deriving DecidableEq, Repr

/-- What a rake slot carries: a move of a tile or a tenant job. -/
inductive RakWork where
  | move (tile : Nat)
  | job (ten : Nat)
deriving DecidableEq, Repr

structure RakSt where
  work : RakWork
  /-- Copy pointer c, and the first line not yet claimed (R342). -/
  c : Nat
  claimed : Nat
  waitSrc : Bool
  stopping : Bool
  /-- The destination has failed: writes go to the source only (R346). -/
  dstFailed : Bool
  /-- The flip has been requested (R345). -/
  flipAsked : Bool
  /-- Poisoned lines copied for a twin tile, to be mended at the destination after the flip (R380). -/
  bad : List Nat
  /-- REASON of the move that took the slot, which outlives the move (R350, R357). -/
  reason : Nat := 0
deriving DecidableEq, Repr

structure Rak where
  slots : KV RakSt
  /-- Tiles with a pending move request, oldest first (R338). -/
  pending : List Nat
  /-- Tenancies whose job waits for a slot. -/
  jobs : List Nat
  /-- Map commands that wait at the slice because a limit of R338 is reached: interface numbers. -/
  waiting : List (Nat × CopyWrites)
deriving DecidableEq, Repr

/-- A care record (11_media_care.md R364). -/
structure CareRec where
  wear : Nat
  stamp : Nat
  flips : Nat
  defects : Nat
  tile : Option Nat
  slot : Bool
  retired : Bool
  rsvd : Bool
deriving DecidableEq, Repr

/-- What a device holds in its care region: header fields, records by device tile, fresh list. -/
structure CareRegion where
  tiles : Nat
  serial : Nat
  age : Nat
  passes : Nat
  /-- WEAR of every record that is not listed (R365). -/
  wear0 : Nat
  recs : KV CareRec
  fresh : List Nat
deriving DecidableEq, Repr

/-- What a device's media hold of what MAP and CAR have written there, by byte address (DPA): the header of a map region
at the region's first byte and map entries of 16 bytes (09_tile_map.md R291, R292), and the care region (R363). Nothing of
it changes at a reset (R114). -/
structure Disk where
  heads : KV MapHeader
  entries : KV Entry
  care : Option CareRegion
deriving DecidableEq, Repr

/-- The devices' media: by port, of the device there now or last; and by serial number, of devices that another device
has replaced at their port. -/
structure Media where
  disks : KV Disk
  /-- Serial number of the device last READY at a port. -/
  serials : KV Nat
  shelf : KV Disk
deriving DecidableEq, Repr

/-- A care ring item (R372). -/
structure CareItem where
  kind : Nat
  tile : Nat
  slot : Bool
  port : Nat
  /-- State of the tile when the item was posted: a MOVE for it is refused once that has changed (R372). -/
  state : Nat := 1
deriving DecidableEq, Repr

/-- A queued mend (R380): the line and which location is bad. -/
structure MendReq where
  line : Nat
  bad : Bool
deriving DecidableEq, Repr

structure Car where
  /-- Pending charges and defects by (port * 2^22 + device tile). -/
  wear : List (Nat × Nat)
  defects : KV Nat
  ring : List CareItem
  mends : List MendReq
  passRuns : Bool
  passLate : Bool
  /-- Items the pass still has to post because the ring is full. -/
  posting : List CareItem
  /-- Per device page: device age at the start of the last pass, in 1/256 hours (R369). -/
  agePrev : KV Nat
  /-- Pages whose device left READY and whose LOST_WAIT runs, and those that were READY once. -/
  lostWait : List Nat
  wasReady : List Nat
  /-- Pages that returned with SAME = 0 and keep HOLD until no location is left (R385). -/
  newDevice : List Nat
  /-- Pages in EOL, which holds until the device leaves READY (R368). -/
  eol : List Nat
  /-- Locations that a RETIRE move has left and no pass has yet marked RETIRED (R369). -/
  retireLeft : List Nat
  /-- Pages whose device's region waits to be initialised until CAR may write again (R93, R365, R378). -/
  initOwed : List Nat
  /-- Settings of the device pages as the last pass or the binding took them, by page * 2^17 + bit place of the field
  (R389); one that is not listed has its field's reset value. -/
  inUse : KV Nat
  /-- Mends dropped because the queue was full (R380). -/
  mendDrops : Nat
deriving DecidableEq, Repr

/-! ### Management plane -/

/-- A fault code on its way to the record arbiter: page address, instance, block, severity, flags. -/
structure FltCode where
  page : Nat
  sev : Nat
  linkpoll : Bool
  inj : Bool
  /-- The broken link's page for FLT_LINK (R492). -/
  isLink : Bool
  /-- The auxiliary timer when it was raised: codes of one page raised at one time are together (R491). -/
  time : Nat
deriving DecidableEq, Repr

/-- The five words of a record (16_faults.md R497). -/
structure FltRec where
  w0 : Nat
  w1 : Nat
  w2 : Nat
  w3 : Nat
  w4 : Nat
deriving DecidableEq, Repr

structure Flt where
  codes : List FltCode
  seq : Nat
  log : List FltRec
  /-- Broken links, in the order they broke, with PG_ERR as last polled (R493). -/
  broken : List (Nat × Nat)
  /-- A RESET reaction waits for FE_DELAY (R503). -/
  resetOwed : Bool
  /-- A pulse of ERR_N runs (R504). -/
  pulse : Bool
  /-- The auxiliary timer at each page's last complete code, at each stage's start and at the start of the VAUX domain, from
  which FLT checks heartbeats (R492, R495). -/
  heard : KV Nat
  stageAt : KV Nat
  vauxAt : Nat
deriving DecidableEq, Repr

/-- Slot channel timers and levels beyond its registers (17_slot_power.md). -/
structure SlpSt where
  /-- The fault timer of R515 runs. -/
  faultRuns : Bool
  rampRuns : Bool
  /-- Rail-good is known not to hold (R517). -/
  railLow : Bool
  coolRuns : Bool
  /-- The auxiliary timer at the last trip (R518). -/
  coolAt : Nat
  /-- GOV as the last entry to RAMP took it, and VLIM as the last limit onset did (R523). -/
  gov : Nat
  vlim : Nat
deriving DecidableEq, Repr

structure Slp where
  st : KV SlpSt
  /-- HV_IN has risen above 10.3 V and has not been lost since (R520). No reset changes it. -/
  hvOk : Bool
  /-- The auxiliary timer of the VAUX domain in ns (22_register_map.md R629), and its value when a channel last entered
  RAMP (R519). -/
  aux : Nat
  lastRamp : Option Nat
deriving DecidableEq, Repr

structure Mgt where
  /-- Core that claimed an active ID (18_mgmt_interrupts.md R534). -/
  claimer : KV Nat
  /-- Watchdog running per core. -/
  wdt : BitVec 4
deriving DecidableEq, Repr

/-- Result state of a management port (19_bridge.md R549). -/
inductive BrgRes where
  | none | running | done | error | denied | timeout
deriving DecidableEq, Repr

structure BrgReq where
  addr : Nat
  write : Bool
  v : Nat
  /-- Posted writes that arrived before it and still wait (R551). -/
  ahead : Nat
deriving DecidableEq, Repr

structure BrgPort where
  res : BrgRes
  data : Nat
  seq : Nat
  req : Option BrgReq
  posted : List (Nat × Nat)
  /-- Writes that ended with TIMEOUT and will still be applied (R549). -/
  late : List BrgReq
deriving DecidableEq, Repr

/-- A message being reassembled (R553). -/
structure MctpAsm where
  port : Nat
  srcEid : Nat
  tag : Nat
  msgType : Nat
  nextSeq : Nat
  /-- What has been reassembled so far. -/
  data : List Byte
deriving DecidableEq, Repr

/-- A queued platform event (R559). -/
structure BrgEvent where
  id : Nat
  record : FltRec
  /-- Sent to the receiver, or returned by a poll, and not yet acknowledged. -/
  sent : Bool
  polled : Bool
  ibi0 : Bool
  ibi1 : Bool
deriving DecidableEq, Repr

/-- A sensor entry and its last reading (R556, R557). -/
structure Sensor where
  w0 : Nat
  w1 : Nat
  w2 : Nat
  w3 : Nat
  reading : Int
  available : Bool
deriving DecidableEq, Repr

/-- A fabric manager command from MCTP that MC1 has not answered (R554): its port, the endpoint that sent it, its code. -/
structure FmCmd where
  port : Nat
  eid : Nat
  opcode : Nat
deriving DecidableEq, Repr

structure Brg where
  port0 : BrgPort
  port1 : BrgPort
  /-- Messages being reassembled, at most eight. -/
  asm : List MctpAsm
  events : List BrgEvent
  nextEvent : Nat
  receiver : Option Nat
  alertLow : Bool
  /-- Sensor entries that differ from R558's table, and sensors disabled by PLDM. -/
  sensors : KV Sensor
  disabled : List Nat
  /-- Update time of the PDR repository (R555). -/
  pdrTime : Nat
  /-- Outstanding fabric manager commands from MCTP, oldest first (R554). -/
  fmOut : List FmCmd
  /-- The terminus ID that PLDM Base has set (R555). -/
  tid : Nat
deriving DecidableEq, Repr

/-- An image slot: the words written since it was last erased (none: as it was when power first came), and whether an
abandoned update has left it unfit (20_security.md R571, R573). -/
structure ImgSlot where
  words : Option (List Nat)
  spoiled : Bool
deriving DecidableEq, Repr

/-- Link IDE of one port (20_security.md R577): the keys programmed by set, and the set running, for each direction. -/
structure IdeSt where
  txKey : KV (BitVec 256)
  rxKey : KV (BitVec 256)
  txGo : Option Nat
  rxGo : Option Nat
deriving DecidableEq, Repr

structure Sec where
  /-- Slots: management A, B, prefect A, B. -/
  mgtA : ImgSlot
  mgtB : ImgSlot
  pfxA : ImgSlot
  pfxB : ImgSlot
  /-- An update is open on the inactive slot: prefect image or not; VERIFY has run on it; and VERIFY returned OK. -/
  open_ : Option Bool
  checked : Bool
  verified : Bool
  /-- Raised minimum SVN and revoked keys beyond the fused values. -/
  mgtMin : Option Nat
  pfxMin : Option Nat
  revoked : Nat
  mgtSlot : Option Bool
  pfxSlot : Option Bool
  ide : KV IdeSt
  /-- Open SPDM sessions per responder: 1024 for MCTP, else the port (R575). -/
  sessions : KV Nat
  fuseUe : Bool
  /-- What the Alias key was last derived from: the device secret goes with measurements 1, 2 and 4 (R565); none before
  the first derivation, or where the fuses cannot be read. -/
  aliasOf : Option Nat
deriving DecidableEq, Repr

/-- A performance counter (21_counters.md R584). -/
structure Ctr where
  sel : Nat
  val : Nat
  snap : Nat
deriving DecidableEq, Repr

structure Cnt where
  ctr : KV Ctr
  snapRuns : Bool
  snapOwed : Bool
  snapAt : Nat
deriving DecidableEq, Repr

/-! ### What the part sends outside -/

/-- Flit type and protocol ID (05_links.md R156). -/
inductive FlitType where
  | nop | io | mem | cache | resend | marks
deriving DecidableEq, Repr

/-- A CXL.mem, CXL.io or other answer to a host. A poisoned answer's data is meaningless and stands as 0. -/
inductive HostAns where
  | memData (data : Line) (poison : Bool) (cmp : Option MetaVal)
  | cmp (grant : Option MetaVal)
  | atomData (v : Nat) (poison : Bool)
  | ioData (v : Nat)
  | ur
  | ca
deriving DecidableEq, Repr

/-- The hot-plug registers of a slot as the bound host's vPPB presents them (06_ports.md R217): Slot Capabilities, then what
Slot Control and Slot Status read. -/
structure SlotRegs where
  powerController : Bool
  attentionButton : Bool
  attentionIndicator : Bool
  powerIndicator : Bool
  mrlSensor : Bool
  interlock : Bool
  linkActiveCapable : Bool
  powerOn : Bool
  attn : Nat
  pwrInd : Nat
  present : Bool
  linkActive : Bool
deriving DecidableEq, Repr

/-- A CXL.io function that a pool face presents: its number, whether its class is CXL memory device, the capabilities of its
CXL DVSEC, its HDM decoders and dynamic-capacity regions, and its 64-bit BARs with their sizes in bytes (06_ports.md
R205, R206). -/
structure FuncFace where
  number : Nat
  memoryDevice : Bool
  memCapable : Bool
  ioCapable : Bool
  cacheCapable : Bool
  hdmDecoders : Nat
  regions : Nat
  bars : List (Nat × Nat)
deriving DecidableEq, Repr

/-- What a port presents to its partner (06_ports.md R204): the functions of a memory device; an upstream switch port with
the CXL switch DVSECs and its vPPBs, each with the face and the logical device that it is bound to (R207); a root port; a downstream port with its slot; a trunk of port-based routing
with the fabric switch ID. -/
inductive Face where
  | memory (fns : List FuncFace)
  | switch (switchDvsecs : Bool) (vppbs : List (Option (Nat × Nat)))
  | root
  | downstream (owned : Bool) (slot : Option SlotRegs)
  | trunk (fsid : Nat)
deriving DecidableEq, Repr

/-- Everything the part sends outside, as one list (newest first). -/
inductive Out where
  | host (port tag : Nat) (a : HostAns)
  | hostEvent (port : Nat) (r : DcRec)
  | hostErrLogged (port : Nat)
  | extents (port : Nat) (l : List Nat)
  | cmdStatus (port : Nat) (busy : Bool)
  | devRd (dport dtag dtile off : Nat)
  | devWr (dport dtag dtile off : Nat) (mask : Mask) (data : Line) (poison : Bool)
  | snoop (port tag dpa : Nat) (typ : SnpType)
  | biConflictAck (port tag : Nat)
  | remoteReq (port tag xid addr : Nat) (write : Bool) (mask : Mask) (data : Line) (poison : Bool)
  | trunkRsp (port tag : Nat) (data : Line) (poison : Bool)
  /-- Modified TS1 and TS2 ordered sets with the Nolric vendor ID, and the X128 bit in them (06_ports.md R213). -/
  | modifiedTs (port : Nat) (x128 : Bool)
  /-- A sequenced flit: its type and message, its credit return fields (none if it carries none), and the original number
  of a failover resend flit (05_links.md R156, R162, R179). -/
  | flit (port : Nat) (typ : FlitType) (seq : Nat) (msg : Option FlitMsg) (rets : List Nat) (orig : Option Nat)
  | marksFlit (port : Nat) (recs : List MarkWait)
  | ack (port seq : Nat)
  | nak (port seq : Nat) (selective : Bool)
  | credit (port cls n : Nat)
  | cell (egress pkt : Nat) (poison : Bool)
  | cellEnd (egress pkt : Nat) (nullified : Bool)
  | pathRead (pa : Path) (v : Nat)
  | pathRefused (pa : Path)
  /-- n bits leave at TDO, the first of them bit 0 of v: of the instruction register or of a data register. -/
  | tapShift (instr : Bool) (n v : Nat)
  | brg (k : Nat) (code : Nat) (data : List Nat)
  /-- An MCTP message: its port, source and destination endpoint IDs, type, command, completion code and data. -/
  | mctp (k src dst : Nat) (typ cmd code : Nat) (data : List Nat)
  /-- A PlatformEventMessage: the receiver, the event class, and the record (R559). -/
  | platformEvent (eid cls : Nat) (r : FltRec)
  /-- MC1's answer to a fabric manager command, to the port and endpoint that sent it (R554). -/
  | fmAnswer (k eid opcode : Nat)
  | ibi (k mdb : Nat)
  | spdm (via : SpdmVia) (what : Nat) (data : List Nat)
  | ideKm (p : Nat) (what : Nat)
  /-- A PCIe margining command is accepted or refused, and the result of one that was accepted (04_lanes.md R152, R153). -/
  | margin (l : Nat) (refused : Bool)
  | marginResult (l errs : Nat)
  /-- What a port presents at its entry to L0 (06_ports.md R204 to R207). -/
  | presents (port : Nat) (face : Face)
  /-- A device face programs its device's HDM decoder over the used range, in tiles from device address 0 (R208, R219). -/
  | hdmProgram (dport tiles : Nat)
  /-- Slot Status of a bound vPPB changes: attention button, presence, link state, and the slot's registers as they then
  stand (R217, R224). -/
  | slotStatus (port vppb : Nat) (button presence link : Bool) (slot : SlotRegs)
  /-- A fabric manager command is taken (0), or answered Busy (1) or Unsupported (2). -/
  | fm (src : FmSource) (code : Nat)
  | brgNack (k code : Nat)
deriving DecidableEq, Repr

/-! ### The part, the machine -/

/-- The part: every piece of state that the spec gives it, but the record buffers. -/
structure Chip where
  fld : KV Nat
  tmb : Tmb
  pwr : Pwr
  sbc : Sbc
  tap : Tap
  phy : Phy
  lnk : Lnk
  prt : Prt
  xbr : Xbr
  bnd : Bnd
  ten : Tenancies
  slt : Slt
  rol : Rol
  txns : List Txn
  nextTxn : Nat
  map : MapS
  media : Media
  mrk : Mrk
  rak : Rak
  car : Car
  flt : Flt
  slp : Slp
  mgt : Mgt
  brg : Brg
  sec : Sec
  cnt : Cnt
  sent : List Out
  /-- Free values taken so far: the argument of `Config.freeValue` (the model's own field). -/
  draws : Nat
deriving DecidableEq, Repr

/-- The machine: the part, the tenancies' record buffers TEN_REC (byte address tenancy * 1,024 + offset; unlisted
bytes read 0), and the commands that wait, first in first out. -/
structure State where
  chip : Chip
  recs : List Host.Cell
  pending : List Instr
deriving DecidableEq, Repr

/-- Why the machine would stop with a fault. No command of this block stops so. -/
inductive Fault where
  /-- Raised by nothing: the spec gives every command an effect. Safe: it only stops. -/
  | unreachable
deriving DecidableEq, Repr

/-- Why a command is refused by the model. -/
inductive Refusal where
  /-- Raised by an arm whose command has no meaning yet. Safe: it only stops. -/
  | notModelled (mnemonic : String)
  /-- Raised by a command whose operands have no shape its row can have (WellFormed.lean). Safe: it only stops. -/
  | illFormed
deriving DecidableEq, Repr

/-! ### Idle values: what an unlisted key reads as, and the state after reset -/

def LaneSt.idle : LaneSt :=
  { lb := .none, genOn := false, chkOn := false, trained := false, idled := false, margin := none, compared := 0 }

def LnkSt.idle : LnkSt :=
  { unacked := [], sinceAck := 0, lastReplayAck := none, replays := 0, ackedSinceRetrain := 0, used := [0, 0, 0, 0, 0],
    freed := [0, 0, 0, 0, 0], told := [0, 0, 0, 0, 0], lastRet := [0, 0, 0, 0, 0], headAvail := 0,
    inForce := [0, 0, 0, 0, 0], resend := [], moved := [], sinceMarks := 0, peerWidth := none, credRestart := false, role := none, declaredDown := false, holdRuns := false,
    failback := false, info := none }

def PrtSt.idle : PrtSt :=
  { hot := .idle, perstHigh := false, dev := none, lastSerial := none, pan := 0, removed := false, clk := 0, asked := [] }

def Window.free : Window :=
  { valid := false, kind := 0, rtype := 0, shared := false, twin := false, pans := 0, rel := false, dcr := 0,
    state := 0, remote := false, ten := 0, port := 0, hbase := 0, pbase := 0, size := 0, vppb := 0, ld := 0,
    xid := 0, target := 0, tag := 0, lepoch := 0, ue := false }

def DcLog.empty : DcLog := { recs := [], held := [] }

def Job.idle : Job :=
  { kind := 0, src := 0, dst := 0, len := 0, bytes := 0, status := 0, go := false, started := false,
    paused := false, chunk := false, stopping := false, failed := false, poison := false, waitLines := [] }

def TenSt.idle : TenSt :=
  { log := [], ovf := 0, nlost := 0, seq := 0, job := Job.idle, bells := [], prev := 0, resetting := false,
    disabling := false, freezing := false, selfReset := false, jSrc := 0, jDst := 0, jLen := 0, jKind := 0,
    queue := [], pEn := false, sEn := false, qmaxNow := 0, wNow := 16,
    pBurst := 4096, sBurst := 4096 }

def Entry.zero : Entry :=
  { state := 0, twin := false, mslot := false, reason := 0, rmark := 0, wmark := 0, flips := 0, loc0 := 0,
    loc1 := 0, dest := 0 }

def CareRec.zero : CareRec :=
  { wear := 0, stamp := 0, flips := 0, defects := 0, tile := none, slot := false, retired := false, rsvd := false }

def SlpSt.idle : SlpSt :=
  { faultRuns := false, rampRuns := false, railLow := false, coolRuns := false, coolAt := 0, gov := 10, vlim := 25 }

def BrgPort.idle : BrgPort := { res := .none, data := 0, seq := 0, req := none, posted := [], late := [] }

def Disk.empty : Disk := { heads := [], entries := [], care := none }

def ImgSlot.factory : ImgSlot := { words := none, spoiled := false }

def IdeSt.idle : IdeSt := { txKey := [], rxKey := [], txGo := none, rxGo := none }

def Ctr.zero : Ctr := { sel := 0, val := 0, snap := 0 }

def PathLatch.none : PathLatch := { rdAddr := Option.none, rdVal := 0, wrAddr := Option.none, wrVal := 0 }

def Wdrr.empty : Wdrr := { active := [] }

/-- The part in cold reset with no supply valid (03_power_start.md R92, R111): every register field at its reset
value, nothing started, nothing in flight. -/
def Chip.reset : Chip :=
  { fld := []
    tmb := { now := 0, started := false, stalled := false, mgr := .none, core := .none, bridge := .none }
    pwr := { vin := false, vaux := false, warn := false, auxWarn := false, tjWarn := false, paceShort := false,
             thermOff := false, vauxUp := false, time0 := false, time0At := 0, begun := 0, done := 0,
             stage0Once := false, vcore2 := 0, paces := [], excluded := 0, maddr := 0, testHold := false,
             chainUp := false }
    sbc := { inImg := 0, outImg := 0, shifted := 0, pins := 0, badRun := 0, ran := false, len := 8, freq := 10, poll := 10 }
    tap := { ctl := .testLogicReset, irShift := 0, ir := 2, bypass := false, cells := 0, latches := 0,
             controlling := false }
    phy := { lane := [], absent := 0, pllLost := 0 }
    lnk := { st := [], out := [], carrier := [], marks := [], adv := [] }
    prt := { st := [] }
    xbr := { pkts := [], laneAt := [], wdrr := [], clsPtr := [], mcLast := [], waiting := [], lost := 0, nextId := 0 }
    bnd := { live := [], staged := [], dirty := [], held := [], drainOwed := [], dcLog := [], hdm := [],
             dcSeq := 0,
             dcWait := [] }
    ten := { st := [] }
    slt := { entries := [], lost := [], poisoning := [], drainAll := [], nextId := 0 }
    rol := { entries := [], snoops := [], nextTag := 0, clock := 0, goneMet := [] }
    txns := []
    nextTxn := 0
    map := { cache := [], clock := 0, ring := [], waiting := [],
             splits := [], orphaned := [], before := [], unreadable := [], rebuilt := 0, rebuilding := false,
             placing := [], bothLost := false }
    media := { disks := [], serials := [], shelf := [] }
    mrk := { sweeping := false, termRuns := false, deferred := false, hist := [], histNext := [], rings := [],
             confirm := [], dropped := 0, misplaced := [], twinOwed := [], secondMove := [], issued := 0, todo := [],
             picks := [], places := [], confirmNow := 2 }
    rak := { slots := [], pending := [], jobs := [], waiting := [] }
    car := { wear := [], defects := [], ring := [], mends := [], passRuns := false,
             passLate := false, posting := [], agePrev := [], lostWait := [], wasReady := [],
             newDevice := [], eol := [], retireLeft := [], initOwed := [], inUse := [], mendDrops := 0 }
    flt := { codes := [], seq := 0, log := [], broken := [], resetOwed := false, pulse := false, heard := [], stageAt := [], vauxAt := 0 }
    slp := { st := [], hvOk := false, aux := 0, lastRamp := none }
    mgt := { claimer := [], wdt := 0 }
    brg := { port0 := .idle, port1 := .idle, asm := [], events := [], nextEvent := 0,
             receiver := none, alertLow := false, sensors := [], disabled := [], pdrTime := 0, fmOut := [],
             tid := 0 }
    sec := { mgtA := .factory, mgtB := .factory, pfxA := .factory, pfxB := .factory, open_ := none, checked := false, verified := false,
             mgtMin := none, pfxMin := none, revoked := 0, mgtSlot := none, pfxSlot := none,
             ide := [], sessions := [], fuseUe := false, aliasOf := none }
    cnt := { ctr := [], snapRuns := false, snapOwed := false, snapAt := 0 }
    sent := []
    draws := 0 }

/-- The machine right after reset: the part in cold reset, empty record buffers, no command waiting. -/
def State.reset : State := { chip := Chip.reset, recs := [], pending := [] }

end Sys2Proof.Machine
end

