-- ==== Sys2Proof/Machine/Store.lean ====
section
/-!
DEFINITION. Sparse data by number: looking up, putting and erasing one key of a `KV`, with a default for unlisted
keys.
-/
namespace Sys2Proof.Machine

/-- The value listed for a key. -/
def kvFind {α : Type} : KV α → Nat → Option α
  | [], _ => none
  | (k, v) :: r, a => if a = k then some v else kvFind r a

/-- The value of a key, with the value an unlisted key reads as. -/
def kvGet {α : Type} (d : α) (l : KV α) (a : Nat) : α := (kvFind l a).getD d

/-- Put a value for a key, keeping keys in rising order. -/
def kvPut {α : Type} : KV α → Nat → α → KV α
  | [], a, v => [(a, v)]
  | (k, w) :: r, a, v => if a < k then (a, v) :: (k, w) :: r else if a = k then (a, v) :: r else (k, w) :: kvPut r a v

/-- Take a key out. -/
def kvErase {α : Type} (l : KV α) (a : Nat) : KV α := l.filter fun p => !(p.1 == a)

/-- Set the value of a key; a value equal to the default is not listed. -/
def kvSet {α : Type} [DecidableEq α] (d : α) (l : KV α) (a : Nat) (v : α) : KV α :=
  if v = d then kvErase l a else kvPut l a v

/-- Change the value of a key. -/
def kvMod {α : Type} [DecidableEq α] (d : α) (l : KV α) (a : Nat) (f : α → α) : KV α :=
  kvSet d l a (f (kvGet d l a))

/-- The keys listed. -/
def kvKeys {α : Type} (l : KV α) : List Nat := l.map (·.1)

end Sys2Proof.Machine
end

