-- ==== Sys2Proof/Machine/Ops.lean ====
section
/-!
DEFINITION. The named operations over the part's state that every command uses: register fields, sending outside, free
values, the time, and lifting a change of the part to a step.
-/
namespace Sys2Proof.Machine

/-- The outcome of one step of this machine. -/
abbrev Out3 := Host.Outcome State Fault Refusal

/-- A command whose whole effect is a change of the part: the record buffers and the queue stay. -/
def onChip (s : State) (f : Chip → Chip) : State := { s with chip := f s.chip }

/-- Apply a change when a condition holds. -/
def whenB (b : Bool) (f : Chip → Chip) (c : Chip) : Chip := if b then f c else c

/-- Apply a change for each element of a list, first to last. -/
def forEach {α : Type} (l : List α) (f : α → Chip → Chip) (c : Chip) : Chip := l.foldl (fun c x => f x c) c

/-! ### Register fields -/

/-- Field X of page n, word i. -/
def getFi (c : Chip) (X : Fld) (n i : Nat) : Nat := (kvFind c.fld (fldKey X n i)).getD (rstAt X n i)

/-- Field X of page n, word i, set to a value of its width. -/
def setFi (X : Fld) (n i v : Nat) (c : Chip) : Chip :=
  { c with fld := if v % 2 ^ X.w = rstAt X n i then kvErase c.fld (fldKey X n i)
                  else kvPut c.fld (fldKey X n i) (v % 2 ^ X.w) }

/-- Field X of page n. -/
def getF (c : Chip) (X : Fld) (n : Nat) : Nat := getFi c X n 0

/-- Field X of page n set to a value. -/
def setF (X : Fld) (n v : Nat) (c : Chip) : Chip := setFi X n 0 v c

/-- A one-bit field as a truth value. -/
def isF (c : Chip) (X : Fld) (n : Nat) : Bool := getF c X n != 0

/-- A field of a lane's registers: page of its group, word of its place (04_lanes.md R154). -/
def getLane (c : Chip) (X : Fld) (l : Nat) : Nat := getFi c X (l / 16) (l % 16)
def setLane (X : Fld) (l v : Nat) (c : Chip) : Chip := setFi X (l / 16) (l % 16) v c

/-- A counter-like field increased, saturating at its width. -/
def bumpF (X : Fld) (n k : Nat) (c : Chip) : Chip := setF X n (satAdd X.w (getF c X n) k) c

/-- A field increased, wrapping at its width. -/
def wrapF (X : Fld) (n k : Nat) (c : Chip) : Chip := setF X n (getF c X n + k) c

/-- A field back at its reset value. -/
def resetF (X : Fld) (n : Nat) (c : Chip) : Chip := setF X n (rstAt X n 0) c

/-- A 64-bit value in a low and a high field. -/
def setF64 (L H : Fld) (n v : Nat) (c : Chip) : Chip := setF H n (v / 2 ^ 32) (setF L n v c)

/-! ### Outside, free values, time -/

/-- The part sends something outside. -/
def send (o : Out) (c : Chip) : Chip := { c with sent := o :: c.sent }

/-- The next free value, and the part after taking it. -/
def drawn (c : Chip) : Nat := Config.freeValue c.draws
def takeDraw (c : Chip) : Chip := { c with draws := c.draws + 1 }

/-- TMB advances (22_register_map.md R608, R609). -/
def tmbRuns (c : Chip) : Bool := c.tmb.started && !c.tmb.stalled

/-- A timestamp: 0 before TMB has started (R608). -/
def nowNs (c : Chip) : Nat := c.tmb.now

/-! ### Typed homes by key -/

def lnkSt (c : Chip) (p : Nat) : LnkSt := kvGet LnkSt.idle c.lnk.st p
def setLnkSt (p : Nat) (x : LnkSt) (c : Chip) : Chip :=
  { c with lnk := { c.lnk with st := kvSet LnkSt.idle c.lnk.st p x } }

def prtSt (c : Chip) (p : Nat) : PrtSt := kvGet PrtSt.idle c.prt.st p
def setPrtSt (p : Nat) (x : PrtSt) (c : Chip) : Chip :=
  { c with prt := { st := kvSet PrtSt.idle c.prt.st p x } }

def laneSt (c : Chip) (l : Nat) : LaneSt := kvGet LaneSt.idle c.phy.lane l
def setLaneSt (l : Nat) (x : LaneSt) (c : Chip) : Chip :=
  { c with phy := { c.phy with lane := kvSet LaneSt.idle c.phy.lane l x } }

def tenSt (c : Chip) (t : Nat) : TenSt := kvGet TenSt.idle c.ten.st t
def setTenSt (t : Nat) (x : TenSt) (c : Chip) : Chip :=
  { c with ten := { st := kvSet TenSt.idle c.ten.st t x } }

def slpSt (c : Chip) (n : Nat) : SlpSt := kvGet SlpSt.idle c.slp.st n
def setSlpSt (n : Nat) (x : SlpSt) (c : Chip) : Chip :=
  { c with slp := { c.slp with st := kvSet SlpSt.idle c.slp.st n x } }

def liveWin (c : Chip) (w : Nat) : Window := kvGet Window.free c.bnd.live w
def stagedWin (c : Chip) (w : Nat) : Window :=
  if c.bnd.dirty.contains w then kvGet Window.free c.bnd.staged w else liveWin c w
def setLiveWin (w : Nat) (x : Window) (c : Chip) : Chip :=
  { c with bnd := { c.bnd with live := kvSet Window.free c.bnd.live w x } }

/-- A transaction by its number. -/
def txnOf (c : Chip) (i : Nat) : Option Txn := c.txns.find? fun t => t.id == i
def putTxn (t : Txn) (c : Chip) : Chip := { c with txns := c.txns.map fun u => if u.id = t.id then t else u }
def dropTxn (i : Nat) (c : Chip) : Chip := { c with txns := c.txns.filter fun t => t.id != i }

end Sys2Proof.Machine
end

