-- ==== Sys2Proof/Machine/Flags.lean ====
section
/-!
DEFINITION. Error bits, event bits and counters: raising a fault toward the record arbiter (16_faults.md R487 to
R496), raising an event (18_mgmt_interrupts.md R538), and counting an occurrence (21_counters.md R584 to R588).
-/
namespace Sys2Proof.Machine

/-- Severity that PG_ERR_SEV gives bit b of a page (R488). -/
def pgSev (c : Chip) (k : PK) (n b : Nat) : Nat := bits (getF c (PG_ERR_SEV k) n) (2 * b) 2

/-- The bit reaches FLT: its mask bit is 0, or its severity is FE (R487, R488). -/
def pgUnmasked (c : Chip) (k : PK) (n b : Nat) : Bool := !bit (getF c (PG_ERR_MASK k) n) b || pgSev c k n b == 2

/-- The page's fault link is broken (R492). -/
def linkBroken (c : Chip) (pg : Nat) : Bool := c.flt.broken.any fun b => b.1 == pg

/-- Two codes of one link that were raised together. -/
def together (x y : FltCode) : Bool :=
  y.page == x.page && y.time == x.time && y.isLink == x.isLink && y.linkpoll == x.linkpoll

/-- A code joins those that wait: last, but ahead of those of its link raised together with it at a lower severity
(R491). -/
def queueCode (x : FltCode) : List FltCode → List FltCode
  | [] => [x]
  | y :: r => if together x y && decide (y.sev < x.sev) then x :: y :: r else y :: queueCode x r

/-- A code travels to the record arbiter; a broken link carries none (R491, R493). -/
def emitCode (x : FltCode) (c : Chip) : Chip :=
  if linkBroken c x.page && !x.linkpoll && !x.isLink then c
  else { c with flt := { c.flt with codes := queueCode x c.flt.codes } }

/-- PG_ERR bit b of page n becomes 1, and the page raises the fault if the bit was 0 (R487, R489, R490). -/
def raiseWith (inj : Bool) (k : PK) (n b : Nat) (c : Chip) : Chip :=
  if bit (getF c (PG_ERR k) n) b then c
  else
    let c1 := setF (PG_ERR k) n (setBit (getF c (PG_ERR k) n) b) c
    if pgUnmasked c k n b then
      emitCode { page := pageOf k n, sev := pgSev c k n b, linkpoll := false, inj := inj, isLink := false, time := c.slp.aux } c1
    else c1

/-- A block raises its fault (R487). -/
def raise (k : PK) (n b : Nat) (c : Chip) : Chip := raiseWith false k n b c

/-- A page raises an event: its PG_EVT_PEND bit becomes 1 (22_register_map.md R602, R603). -/
def event (k : PK) (n b : Nat) (c : Chip) : Chip :=
  setF (PG_EVT_PEND k) n (setBit (getF c (PG_EVT_PEND k) n) b) c

/-- The counters of a page do not count (R588, R603, R607). -/
def pageFrozen (c : Chip) (k : PK) (n : Nat) : Bool :=
  isF c CNT_CTRL_FREEZE 0 || isF c GLB_FREEZE_FREEZE 0 || isF c (PG_CTRL_CFRZ k) n

/-- Fields of PG_CSELi: EN, QUAL and the local index of EVENT (R584, R585). -/
def cselEn (sel : Nat) : Bool := bit sel 31
def cselTvis (sel : Nat) : Bool := bit sel 30
def cselQual (sel : Nat) : Nat := bits sel 16 13
def cselIdx (sel : Nat) : Nat := bits sel 0 11 % 64

/-- The counter takes an occurrence of local index x with qualifier q, if the event has one (R586). -/
def ctrTakes (sel x : Nat) (q : Option Nat) : Bool :=
  cselEn sel && cselIdx sel == x &&
    (match q with
     | none => true
     | some v => cselQual sel == 0 || cselQual sel == v + 1)

/-- Counter i of a page is stored under page * 16 + i. -/
def ctrKey (pg i : Nat) : Nat := pg * 16 + i

def ctrOf (c : Chip) (pg i : Nat) : Ctr := kvGet Ctr.zero c.cnt.ctr (ctrKey pg i)
def setCtr (pg i : Nat) (x : Ctr) (c : Chip) : Chip :=
  { c with cnt := { c.cnt with ctr := kvSet Ctr.zero c.cnt.ctr (ctrKey pg i) x } }

/-- One listed counter after `amount` occurrences on page pg. -/
def tickCtr (pg x : Nat) (q : Option Nat) (amount : Nat) (e : Nat × Ctr) : Nat × Ctr :=
  if e.1 / 16 = pg ∧ ctrTakes e.2.sel x q = true then (e.1, { e.2 with val := (e.2.val + amount) % 2 ^ 64 }) else e

/-- Count `amount` units of local event x with qualifier q on page n of kind k (R586, R588). -/
def countN (k : PK) (n x : Nat) (q : Option Nat) (amount : Nat) (c : Chip) : Chip :=
  if pageFrozen c k n then c
  else { c with cnt := { c.cnt with ctr := c.cnt.ctr.map (tickCtr (pageOf k n) x q amount) } }

/-- Count one occurrence of an event without a qualifier. -/
def count (k : PK) (n x : Nat) (c : Chip) : Chip := countN k n x none 1 c

/-- Count one occurrence of an event marked Q. -/
def countQ (k : PK) (n x q : Nat) (c : Chip) : Chip := countN k n x (some q) 1 c

/-- Count on a roll slice's page and on the central page of the roll (R593). -/
def countRol (slice x : Nat) (q : Option Nat) (c : Chip) : Chip :=
  countN .rolC 0 x q 1 (countN .rolS slice x q 1 c)

/-- Count on a management core's page and on the central page (R593). -/
def countMgt (core x : Nat) (c : Chip) : Chip := count .mgtC 0 x (count .mgtCore core x c)

end Sys2Proof.Machine
end

