-- ==== Sys2Proof/Machine/Operands.lean ====
section
/-!
DEFINITION. How commands name things: access paths and the pages they reach, started and closed pages, field writes by
access type, port personalities and link states, lines and tiles.
-/
namespace Sys2Proof.Machine

/-! ### Ports (06_ports.md R198 to R204, R228; 05_links.md R196) -/

def portOn (c : Chip) (p : Nat) : Bool := isF c PRT_CFG_EN p
def pers (c : Chip) (p : Nat) : Nat := getF c PRT_CFG_PERS p

def poolFace (c : Chip) (p : Nat) : Bool := portOn c p && pers c p == 0
def bridgeFace (c : Chip) (p : Nat) : Bool := portOn c p && pers c p == 1
def deviceFace (c : Chip) (p : Nat) : Bool := portOn c p && pers c p == 2
def passFace (c : Chip) (p : Nat) : Bool := portOn c p && pers c p == 3
def trunk (c : Chip) (p : Nat) : Bool := portOn c p && pers c p == 4
def hostFacing (c : Chip) (p : Nat) : Bool := poolFace c p || bridgeFace c p
def deviceFacing (c : Chip) (p : Nat) : Bool := deviceFace c p || passFace c p

/-- Configured lanes of a port: p to p + w - 1 (R198). -/
def portWidth (c : Chip) (p : Nat) : Nat := getF c PRT_CFG_WIDTH p
def laneInPort (c : Chip) (p l : Nat) : Bool := p ≤ l && l < p + portWidth c p

/-- The enabled port that a lane belongs to: one of the aligned starts below the lane. -/
def portOfLane (c : Chip) (l : Nat) : Option Nat :=
  [l, l / 2 * 2, l / 4 * 4, l / 8 * 8, l / 16 * 16].find? fun p => portOn c p && laneInPort c p l

/-- LNK_STAT.STATE (05_links.md R196): 0 DOWN, 1 TRAINING, 2 L0, 3 L0P, 4 RECOVERY, 5 FAILED, 6 DISABLED. -/
def linkState (c : Chip) (p : Nat) : Nat := getF c LNK_STAT_STATE p
def inL0 (c : Chip) (p : Nat) : Bool := linkState c p == 2 || linkState c p == 3

/-- A port that requires Link IDE carries nothing but configuration and DOE traffic while IDE_ON is 0 (20_security.md
R578). -/
def ideHeld (c : Chip) (p : Nat) : Bool := hostFacing c p && isF c PRT_CFG_IDE_REQ p && !isF c PRT_STAT_IDE_ON p

/-! ### Management ports (19_bridge.md R543) -/
/-- A management port answers: the VAUX domain is out of reset, the lands are functional (02_package_pins.md R88), and EN
is 1. -/
def brgAnswers (c : Chip) (k : Nat) : Bool := c.pwr.vauxUp && !c.tap.controlling && isF c BRG_PORT_CFG_EN k

/-- Some management port answers, so BRG reaches the management network. -/
def brgReaches (c : Chip) : Bool := brgAnswers c 0 || brgAnswers c 1

/-! ### Access paths (22_register_map.md R596 to R600) -/

/-- GLB_AERR.PATH of a path (R605). -/
def pathCode : Path → Nat
  | .mgr _ => 0 | .core => 1 | .bridge => 2

/-- Stage of the staggered start at which a page starts; none for a page of the VAUX domain (03_power_start.md
R628). -/
def pageStage : PK → Nat → Option Nat
  | .tmb, _ => some 0
  | .glb, _ | .cnt, _ | .bnd, _ | .ten, _ | .shpT, _ | .shpP, _ => some 1
  | .xbrG, _ | .xbrC, _ => some 3
  | .map, _ => some 5
  | .rolC, _ | .rolS, _ => some 7
  | .mrk, _ | .rak, _ | .carD, _ | .carC, _ | .slt, _ => some 8
  | .phyG, n => some (9 + n / 16)
  | .phyT, n => some (9 + n / 2)
  | .lnk, n | .prt, n => some (9 + n / 256)
  | .pfxF, n => some (13 + n / 32)
  | .pfxC, _ => some 14
  | .pwr, _ | .flt, _ | .sec, _ | .mgtC, _ | .mgtCore, _ | .mgtCfg, _ | .brgC, _ | .brgPort, _ | .brgSbc, _
  | .brgSens, _ | .slp, _ => none

/-- Stage k has completed (R107). -/
def stageDone (c : Chip) (k : Nat) : Bool := c.pwr.done.getLsbD k

/-- PG_STAT.STARTED: the page's block has started (R603, R628). -/
def pageStarted (c : Chip) (k : PK) (n : Nat) : Bool :=
  match pageStage k n with
  | none => c.pwr.vauxUp
  | some g => stageDone c g

/-- The path exists: a manager function is presented by a pool face with MGR 1 whose link carries traffic (R596; 06_ports.md
R206). -/
def pathUp (c : Chip) (pa : Path) : Bool :=
  match pa with
  | .mgr p => poolFace c p && isF c PRT_CFG_MGR p && inL0 c p && !ideHeld c p
  | .core | .bridge => true

/-- SEC closes the page's block to the path (20_security.md R581). -/
def pathClosed (c : Chip) (pa : Path) (blk : Nat) : Bool :=
  match pa with
  | .mgr _ => bit (getF c SEC_CLOSE_MGR_BLOCKS 0) blk
  | .bridge => bit (getF c SEC_CLOSE_BRG_BLOCKS 0) blk
  | .core => false

/-- A refusal under R581: counted, SEC_CLOSED_HIT raised, the access answered as the path answers it. -/
def closedHit (pa : Path) (c : Chip) : Chip := send (.pathRefused pa) (raise .sec 0 4 (countQ .sec 0 8 1 c))

/-- A refusal under R597, R599 or R600 with its kind (0 NOT_STARTED, 1 SIZE, 2 UNDEFINED): once GLB has started, the
first is recorded and each raises GLB_ACCESS. -/
def noteRefusal (pa : Path) (kind addr : Nat) (c : Chip) : Chip :=
  if pageStarted c .glb 0 then
    let c1 := if isF c GLB_AERR_VALID 0 then c else
      setF GLB_AERR_VALID 0 1 (setF GLB_AERR_PATH 0 (pathCode pa) (setF GLB_AERR_KIND 0 kind
        (setF GLB_AERR_ADDR 0 addr c)))
    raise .glb 0 0 c1
  else c

/-- A refused access: recorded and answered as R596 states. -/
def refuseAccess (pa : Path) (kind addr : Nat) (c : Chip) : Chip := send (.pathRefused pa) (noteRefusal pa kind addr c)

/-- An access to a manager function that the port does not present ends there: unsupported where the link is up. -/
def pathAbsent (pa : Path) (c : Chip) : Chip :=
  match pa with
  | .mgr p => whenB (inL0 c p) (send (.pathRefused pa)) c
  | .core | .bridge => c

/-- A register access to page n of kind k at an offset, through a path: closed pages are refused by SEC, pages that
have not started as R600 states (a bridge request waits, so nothing happens yet), else the access has its effect. -/
def reachReg (pa : Path) (k : PK) (n off : Nat) (eff : Chip → Chip) (c : Chip) : Chip :=
  if !pathUp c pa then pathAbsent pa c
  else if pathClosed c pa (blockOf k) then closedHit pa c
  else if pageStarted c k n then eff c
  else if pa = .bridge then c
  else refuseAccess pa 0 (pageOf k n * 4096 + off) c

/-! ### Field writes by access type (00_scope.md R13) -/

/-- RWL fields of the page ignore writes (22_register_map.md R604). -/
def pageLocked (c : Chip) (k : PK) (n : Nat) : Bool := isF c (PG_LOCK k) n

/-- A value that a write may set in a field. -/
def fldTakes (X : Fld) (v : Nat) : Bool := X.rng.isEmpty || inRanges X.rng v

/-- The part of a register write that falls on field X of page n, word i, with the field's value v (R13): a value
outside the field's range is ignored. -/
def writeFld (X : Fld) (n i v : Nat) (c : Chip) : Chip :=
  match X.acc with
  | .ro | .wo => c
  | .rw | .rws => if fldTakes X v then setFi X n i v c else c
  | .rwl => if !pageLocked c X.pk n && fldTakes X v then setFi X n i v c else c
  | .rw1c => setFi X n i (andNot (getFi c X n i) v) c
  | .rw1s => setFi X n i (Nat.lor (getFi c X n i) v) c

/-! ### Enabled ports -/

/-- Page numbers on which field X is listed with a value other than its reset value. -/
def listedPages (c : Chip) (X : Fld) : List Nat :=
  (c.fld.filter fun e => e.1 % 131072 == X.off * 32 + X.lo && pageBase X.pk ≤ e.1 / 131072 &&
    e.1 / 131072 < pageBase X.pk + pageCount X.pk).map fun e => e.1 / 131072 - pageBase X.pk

/-- Port numbers of enabled ports. -/
def enabledPorts (c : Chip) : List Nat := (listedPages c PRT_CFG_EN).filter (portOn c)

/-! ### Lines and tiles (01_architecture.md R39) -/

/-- Lines per tile. -/
def linesPerTile : Nat := 32768
/-- Tile of a pool line index, and the line within the tile. -/
def tileOfLine (l : Nat) : Nat := l / 32768
def lineInTile (l : Nat) : Nat := l % 32768

end Sys2Proof.Machine
end

