-- ==== Sys2Proof/Machine/Bnd.lean ====
section
/-!
DEFINITION. Binding: the window table, commits with their refusal codes, dynamic-capacity extents, epochs
(08_binding.md; legality of 15_mode_matrix.md R475).
-/
namespace Sys2Proof.Machine

/-! ### Windows -/

/-- The window is live for lookups and checks (R264). -/
def winLive (x : Window) : Bool := x.valid && !x.ue

def isPool (x : Window) : Bool := winLive x && x.kind == 1
def isExport (x : Window) : Bool := winLive x && x.kind == 2
def isVppb (x : Window) : Bool := winLive x && x.kind == 3
def isRoute (x : Window) : Bool := winLive x && x.kind == 4
def isHostid (x : Window) : Bool := winLive x && x.kind == 5

/-- Fabric switch ID (R278). -/
def fsid (c : Chip) : Nat := getF c BND_FSID_FSID 0

def epochNow (c : Chip) : Nat := getF c BND_EPOCH_EPOCH 0

/-- Pool size in tiles (09_tile_map.md R289). -/
def poolTiles (c : Chip) : Nat := getF c MAP_CFG_POOL_U 0 * 65536

/-- The binding slice of a port's lane group (R264). -/
def bndSlice (p : Nat) : Nat := p / 64

/-- Tile of a device physical address. -/
def dpaTile (a : Nat) : Nat := a / 2097152

/-- The live POOL window that a CXL.mem request on a pool face matches (R266), whatever its extent state allows. -/
def poolMatch (c : Chip) (p dpa : Nat) : Option (Nat × Window) :=
  c.bnd.live.find? fun e => isPool e.2 && e.2.port == p && e.2.state == 1 && e.2.hbase ≤ dpaTile dpa &&
    dpaTile dpa < e.2.hbase + e.2.size

/-- Pool address of a matched request (R266). -/
def poolAddr (x : Window) (dpa : Nat) : Nat := x.pbase * 2097152 + (dpa - x.hbase * 2097152)

/-- The EXPORT window that a request over a trunk pair matches (R268). -/
def exportMatch (c : Chip) (primary xid addr : Nat) : Option (Nat × Window) :=
  c.bnd.live.find? fun e => isExport e.2 && e.2.port == primary && e.2.xid == xid && e.2.pbase ≤ dpaTile addr &&
    dpaTile addr < e.2.pbase + e.2.size

/-- The ROUTE window of a PBR ID, with its number (R279). -/
def routeMatch (c : Chip) (x : Nat) : Option (Nat × Window) := c.bnd.live.find? fun e => isRoute e.2 && e.2.xid == x
def routeOf (c : Chip) (x : Nat) : Option Window := (routeMatch c x).map (·.2)

/-- The HOSTID window of a pool face. -/
def hostWindow (c : Chip) (p : Nat) : Option Nat :=
  (c.bnd.live.find? fun e => isHostid e.2 && e.2.port == p).map (·.1)

/-- Host identity of a pool face, and the face of an identity (R275). -/
def hostOf (c : Chip) (p : Nat) : Option Nat :=
  (c.bnd.live.find? fun e => isHostid e.2 && e.2.port == p).map fun e => e.2.xid
def faceOf (c : Chip) (h : Nat) : Option Nat :=
  (c.bnd.live.find? fun e => isHostid e.2 && e.2.xid == h).map fun e => e.2.port

/-- The device of a pass-through face, known from its link's entry to L0 until the link goes down (R277). -/
def knownDev (c : Chip) (p : Nat) : Option DeviceInfo :=
  if 2 ≤ linkState c p ∧ linkState c p ≤ 4 then (prtSt c p).dev else none

/-- A VPPB window that binds: the present device of its face, where one is known, has its logical device (R277). -/
def vppbBinds (c : Chip) (x : Window) : Bool :=
  isVppb x && match knownDev c x.target with
    | some d => if d.mld then x.ld < d.ldCount.val else x.ld == 0
    | none => true

/-- The VPPB windows that bind a pass-through face, and the first of them by number. -/
def vppbsOf (c : Chip) (p : Nat) : List (Nat × Window) := c.bnd.live.filter fun e => vppbBinds c e.2 && e.2.target == p
def vppbOfTarget (c : Chip) (p : Nat) : Option Window := (vppbsOf c p).head?.map (·.2)

/-- The face, and the logical device of it, that vPPB n of a bridge face is bound to. -/
def boundTo (c : Chip) (p n : Nat) : Option (Nat × Nat) :=
  (c.bnd.live.find? fun e => vppbBinds c e.2 && e.2.port == p && e.2.vppb == n).map fun e => (e.2.target, e.2.ld)

/-- Live POOL windows without REMOTE, and EXPORT windows, whose pool range holds a tile (R286). -/
def windowsOverTile (c : Chip) (t : Nat) : List (Nat × Window) :=
  c.bnd.live.filter fun e => ((isPool e.2 && !e.2.remote) || isExport e.2) && e.2.pbase ≤ t && t < e.2.pbase + e.2.size

/-- A miss: recorded if no record is held, BND_MISS raised (R267, R269, R280). TYPE 0 POOL, 1 ROUTE, 2 EXPORT. -/
def noteMiss (typ port addr : Nat) (c : Chip) : Chip :=
  let c1 := if isF c BND_MISS_VALID 0 then c else
    setF BND_MISS_VALID 0 1 (setF BND_MISS_TYPE 0 typ (setF BND_MISS_PORT 0 port
      (setF64 BND_MISS_ADDR_LO_ADDR BND_MISS_ADDR_HI_ADDR 0 addr c)))
  raise .bnd 0 (if typ = 1 then 1 else 0) (countQ .bnd 0 3 typ c1)

/-- An uncorrectable window error: BND_UE, the record, the live window invalid until a commit writes it (R264). -/
def windowUe (w : Nat) (c : Chip) : Chip :=
  let c1 := if isF c BND_UE_WIN_VALID 0 then c else
    setF BND_UE_WIN_VALID 0 1 (setF BND_UE_WIN_WINDOW 0 w c)
  raise .bnd 0 4 (setLiveWin w { liveWin c w with ue := true } c1)

/-- What a lookup meets in its table's SECDED (R264): a corrected error is raised, an uncorrectable one makes the
window not valid. -/
def windowEcc (cor ue : Bool) (w : Option Nat) (c : Chip) : Chip :=
  let c1 := whenB cor (raise .bnd 0 3) c
  match w with
  | some i => whenB ue (windowUe i) c1
  | none => c1

/-! ### Epochs (R282 to R284) -/

/-- Epochs of the packets and slate lines in the part, the messages that wait for credits of a trunk among them (R284). -/
def liveEpochs (c : Chip) : List Nat :=
  c.txns.map (·.epoch) ++ c.slt.entries.map (·.epoch) ++ c.xbr.pkts.map (·.epoch)
    ++ c.lnk.out.foldl (fun l e => l ++ e.2.map (·.epoch)) []

/-- How far back an epoch lies, modulo 2^32 (R284). -/
def epochAge (c : Chip) (e : Nat) : Nat := (epochNow c + 2 ^ 32 - e % 2 ^ 32) % 2 ^ 32

/-- Earlier epochs that still have a packet, each once. -/
def earlierEpochs (c : Chip) : List Nat :=
  (liveEpochs c).foldl (fun l e => if epochAge c e = 0 || l.contains e then l else l ++ [e]) []

/-- A tracker is free for a new epoch: fewer than eight epochs are in use, the current one among them (R282). -/
def trackerFree (c : Chip) : Bool := (earlierEpochs c).length + 1 < 8

/-- BND_DRAIN.OLDEST (R284). -/
def oldestEpoch (c : Chip) : Nat :=
  (epochNow c + 2 ^ 32 - ((earlierEpochs c).foldl (fun m e => max m (epochAge c e)) 0)) % 2 ^ 32

/-- OLDEST has reached or passed a target, as serial numbers. -/
def epochReached (c : Chip) (tgt : Nat) : Bool := (oldestEpoch c + 2 ^ 32 - tgt % 2 ^ 32) % 2 ^ 32 < 2 ^ 31

/-- BND_DRAINED, once for each write of the target, when OLDEST reaches what that write asked for (R284). -/
def checkDrained (c : Chip) : Chip :=
  if c.bnd.drainOwed.any (epochReached c) then
    event .bnd 0 1 { c with bnd := { c.bnd with drainOwed := c.bnd.drainOwed.filter fun e => !epochReached c e } }
  else c

/-! ### Event logs (R271 to R273, R633, R634) -/

def dcLogOf (c : Chip) (p : Nat) : DcLog := kvGet DcLog.empty c.bnd.dcLog p
def setDcLog (p : Nat) (l : DcLog) (c : Chip) : Chip :=
  { c with bnd := { c.bnd with dcLog := kvSet DcLog.empty c.bnd.dcLog p l } }

/-- A record placed in a pool face's log, or held while the log is full (R634). -/
def placeRecord (p : Nat) (r : DcRec) (c : Chip) : Chip :=
  let l := dcLogOf c p
  if l.held.isEmpty && l.recs.length < Config.dcLogRoom then
    send (.hostEvent p r) (setDcLog p { l with recs := l.recs ++ [r] } c)
  else setDcLog p { l with held := l.held ++ [r] } c

/-- The record of a window: 0 Add Capacity, 1 Release Capacity, 2 Release Capacity forced. -/
def recordOf (w : Nat) (x : Window) (kind seq : Nat) : DcRec :=
  { win := w, kind := kind, dpa := x.hbase * 2097152, len := x.size * 2097152, tag := x.tag, seq := seq }

/-- A shared extent takes a sequence number (R271). -/
def placeWinRecord (w : Nat) (x : Window) (kind : Nat) (c : Chip) : Chip :=
  let c1 := if x.shared && kind == 0 then { c with bnd := { c.bnd with dcSeq := c.bnd.dcSeq + 1 } } else c
  placeRecord x.port (recordOf w x kind (if x.shared then c1.bnd.dcSeq else 0)) c1

/-! ### The checks of a commit (R285, 15_mode_matrix.md R475) -/

/-- Live windows after the commit. -/
def liveAfter (c : Chip) : List (Nat × Window) :=
  (c.bnd.live.filter fun e => !c.bnd.dirty.contains e.1) ++ (c.bnd.dirty.map fun w => (w, stagedWin c w))

/-- Half-open ranges overlap. -/
def overlap (a n b m : Nat) : Bool := a < b + m && b < a + n

/-- Pool space of a window's pool range: its own, or a home's (R286). -/
def poolSpace (x : Window) : Option Nat := if x.kind == 1 && x.remote then some x.xid else none

/-- p is the lowest lane of a port (R198): aligned to its width and inside no other enabled port. -/
def lowestLane (c : Chip) (p : Nat) : Bool :=
  let w := portWidth c p
  (w == 1 || w == 2 || w == 4 || w == 8 || w == 16) && p % w == 0 &&
    (match portOfLane c p with
     | some q => q == p
     | none => true)

def persIs (c : Chip) (p k : Nat) : Bool := lowestLane c p && pers c p == k
def trunkPrimary (c : Chip) (p : Nat) : Bool := persIs c p 4 && isF c LNK_TRUNK_PRIMARY p

def badPort (c : Chip) (x : Window) : Bool :=
  match x.kind with
  | 1 | 5 => !persIs c x.port 0
  | 2 => !trunkPrimary c x.port
  | 3 => !(persIs c x.port 1 && persIs c x.target 3)
  | 4 => !(persIs c x.target 0 || persIs c x.target 1 || persIs c x.target 3 || trunkPrimary c x.target)
  | _ => false

def outOfRange (c : Chip) (x : Window) : Bool :=
  let badSize := x.size == 0 || 536870912 < x.size
  let offPool := poolTiles c < x.pbase + x.size
  match x.kind with
  | 1 => badSize || x.hbase < x.dcr * 67108864 || (x.dcr + 1) * 67108864 < x.hbase + x.size || (!x.remote && offPool)
  | 2 => badSize || offPool
  | 3 => x.ld != 0 && (knownDev c x.target).any fun d => !d.mld
  | 4 => x.xid == 0
  | 5 => 255 < x.xid
  | _ => false

def hostOverlap (after : List (Nat × Window)) (w : Nat) (x : Window) : Bool :=
  isPool x && after.any fun e => e.1 != w && isPool e.2 && e.2.port == x.port && overlap x.hbase x.size e.2.hbase e.2.size

def poolOverlap (after : List (Nat × Window)) (w : Nat) (x : Window) : Bool :=
  after.any fun e => e.1 != w && poolSpace x == poolSpace e.2 && overlap x.pbase x.size e.2.pbase e.2.size &&
    ((isPool x && isPool e.2 && (!x.shared || !e.2.shared || x.port == e.2.port)) ||
     (isExport x && isExport e.2) || (isExport x && isPool e.2) || (isPool x && isExport e.2))

def sharedOver (after : List (Nat × Window)) (w : Nat) (x : Window) : List Window :=
  (after.filter fun e => e.1 != w && isPool e.2 && e.2.shared && poolSpace x == poolSpace e.2 &&
    overlap x.pbase x.size e.2.pbase e.2.size).map (·.2)

def attrConflict (after : List (Nat × Window)) (w : Nat) (x : Window) : Bool :=
  isPool x && x.shared && (sharedOver after w x).any fun y =>
    y.pbase != x.pbase || y.size != x.size || y.twin != x.twin || y.pans != x.pans || y.tag != x.tag

def tenState (c : Chip) (t : Nat) : Nat := getF c TEN_STAT_STATE t

def badTenancy (c : Chip) (x : Window) : Bool :=
  isPool x && (getF c TEN_CFG_PORT x.ten != x.port || tenState c x.ten == 0 || tenState c x.ten == 3)

def hostIdBroken (after : List (Nat × Window)) (w : Nat) (x : Window) : Bool :=
  (isHostid x && after.any fun e => e.1 != w && isHostid e.2 && (e.2.port == x.port || e.2.xid == x.xid)) ||
  (isPool x && x.shared && !after.any fun e => isHostid e.2 && e.2.port == x.port)

def hostBusy (after : List (Nat × Window)) (old x : Window) : Bool :=
  isHostid old && (!isHostid x || x.port != old.port || x.xid != old.xid) &&
    after.any fun e => isPool e.2 && e.2.shared && e.2.port == old.port

def vppbTaken (after : List (Nat × Window)) (w : Nat) (x : Window) : Bool :=
  isVppb x && after.any fun e => e.1 != w && isVppb e.2 &&
    ((e.2.port == x.port && e.2.vppb == x.vppb) || (e.2.target == x.target && e.2.ld == x.ld))

def routeTaken (c : Chip) (after : List (Nat × Window)) (w : Nat) (x : Window) : Bool :=
  isRoute x && (x.xid == fsid c || after.any fun e => e.1 != w && isRoute e.2 && e.2.xid == x.xid)

/-- The words whose change offers an extent afresh or is refused (R285 code 13, R633). -/
def extentChanged (old x : Window) : Bool :=
  old.kind != x.kind || old.port != x.port || old.dcr != x.dcr || old.hbase != x.hbase || old.size != x.size ||
    old.pbase != x.pbase || old.tag != x.tag

/-- A live POOL window in state OFFERED or ACCEPTED. -/
def extentLive (old : Window) : Bool := isPool old && old.state ≤ 1

def extState (old x : Window) : Bool :=
  (extentLive old && winLive x && extentChanged old x) ||
  (isPool x && x.rel && !(isPool old && old.state == 1))

/-- Number of the lowest illegal combination that the window meets, 0 for none (R475). A change of KIND on a live EXPORT
window meets 10 (R483). -/
def illegalMode (c : Chip) (after : List (Nat × Window)) (w : Nat) (old x : Window) : Nat :=
  if (isPool x && !x.remote && x.pans == 0) || (isExport x && x.pans == 0) then 1
  else if isPool x && x.remote && x.shared then 2
  else if isPool x && x.remote && (x.twin || x.pans != 0) then 3
  else if isPool x && x.remote && x.rtype == 3 then 4
  else if isPool x && x.rtype == 3 && !isF c PRT_CFG_IDE_REQ x.port then 5
  else if isPool x && x.shared && (sharedOver after w x).any (fun y => (y.rtype == 3) != (x.rtype == 3)) then 6
  else if extentLive old && isPool x && old.shared != x.shared then 7
  else if extentLive old && isPool x && (old.rtype == 3) != (x.rtype == 3) then 8
  else if extentLive old && isPool x && (old.remote != x.remote || (x.remote && old.xid != x.xid)) then 9
  else if isExport old && winLive x &&
      (!isExport x || old.port != x.port || old.xid != x.xid || old.pbase != x.pbase || old.size != x.size) then 10
  else 0

/-- The code of the first condition that a dirty window meets, in table order, with its detail; none if it passes. -/
def windowCode (c : Chip) (after : List (Nat × Window)) (w : Nat) : Option (Nat × Nat) :=
  let x := stagedWin c w
  let old := liveWin c w
  if winLive x && (x.kind == 6 || x.kind == 7) then some (2, 0)
  else if winLive x && badPort c x then some (3, 0)
  else if winLive x && outOfRange c x then some (4, 0)
  else if hostOverlap after w x then some (5, 0)
  else if poolOverlap after w x then some (6, 0)
  else if attrConflict after w x then some (7, 0)
  else if badTenancy c x then some (8, 0)
  else if hostIdBroken after w x then some (9, 0)
  else if hostBusy after old x then some (10, 0)
  else if vppbTaken after w x then some (11, 0)
  else if routeTaken c after w x then some (12, 0)
  else if extState old x then some (13, 0)
  else if illegalMode c after w old x != 0 then some (14, illegalMode c after w old x)
  else none

/-- Dirty windows in ascending order (R282). -/
def dirtyAscending (c : Chip) : List Nat := sortNat c.bnd.dirty

/-- First failure of a commit: window, code, detail. -/
def commitFailure (c : Chip) : Option (Nat × Nat × Nat) :=
  (dirtyAscending c).findSome? fun w => (windowCode c (liveAfter c) w).map fun r => (w, r.1, r.2)

/-! ### Applying a commit (R282 steps 3 to 5) -/

/-- A dirty window as it goes live: its extent state, its epoch, no error mark (R271, R633). -/
def goesLive (e : Nat) (old x : Window) : Window :=
  let st := if isPool x then
      (if isPool old then (if old.state ≤ 1 || !extentChanged old x then old.state else 0) else 0) else 0
  let changed := { x with state := old.state, lepoch := old.lepoch, ue := old.ue } != old || old.ue
  { x with state := st, ue := false, lepoch := if changed then e else old.lepoch }

/-- The event record that a window's change places (R271 to R273, R633). A window held invalid by an uncorrectable error
counts as not live before the commit: one that the commit removes places no record of a forced release, and one that it
keeps is offered afresh (DESIGN CHOICE, log entry 121: R273 does not say). -/
def changeRecord (w : Nat) (old x : Window) (c : Chip) : Chip :=
  if isPool x && (!isPool old || (1 < old.state && extentChanged old x)) then placeWinRecord w x 0 c
  else if isPool x && isPool old && old.state == 1 && x.rel then placeWinRecord w x 1 c
  else if isPool old && old.state == 1 && !winLive x then placeWinRecord w old 2 c
  else c

/-- A live window over tiles of this part's own pool. -/
def coversTiles (x : Window) : Bool := (isPool x && !x.remote) || isExport x

/-- Windows over tiles whose PANS or TWIN a commit changes owe moves to the prefects (10_placement.md R333,
15_mode_matrix.md R484). -/
def noteOwed (w : Nat) (old x : Window) (c : Chip) : Chip :=
  let m := c.mrk
  let m1 := if coversTiles x && old.pans != x.pans then { m with misplaced := addNew m.misplaced w } else m
  let m2 := if coversTiles x && old.twin != x.twin then { m1 with twinOwed := addNew m1.twinOwed w } else m1
  { c with mrk := m2 }

/-- One dirty window made live at epoch e. -/
def applyWindow (e w : Nat) (c : Chip) : Chip :=
  let old := liveWin c w
  let x := stagedWin c w
  noteOwed w old x (changeRecord w old x (setLiveWin w (goesLive e old x) c))

/-- Every dirty window live in one step, the epoch up by 1, the marks cleared, CODE OK (R282). -/
def commitOk (c : Chip) : Chip :=
  let e := (epochNow c + 1) % 2 ^ 32
  let c1 := forEach (dirtyAscending c) (applyWindow e) c
  let c2 := { c1 with bnd := { c1.bnd with staged := [], dirty := [] } }
  let c3 := setF BND_EPOCH_EPOCH 0 e c2
  let c4 := setF BND_STATUS_CODE 0 1 (setF BND_STATUS_DETAIL 0 0 (setF BND_STATUS_WINDOW 0 0 c3))
  checkDrained (event .bnd 0 0 (count .bnd 0 4 (setF BND_COMMIT_GO 0 0 c4)))

/-- The end of a refused commit (R282 step 5). -/
def commitRefuse (code detail w : Nat) (c : Chip) : Chip :=
  let c1 := setF BND_STATUS_CODE 0 code (setF BND_STATUS_DETAIL 0 detail (setF BND_STATUS_WINDOW 0 w c))
  event .bnd 0 0 (raise .bnd 0 2 (countQ .bnd 0 5 code (setF BND_COMMIT_GO 0 0 c1)))

/-! ### Staging (R281, R283; 20_security.md R580) -/

/-- Word i of a window (byte offset 4i) as a write sets it (R263). -/
def setWinWord (x : Window) (i v : Nat) : Window :=
  match i with
  | 0 => { x with valid := bit v 31, kind := bits v 28 3, rtype := bits v 26 2, shared := bit v 25, twin := bit v 24,
                  pans := bits v 20 4, rel := bit v 19, dcr := bits v 16 3, remote := bit v 13 }
  | 1 => { x with ten := bits v 16 12, port := bits v 0 10 }
  | 2 => { x with hbase := x.hbase / 2048 * 2048 + bits v 21 11 }
  | 3 => { x with hbase := bits v 0 18 * 2048 + x.hbase % 2048 }
  | 4 => { x with pbase := x.pbase / 2048 * 2048 + bits v 21 11 }
  | 5 => { x with pbase := bits v 0 18 * 2048 + x.pbase % 2048 }
  | 6 => { x with size := bits v 0 30 }
  | 7 => { x with vppb := bits v 27 5, ld := bits v 23 4, xid := bits v 11 12, target := bits v 0 10 }
  | 8 => { x with tag := x.tag / 2 ^ 32 * 2 ^ 32 + bits v 0 32 }
  | 9 => { x with tag := x.tag / 2 ^ 64 * 2 ^ 64 + bits v 0 32 * 2 ^ 32 + x.tag % 2 ^ 32 }
  | 10 => { x with tag := x.tag / 2 ^ 96 * 2 ^ 96 + bits v 0 32 * 2 ^ 64 + x.tag % 2 ^ 64 }
  | 11 => { x with tag := bits v 0 32 * 2 ^ 96 + x.tag % 2 ^ 96 }
  | _ => x

/-- Word i of a window as a read returns it: RW fields from `x`, STATE and LEPOCH from the live copy (R263). -/
def winWord (x live : Window) (i : Nat) : Nat :=
  match i with
  | 0 => b2n x.valid * 2 ^ 31 + x.kind * 2 ^ 28 + x.rtype * 2 ^ 26 + b2n x.shared * 2 ^ 25 + b2n x.twin * 2 ^ 24 +
         x.pans * 2 ^ 20 + b2n x.rel * 2 ^ 19 + x.dcr * 2 ^ 16 + live.state * 2 ^ 14 + b2n x.remote * 2 ^ 13
  | 1 => x.ten * 2 ^ 16 + x.port
  | 2 => x.hbase % 2048 * 2 ^ 21
  | 3 => x.hbase / 2048
  | 4 => x.pbase % 2048 * 2 ^ 21
  | 5 => x.pbase / 2048
  | 6 => x.size
  | 7 => x.vppb * 2 ^ 27 + x.ld * 2 ^ 23 + x.xid * 2 ^ 11 + x.target
  | 8 => x.tag % 2 ^ 32
  | 9 => x.tag / 2 ^ 32 % 2 ^ 32
  | 10 => x.tag / 2 ^ 64 % 2 ^ 32
  | 11 => x.tag / 2 ^ 96 % 2 ^ 32
  | 12 => live.lepoch
  | _ => 0

/-- Set a word in the staged copy and mark the window dirty, or refuse the 1,025th (R281). -/
def stageWord (w i v : Nat) (c : Chip) : Chip :=
  if c.bnd.dirty.contains w || c.bnd.dirty.length < 1024 then
    let x := { setWinWord (stagedWin c w) i v with ue := false }
    { c with bnd := { c.bnd with staged := kvPut c.bnd.staged w x, dirty := addNew c.bnd.dirty w } }
  else countQ .bnd 0 5 15 (setF BND_STATUS_CODE 0 15 c)

/-- The path may bind sealed windows (20_security.md R580). -/
def sealPermits (c : Chip) (pa : Path) : Bool :=
  match pa with
  | .core => true
  | .mgr _ => isF c SEC_SEAL_MGR 0
  | .bridge => isF c SEC_SEAL_BRG 0

/-- The write would stage a sealed window, or touches one (20_security.md R580). -/
def touchesSealed (c : Chip) (w i v : Nat) : Bool :=
  (i == 0 && bits v 26 2 == 3) || (stagedWin c w).rtype == 3 || (liveWin c w).rtype == 3

/-- A write to a window word outside a running commit. -/
def windowStage (pa : Path) (w i v : Nat) (c : Chip) : Chip :=
  if touchesSealed c w i v && !sealPermits c pa then raise .sec 0 3 (countQ .sec 0 8 0 c)
  else stageWord w i v c

/-- A commit starts: it waits for a tracker if all are in use (R282 step 1). -/
def commitStart (c : Chip) : Chip :=
  whenB (!trackerFree c) (count .bnd 0 6) (setF BND_COMMIT_GO 0 1 c)

/-- The staged copy equals the live copy again (R281). -/
def discardStaged (c : Chip) : Chip := { c with bnd := { c.bnd with staged := [], dirty := [] } }

/-- A write held while GO is 1 (R283). -/
def holdWrite (h : HeldWrite) (c : Chip) : Chip := { c with bnd := { c.bnd with held := c.bnd.held ++ [h] } }

/-- A write to the window table or to BND_COMMIT: held while GO reads 1, else applied (R283). -/
def bndWrite (h : HeldWrite) (c : Chip) : Chip :=
  if isF c BND_COMMIT_GO 0 then holdWrite h c
  else match h with
    | .window pa w i v => windowStage pa w i v c
    | .discard => discardStaged c
    | .go => commitStart c

/-- The writes held during a commit, applied in order when it has ended; a held GO holds those after it again. -/
def releaseHeld (c : Chip) : Chip :=
  forEach c.bnd.held bndWrite { c with bnd := { c.bnd with held := [] } }

/-- Step 2 to 5 of a running commit whose tracker is free (R282). -/
def commitRun (c : Chip) : Chip :=
  match commitFailure c with
  | some (w, code, detail) => releaseHeld (commitRefuse code detail w c)
  | none => releaseHeld (commitOk c)

/-! ### Host Dynamic Capacity commands (R271 to R274) -/

/-- The Add Capacity record of a window still waits for room in its face's log. -/
def addHeld (c : Chip) (p w : Nat) : Bool := (dcLogOf c p).held.any fun r => r.win == w && r.kind == 0

/-- An extent takes a new state at epoch e. -/
def setExtent (e st w : Nat) (c : Chip) : Chip :=
  setLiveWin w { liveWin c w with state := st, lepoch := e } c

/-- The answer to one offered extent: accepted whole, or rejected (R271). -/
def answerExtent (e : Nat) (accepted : List Nat) (w : Nat) (c : Chip) : Chip :=
  if accepted.contains w then event .bnd 0 2 (setExtent e 1 w c) else event .bnd 0 3 (setExtent e 2 w c)

/-- A change applied exactly as a commit, one epoch on, and the host's command completes (R274). -/
def asCommit (p : Nat) (f : Nat → Chip → Chip) (c : Chip) : Chip :=
  let e := (epochNow c + 1) % 2 ^ 32
  send (.cmdStatus p false) (checkDrained (setF BND_EPOCH_EPOCH 0 e (f e c)))

/-- Offered extents of a pool face whose record the host can have seen. -/
def offered (c : Chip) (p : Nat) : List Nat :=
  (c.bnd.live.filter fun e => isPool e.2 && e.2.port == p && e.2.state == 0 && !addHeld c p e.1).map (·.1)

/-- Accepted extents of a pool face. -/
def acceptedExtents (c : Chip) (p : Nat) : List Nat :=
  (c.bnd.live.filter fun e => isPool e.2 && e.2.port == p && e.2.state == 1).map (·.1)

/-- Only a pool face in L0 or L0P receives its host's commands (15_mode_matrix.md R481). -/
def hostReaches (c : Chip) (p : Nat) : Bool := poolFace c p && inL0 c p

def dcPort : DcCmd → Nat
  | .add p _ => p
  | .release p _ => p

/-- A host's Dynamic Capacity command is applied: offered extents are answered, or an accepted one is released. A release
that waited for a tracker while its extent was removed ends without an answer (DESIGN CHOICE, log entry 122: R274 does
not say). -/
def dcApply (x : DcCmd) (c : Chip) : Chip :=
  match x with
  | .add p accepted => asCommit p (fun e c => forEach (offered c p) (answerExtent e accepted) c) c
  | .release p w =>
    if (acceptedExtents c p).contains w then asCommit p (fun e c => event .bnd 0 4 (setExtent e 3 w c)) c else c

/-- A host's Dynamic Capacity command: it waits while no epoch tracker is free (R274), one for each face. -/
def dcCommand (x : DcCmd) (c : Chip) : Chip :=
  if !hostReaches c (dcPort x) || c.bnd.dcWait.any (fun y => dcPort y == dcPort x) then c
  else if trackerFree c then dcApply x c
  else count .bnd 0 6 { c with bnd := { c.bnd with dcWait := c.bnd.dcWait ++ [x] } }

/-- The oldest command that waits ends: applied where a tracker has freed, else Busy, with nothing changed. -/
def dcNext (f : DcCmd → Chip → Chip) (c : Chip) : Chip :=
  match c.bnd.dcWait with
  | [] => c
  | x :: r => f x { c with bnd := { c.bnd with dcWait := r } }

def dcBusy (x : DcCmd) (c : Chip) : Chip := send (.cmdStatus (dcPort x) true) c

/-- The commands of a host whose link has gone down end unanswered. -/
def dcDrop (p : Nat) (c : Chip) : Chip :=
  { c with bnd := { c.bnd with dcWait := c.bnd.dcWait.filter fun x => dcPort x != p } }

def effDcAdd (p : Nat) (accepted : List Nat) (c : Chip) : Chip := dcCommand (.add p accepted) c

def effDcRelease (p w : Nat) (c : Chip) : Chip :=
  if (acceptedExtents c p).contains w then dcCommand (.release p w) c else c

/-- A held record is placed once the log has room (R634). -/
def placeHeld (p : Nat) (c : Chip) : Chip :=
  let l := dcLogOf c p
  match l.held with
  | r :: rest =>
    if l.recs.length < Config.dcLogRoom then
      send (.hostEvent p r) (setDcLog p { recs := l.recs ++ [r], held := rest } c)
    else c
  | [] => c

/-! ### The commands -/

/-- A window-table write through a path (R261, R281, 22_register_map.md R600). -/
def effWindowWrite (pa : Path) (w i v : Nat) (c : Chip) : Chip :=
  if !pathUp c pa then pathAbsent pa c
  else if pathClosed c pa 18 then closedHit pa c
  else if pageStarted c .bnd 0 then bndWrite (.window pa w i v) c
  else if pa = .bridge then c
  else refuseAccess pa 0 (0x01C00000 + w * 64 + i * 4) c

def execWindowWrite (pa : Path) (w : Win) (word : Fin 16) (v : Word) (s : State) : Out3 :=
  .next (onChip s (effWindowWrite pa w word v.toNat))

def execBndDiscard (pa : Path) (s : State) : Out3 :=
  .next (onChip s (reachReg pa .bnd 0 0x048 (bndWrite .discard)))

def execBndCommit (pa : Path) (s : State) : Out3 :=
  .next (onChip s (reachReg pa .bnd 0 0x048 (bndWrite .go)))

/-- COMMIT_WAIT has passed with every tracker in use, for the commit (R282) or the oldest host command that waits (R274;
the limit needs TMB to advance, 22_register_map.md R609). -/
def effCommitTimeout (dc : Bool) (c : Chip) : Chip :=
  if trackerFree c || !tmbRuns c then c
  else if dc then dcNext dcBusy c
  else if isF c BND_COMMIT_GO 0 then releaseHeld (commitRefuse 16 0 0 c)
  else c

def execCommitWaitTimeout (dc : Bool) (s : State) : Out3 := .next (onChip s (effCommitTimeout dc))

/-- A tracker is free: the commit runs, or the oldest host command that waits is applied. -/
def effCommitApply (dc : Bool) (c : Chip) : Chip :=
  if !trackerFree c then c
  else if dc then dcNext dcApply c
  else if isF c BND_COMMIT_GO 0 then commitRun c
  else c

def execDcAddResponse (p : Port) (accepted : List Win) (s : State) : Out3 :=
  .next (onChip s (effDcAdd p (accepted.map (·.val))))

def execDcRelease (p : Port) (w : Win) (s : State) : Out3 := .next (onChip s (effDcRelease p w))

def effDcGet (p : Nat) (c : Chip) : Chip := if hostReaches c p then send (.extents p (acceptedExtents c p)) c else c

def execDcGetExtentList (p : Port) (s : State) : Out3 := .next (onChip s (effDcGet p))

def execDcEventRecordPlace (p : Port) (s : State) : Out3 := .next (onChip s (placeHeld p))

/-- The host clears its oldest n records (R634). -/
def effClearRecords (p n : Nat) (c : Chip) : Chip :=
  if hostReaches c p then setDcLog p { dcLogOf c p with recs := (dcLogOf c p).recs.drop n } c else c

def execClearEventRecords (p : Port) (n : Nat) (s : State) : Out3 := .next (onChip s (effClearRecords p n))

/-- A write of the target: BND_DRAINED at once if OLDEST has reached it, else it is owed (R284). -/
def effDrainTgt (v : Nat) (c : Chip) : Chip :=
  let c1 := setF BND_DRAIN_TGT_TGT 0 v c
  checkDrained { c1 with bnd := { c1.bnd with drainOwed := c1.bnd.drainOwed ++ [v] } }

def execBndDrainTgtWrite (pa : Path) (v : Word) (s : State) : Out3 :=
  .next (onChip s (reachReg pa .bnd 0 0x058 (effDrainTgt v.toNat)))

def execBndDrained (s : State) : Out3 := .next (onChip s checkDrained)

/-- HDM decoders 0 to 3 of a pool face as its host programs them (06_ports.md R205, R265). -/
def effHdm (p i : Nat) (d : HdmDec) (c : Chip) : Chip :=
  if hostReaches c p && i < 4 then { c with bnd := { c.bnd with hdm := kvPut c.bnd.hdm (p * 4 + i) d } } else c

def execHdmDecoderProgram (p : Port) (i hostBase size dpaBase : Nat) (commit : Bool) (s : State) : Out3 :=
  .next (onChip s (effHdm p i { hostBase := hostBase, size := size, dpaBase := dpaBase, committed := commit }))

end Sys2Proof.Machine
end

