-- ==== Sys2Proof/Machine/Crypto.lean ====
section
/-!
DEFINITION. The two functions that 20_security.md R567 and R568 name: SHA-384 (FIPS 180-4) and the verification of an ECDSA
signature over curve P-384 (FIPS 186-5), over byte strings. Their definitions are PRESUMED from those standards (log
entry 60).
-/
namespace Sys2Proof.Machine

/-! ### SHA-384 -/

/-- A byte string as a number, first byte highest. -/
def beNat (l : List Nat) : Nat := l.foldl (fun v b => 256 * v + b) 0

/-- A number as n bytes, highest first. -/
def beBytes (n v : Nat) : List Nat := (List.range n).map fun i => v / 256 ^ (n - 1 - i) % 256

/-- A list in pieces of n, at most k of them. -/
def pieces (n : Nat) : Nat → List Nat → List (List Nat)
  | 0, _ => []
  | k + 1, l => if l.isEmpty then [] else l.take n :: pieces n k (l.drop n)

/-- Round constants: fractions of the cube roots of the first 80 primes. -/
def shaK : List Nat :=
  [0x428A2F98D728AE22, 0x7137449123EF65CD, 0xB5C0FBCFEC4D3B2F, 0xE9B5DBA58189DBBC] ++
   [0x3956C25BF348B538, 0x59F111F1B605D019, 0x923F82A4AF194F9B, 0xAB1C5ED5DA6D8118] ++
   [0xD807AA98A3030242, 0x12835B0145706FBE, 0x243185BE4EE4B28C, 0x550C7DC3D5FFB4E2] ++
   [0x72BE5D74F27B896F, 0x80DEB1FE3B1696B1, 0x9BDC06A725C71235, 0xC19BF174CF692694] ++
   [0xE49B69C19EF14AD2, 0xEFBE4786384F25E3, 0x0FC19DC68B8CD5B5, 0x240CA1CC77AC9C65] ++
   [0x2DE92C6F592B0275, 0x4A7484AA6EA6E483, 0x5CB0A9DCBD41FBD4, 0x76F988DA831153B5] ++
   [0x983E5152EE66DFAB, 0xA831C66D2DB43210, 0xB00327C898FB213F, 0xBF597FC7BEEF0EE4] ++
   [0xC6E00BF33DA88FC2, 0xD5A79147930AA725, 0x06CA6351E003826F, 0x142929670A0E6E70] ++
   [0x27B70A8546D22FFC, 0x2E1B21385C26C926, 0x4D2C6DFC5AC42AED, 0x53380D139D95B3DF] ++
   [0x650A73548BAF63DE, 0x766A0ABB3C77B2A8, 0x81C2C92E47EDAEE6, 0x92722C851482353B] ++
   [0xA2BFE8A14CF10364, 0xA81A664BBC423001, 0xC24B8B70D0F89791, 0xC76C51A30654BE30] ++
   [0xD192E819D6EF5218, 0xD69906245565A910, 0xF40E35855771202A, 0x106AA07032BBD1B8] ++
   [0x19A4C116B8D2D0C8, 0x1E376C085141AB53, 0x2748774CDF8EEB99, 0x34B0BCB5E19B48A8] ++
   [0x391C0CB3C5C95A63, 0x4ED8AA4AE3418ACB, 0x5B9CCA4F7763E373, 0x682E6FF3D6B2B8A3] ++
   [0x748F82EE5DEFB2FC, 0x78A5636F43172F60, 0x84C87814A1F0AB72, 0x8CC702081A6439EC] ++
   [0x90BEFFFA23631E28, 0xA4506CEBDE82BDE9, 0xBEF9A3F7B2C67915, 0xC67178F2E372532B] ++
   [0xCA273ECEEA26619C, 0xD186B8C721C0C207, 0xEADA7DD6CDE0EB1E, 0xF57D4F7FEE6ED178] ++
   [0x06F067AA72176FBA, 0x0A637DC5A2C898A6, 0x113F9804BEF90DAE, 0x1B710B35131C471B] ++
   [0x28DB77F523047D84, 0x32CAAB7B40C72493, 0x3C9EBE0A15C9BEBC, 0x431D67C49C100D4C] ++
   [0x4CC5D4BECB3E42B6, 0x597F299CFC657E2A, 0x5FCB6FAB3AD6FAEC, 0x6C44198C4A475817]

/-- Initial value: fractions of the square roots of the ninth to the sixteenth prime. -/
def sha384Init : List Nat :=
  [0xCBBB9D5DC1059ED8, 0x629A292A367CD507, 0x9159015A3070DD17, 0x152FECD8F70E5939,
   0x67332667FFC00B31, 0x8EB44A8768581511, 0xDB0C2E0D64F98FA7, 0x47B5481DBEFA4FA4]

def rotr64 (x : BitVec 64) (n : Nat) : BitVec 64 := x.rotateRight n

/-- One word of the message schedule, from the sixteen before it, newest first. -/
def shaWord (w : List (BitVec 64)) : BitVec 64 :=
  let at' := fun i => (w[i]?).getD 0
  let s0 := rotr64 (at' 14) 1 ^^^ rotr64 (at' 14) 8 ^^^ (at' 14 >>> 7)
  let s1 := rotr64 (at' 1) 19 ^^^ rotr64 (at' 1) 61 ^^^ (at' 1 >>> 6)
  s1 + at' 6 + s0 + at' 15

/-- The message schedule, newest first, after k more words. -/
def shaSchedule : Nat → List (BitVec 64) → List (BitVec 64)
  | 0, w => w
  | k + 1, w => shaSchedule k (shaWord w :: w)

/-- The eight working variables a to h. -/
structure ShaVars where
  a : BitVec 64
  b : BitVec 64
  c : BitVec 64
  d : BitVec 64
  e : BitVec 64
  f : BitVec 64
  g : BitVec 64
  h : BitVec 64
deriving DecidableEq, Repr

def shaRound (v : ShaVars) (x : BitVec 64 × Nat) : ShaVars :=
  let s1 := rotr64 v.e 14 ^^^ rotr64 v.e 18 ^^^ rotr64 v.e 41
  let t1 := v.h + s1 + ((v.e &&& v.f) ^^^ (~~~v.e &&& v.g)) + BitVec.ofNat 64 x.2 + x.1
  let s0 := rotr64 v.a 28 ^^^ rotr64 v.a 34 ^^^ rotr64 v.a 39
  let t2 := s0 + ((v.a &&& v.b) ^^^ (v.a &&& v.c) ^^^ (v.b &&& v.c))
  { a := t1 + t2, b := v.a, c := v.b, d := v.c, e := v.d + t1, f := v.e, g := v.f, h := v.g }

def shaAdd (u v : ShaVars) : ShaVars :=
  { a := u.a + v.a, b := u.b + v.b, c := u.c + v.c, d := u.d + v.d, e := u.e + v.e, f := u.f + v.f, g := u.g + v.g
    h := u.h + v.h }

/-- One block of 128 bytes. -/
def shaBlock (v : ShaVars) (blk : List Nat) : ShaVars :=
  let w := ((pieces 8 16 blk).map fun b => BitVec.ofNat 64 (beNat b)).reverse
  shaAdd v (((shaSchedule 64 w).reverse.zip shaK).foldl shaRound v)

/-- The message with its padding and its length in bits. -/
def shaPad (m : List Nat) : List Nat :=
  m ++ 0x80 :: (List.replicate ((239 - m.length % 128) % 128) 0 ++ beBytes 16 (8 * m.length))

def shaStart : ShaVars :=
  let at' := fun i => BitVec.ofNat 64 ((sha384Init[i]?).getD 0)
  { a := at' 0, b := at' 1, c := at' 2, d := at' 3, e := at' 4, f := at' 5, g := at' 6, h := at' 7 }

/-- SHA-384 of a byte string, as a number of 384 bits. -/
def sha384 (m : List Nat) : Nat :=
  let p := shaPad m
  let v := (pieces 128 (p.length / 128) p).foldl shaBlock shaStart
  [v.a, v.b, v.c, v.d, v.e, v.f].foldl (fun x y => 2 ^ 64 * x + y.toNat) 0

/-! ### ECDSA over P-384 -/

def curveP : Nat := 2 ^ 384 - 2 ^ 128 - 2 ^ 96 + 2 ^ 32 - 1
def curveB : Nat :=
  0xb3312fa7e23ee7e4988e056be3f82d19181d9c6efe8141120314088f5013875ac656398d8a2ed19d2a85c8edd3ec2aef
/-- Order of the base point. -/
def curveN : Nat :=
  0xffffffffffffffffffffffffffffffffffffffffffffffffc7634d81f4372ddf581a0db248b0a77aecec196accc52973

/-- A point of the curve; none is the point at infinity. -/
abbrev CurvePt := Option (Nat × Nat)

def curveG : CurvePt :=
  some (0xaa87ca22be8b05378eb1c71ef320ad746e1d3b628ba79b9859f741e082542a385502f25dbf55296c3a545e3872760ab7,
        0x3617de4a96262c6f5d9e98bf9292dc29f8f41dbd289a147ce9da3113b5f0b8c00a60b1ce1d7e819d7a431d7c90ea0e5f)

/-- b to the power e modulo m, over n bits of e. -/
def powMod (m b : Nat) : Nat → Nat → Nat
  | 0, _ => 1 % m
  | n + 1, e =>
    let t := powMod m b n (e / 2)
    if e % 2 = 1 then t * t % m * b % m else t * t % m

/-- The inverse modulo a prime of 384 bits. -/
def invMod (m x : Nat) : Nat := powMod m x 384 (m - 2)

/-- a - b modulo the field's prime. -/
def subP (a b : Nat) : Nat := (a + (curveP - b % curveP)) % curveP

/-- The line of slope l through (x, y) meets the curve again; x2 is the second point's abscissa. -/
def chord (l x y x2 : Nat) : CurvePt :=
  let x3 := subP (subP (l * l) x) x2
  some (x3, subP (l * subP x x3) y)

def addPt (s t : CurvePt) : CurvePt :=
  match s, t with
  | none, t => t
  | s, none => s
  | some (x, y), some (u, v) =>
    if x = u then
      if (y + v) % curveP = 0 then none
      else chord (subP (3 * x * x) 3 * invMod curveP (2 * y) % curveP) x y u
    else chord (subP v y * invMod curveP (subP u x) % curveP) x y u

/-- k times a point, over n bits of k. -/
def mulPt (t : CurvePt) : Nat → Nat → CurvePt
  | 0, _ => none
  | n + 1, k =>
    let h := mulPt t n (k / 2)
    let d := addPt h h
    if k % 2 = 1 then addPt d t else d

/-- (x, y) lies on the curve. -/
def onCurve (x y : Nat) : Bool :=
  x < curveP && y < curveP && y * y % curveP == (subP (x * x * x) (3 * x) + curveB) % curveP

/-- The signature (r, s) over a digest verifies under the public key (x, y). -/
def ecdsaOk (x y digest r s : Nat) : Bool :=
  if !onCurve x y || r = 0 || s = 0 || curveN ≤ r || curveN ≤ s then false
  else
    let w := invMod curveN s
    match addPt (mulPt curveG 384 (digest * w % curveN)) (mulPt (some (x, y)) 384 (r * w % curveN)) with
    | none => false
    | some (u, _) => u % curveN == r

end Sys2Proof.Machine
end

