-- ==== Sys2Proof/Machine/Aes.lean ====
section
/-!
DEFINITION. HMAC-SHA-384 (FIPS 198-1), AES-256 (FIPS 197) and AES-XTS-256 (IEEE 1619), and what 20_security.md R565 and R579
make with them: the Alias and sealing keys, and the sealed form of a line. The standards' definitions are PRESUMED from
them (log entries 60 and 61).
-/
namespace Sys2Proof.Machine

/-! ### HMAC-SHA-384 -/

/-- A key padded to the block of 128 bytes; a longer one is hashed first. -/
def hmacKey (k : List Nat) : List Nat :=
  let k1 := if 128 < k.length then beBytes 48 (sha384 k) else k
  k1 ++ List.replicate (128 - k1.length) 0

def hmac384 (k m : List Nat) : Nat :=
  sha384 ((hmacKey k).map (Nat.xor 0x5C) ++ beBytes 48 (sha384 ((hmacKey k).map (Nat.xor 0x36) ++ m)))

/-! ### AES-256 -/

/-- The substitution box. -/
def aesSbox : List Nat :=
  [0x63, 0x7c, 0x77, 0x7b, 0xf2, 0x6b, 0x6f, 0xc5, 0x30, 0x01, 0x67, 0x2b, 0xfe, 0xd7, 0xab, 0x76] ++
   [0xca, 0x82, 0xc9, 0x7d, 0xfa, 0x59, 0x47, 0xf0, 0xad, 0xd4, 0xa2, 0xaf, 0x9c, 0xa4, 0x72, 0xc0] ++
   [0xb7, 0xfd, 0x93, 0x26, 0x36, 0x3f, 0xf7, 0xcc, 0x34, 0xa5, 0xe5, 0xf1, 0x71, 0xd8, 0x31, 0x15] ++
   [0x04, 0xc7, 0x23, 0xc3, 0x18, 0x96, 0x05, 0x9a, 0x07, 0x12, 0x80, 0xe2, 0xeb, 0x27, 0xb2, 0x75] ++
   [0x09, 0x83, 0x2c, 0x1a, 0x1b, 0x6e, 0x5a, 0xa0, 0x52, 0x3b, 0xd6, 0xb3, 0x29, 0xe3, 0x2f, 0x84] ++
   [0x53, 0xd1, 0x00, 0xed, 0x20, 0xfc, 0xb1, 0x5b, 0x6a, 0xcb, 0xbe, 0x39, 0x4a, 0x4c, 0x58, 0xcf] ++
   [0xd0, 0xef, 0xaa, 0xfb, 0x43, 0x4d, 0x33, 0x85, 0x45, 0xf9, 0x02, 0x7f, 0x50, 0x3c, 0x9f, 0xa8] ++
   [0x51, 0xa3, 0x40, 0x8f, 0x92, 0x9d, 0x38, 0xf5, 0xbc, 0xb6, 0xda, 0x21, 0x10, 0xff, 0xf3, 0xd2] ++
   [0xcd, 0x0c, 0x13, 0xec, 0x5f, 0x97, 0x44, 0x17, 0xc4, 0xa7, 0x7e, 0x3d, 0x64, 0x5d, 0x19, 0x73] ++
   [0x60, 0x81, 0x4f, 0xdc, 0x22, 0x2a, 0x90, 0x88, 0x46, 0xee, 0xb8, 0x14, 0xde, 0x5e, 0x0b, 0xdb] ++
   [0xe0, 0x32, 0x3a, 0x0a, 0x49, 0x06, 0x24, 0x5c, 0xc2, 0xd3, 0xac, 0x62, 0x91, 0x95, 0xe4, 0x79] ++
   [0xe7, 0xc8, 0x37, 0x6d, 0x8d, 0xd5, 0x4e, 0xa9, 0x6c, 0x56, 0xf4, 0xea, 0x65, 0x7a, 0xae, 0x08] ++
   [0xba, 0x78, 0x25, 0x2e, 0x1c, 0xa6, 0xb4, 0xc6, 0xe8, 0xdd, 0x74, 0x1f, 0x4b, 0xbd, 0x8b, 0x8a] ++
   [0x70, 0x3e, 0xb5, 0x66, 0x48, 0x03, 0xf6, 0x0e, 0x61, 0x35, 0x57, 0xb9, 0x86, 0xc1, 0x1d, 0x9e] ++
   [0xe1, 0xf8, 0x98, 0x11, 0x69, 0xd9, 0x8e, 0x94, 0x9b, 0x1e, 0x87, 0xe9, 0xce, 0x55, 0x28, 0xdf] ++
   [0x8c, 0xa1, 0x89, 0x0d, 0xbf, 0xe6, 0x42, 0x68, 0x41, 0x99, 0x2d, 0x0f, 0xb0, 0x54, 0xbb, 0x16]

def subByte (b : Nat) : Nat := (aesSbox[b]?).getD 0

/-- The byte that the box maps to b. -/
def unsubByte (b : Nat) : Nat := aesSbox.findIdx (· == b)

/-- A byte times x in the field of 2^8 elements. -/
def timesX (b : Nat) : Nat := Nat.xor (2 * b % 256) (if 128 ≤ b then 0x1B else 0)

/-- The product of two bytes in that field, over n bits of the second. -/
def fieldMul (a : Nat) : Nat → Nat → Nat
  | 0, _ => 0
  | n + 1, b => Nat.xor (if b % 2 = 1 then a else 0) (fieldMul (timesX a) n (b / 2))

def xorBytes (a b : List Nat) : List Nat := List.zipWith Nat.xor a b

/-- Word i of the key schedule, from the eight words before it, newest first. -/
def keyWord (i : Nat) (w : List (List Nat)) : List Nat :=
  let prev := (w[0]?).getD []
  let rcon := (List.range (i / 8 - 1)).foldl (fun b _ => timesX b) 1
  let t := if i % 8 = 0 then xorBytes ((prev.drop 1 ++ prev.take 1).map subByte) [rcon, 0, 0, 0]
           else if i % 8 = 4 then prev.map subByte else prev
  xorBytes ((w[7]?).getD []) t

/-- The key schedule, newest first, after k more words from word i on. -/
def keyWords : Nat → Nat → List (List Nat) → List (List Nat)
  | 0, _, w => w
  | k + 1, i, w => keyWords k (i + 1) (keyWord i w :: w)

/-- The fifteen round keys of 16 bytes of a key of 32. -/
def roundKeys (key : List Nat) : List (List Nat) :=
  pieces 16 15 ((keyWords 52 8 (pieces 4 8 key).reverse).reverse.flatten)

/-- The rows shifted left, and back: byte i of a block stands in row i mod 4. -/
def shiftRows (s : List Nat) : List Nat := (List.range 16).map fun i => (s[(i + 4 * (i % 4)) % 16]?).getD 0
def unshiftRows (s : List Nat) : List Nat := (List.range 16).map fun i => (s[(i + 12 * (i % 4)) % 16]?).getD 0

/-- A column times the circulant of four bytes. -/
def mixColumn (m : List Nat) (col : List Nat) : List Nat :=
  (List.range 4).map fun r => (List.range 4).foldl
    (fun x j => Nat.xor x (fieldMul ((col[j]?).getD 0) 8 ((m[(j + 4 - r) % 4]?).getD 0))) 0

def mixColumns (m s : List Nat) : List Nat := ((pieces 4 4 s).map (mixColumn m)).flatten

def aesRound (s k : List Nat) : List Nat := xorBytes (mixColumns [2, 3, 1, 1] (shiftRows (s.map subByte))) k
def aesUnround (s k : List Nat) : List Nat := unshiftRows ((mixColumns [14, 11, 13, 9] (xorBytes s k)).map unsubByte)

/-- One block of 16 bytes, encrypted and decrypted. -/
def aesEnc (key s : List Nat) : List Nat :=
  match roundKeys key with
  | [] => s
  | k0 :: ks => xorBytes (shiftRows (((ks.dropLast.foldl aesRound (xorBytes s k0))).map subByte)) (ks.getLastD [])

def aesDec (key s : List Nat) : List Nat :=
  match (roundKeys key).reverse with
  | [] => s
  | k0 :: ks => xorBytes (ks.dropLast.foldl aesUnround (unshiftRows (xorBytes s k0) |>.map unsubByte)) (ks.getLastD [])

/-! ### AES-XTS-256 -/

/-- A number as n bytes, lowest first. -/
def lowBytes (n v : Nat) : List Nat := (List.range n).map fun i => v / 256 ^ i % 256

/-- A tweak block times x: its bytes are a number of 128 bits, lowest first. -/
def tweakTimesX (t : List Nat) : List Nat :=
  let v := beNat t.reverse
  lowBytes 16 (Nat.xor (2 * v % 2 ^ 128) (if 2 ^ 127 ≤ v then 0x87 else 0))

/-- Blocks of one data unit, each under the tweak that follows the one before. -/
def xtsBlocks (f : List Nat → List Nat) : List (List Nat) → List Nat → List Nat
  | [], _ => []
  | b :: bs, t => xorBytes (f (xorBytes b t)) t ++ xtsBlocks f bs (tweakTimesX t)

/-- A data unit of 64 bytes under a key of 64, the data key first, with its number as the tweak. -/
def xts (f : List Nat → List Nat → List Nat) (key : List Nat) (unit : Nat) (d : List Nat) : List Nat :=
  xtsBlocks (f (key.take 32)) (pieces 16 4 d) (aesEnc (key.drop 32) (lowBytes 16 unit))

/-! ### Keys and sealed lines (20_security.md R565, R579) -/

/-- The sealing key of an extent tag, whose 16 bytes go lowest first (00_scope.md R6). -/
def sealKey (tag : Nat) : Nat := hmac384 Config.deviceSecret (lowBytes 16 tag)

/-- The 64 bytes that AES-XTS-256 takes, made of the 48 of the sealing key (log entry 61). -/
def xtsKey (tag : Nat) : List Nat := (List.range 64).map fun i => Config.xtsKeyByte (sealKey tag) i % 256

def onLine (f : List Nat → List Nat) (d : Line) : Line := BitVec.ofNat 512 (beNat (f (lowBytes 64 d.toNat)).reverse)

/-- A line of a sealed window as the device holds it, and back: the data unit is the line, the tweak the pool line index. -/
def sealedForm (tag line : Nat) (d : Line) : Line := onLine (xts aesEnc (xtsKey tag) line) d
def clearForm (tag line : Nat) (d : Line) : Line := onLine (xts aesDec (xtsKey tag) line) d

/-- The Alias key's seed: HMAC-SHA-384 of the device secret over measurements 1, 2 and 4, 48 bytes each. -/
def aliasSeed (m1 m2 m4 : Nat) : Nat := hmac384 Config.deviceSecret ([m1, m2, m4].flatMap (beBytes 48))

end Sys2Proof.Machine
end

