-- ==== Sys2Proof/Machine/LaneCore.lean ====
section
/-!
DEFINITION. What lanes share: which lanes can serve, PAM4 symbols, test patterns, clocking, adaptation codes, the
generator and checker, and what a lane's transmitter drives (04_lanes.md R119 to R150; 02_package_pins.md R61).
-/
namespace Sys2Proof.Machine

def tileOfLane (l : Nat) : Nat := l / 128
def laneGroup (l : Nat) : Nat := l / 16
def laneOff (l off : Nat) : Nat := 0x100 + l % 16 * 0x80 + off

/-! ### References and power (R68, R134, R140, R154) -/

/-- The input that a tile takes its reference from. -/
def refOf (c : Chip) (k : Nat) : Nat := if isF c PHY_ST_CTRL_REFSEL k then 0 else k

/-- The tile's selected reference is absent (02_package_pins.md R68). -/
def refGone (c : Chip) (k : Nat) : Bool := c.phy.absent.getLsbD (refOf c k)

/-- The tile's reference and PLL serve it. -/
def tileOk (c : Chip) (k : Nat) : Bool := !refGone c k && !c.phy.pllLost.getLsbD k

/-- The lane's transmitter and receiver are on (R140). -/
def lanePowered (c : Chip) (l : Nat) : Bool := getLane c PHY_LANE_STAT_PDACT l == 0

/-- A lane that a port may train on: no loopback holds it, its tile has its clock, and it is powered (R140, R145, R68). -/
def laneUsable (c : Chip) (l : Nat) : Bool :=
  getLane c PHY_LANE_CTRL_LB l == 0 && lanePowered c l && tileOk c (tileOfLane l)

/-! ### PAM4 symbols and patterns (R122, R147, R148) -/

/-- A rate code with PAM4 modulation (R119). -/
def isPam4 (rate : Nat) : Bool := 5 ≤ rate

/-- The level of a bit pair, the first bit of the pair in transmission order first. -/
def pam4Level (first second : Bool) : Nat :=
  match first, second with
  | false, false => 0 | false, true => 1 | true, true => 2 | true, false => 3

/-- The receiver's inverse mapping. -/
def pam4Bits (level : Nat) : Bool × Bool :=
  match level with
  | 0 => (false, false) | 1 => (false, true) | 2 => (true, true) | _ => (true, false)

/-- The normalised amplitude of a level. -/
def pam4Amplitude (level : Nat) : Int := 2 * (level : Int) - 3

/-- Degree and second tap of the polynomials of codes 0 to 4. -/
def prbsPoly (code : Nat) : Option (Nat × Nat) :=
  match code with
  | 0 => some (7, 6) | 1 => some (9, 5) | 2 => some (15, 14) | 3 => some (23, 18) | 4 => some (31, 28) | _ => none

/-- The last n bits of a pseudo-random sequence after k more bits: each bit is the exclusive or of those n and m bits
before it. -/
def prbsRun (n m s : Nat) : Nat → Nat
  | 0 => s
  | k + 1 => let t := prbsRun n m s k
             (2 * t + b2n (bit t (n - 1) != bit t (m - 1))) % 2 ^ n

/-- Bit k of a pattern that is a sequence of bits. -/
def patternBit (code upat k : Nat) : Bool :=
  match prbsPoly code with
  | some (n, m) => bit (prbsRun n m (1 + Config.prbsSeed code % (2 ^ n - 1)) (k + 1)) 0
  | none => bit upat (k % 64)

/-- A PAM4-only pattern at an NRZ rate (R148). -/
def patternBarred (code rate : Nat) : Bool := (code == 5 || code == 6) && !isPam4 rate

/-- The level that a pattern has in unit interval k, none for electrical idle: 0 and 1 at an NRZ rate, 0 to 3 at a PAM4
rate, where bits are mapped two at a time. -/
def patternLevel (code rate upat k : Nat) : Option Nat :=
  if patternBarred code rate then none
  else some (match code with
    | 5 => Config.prbs13q k % 4
    | 6 => Config.ssprq k % 4
    | 8 => if k % 64 < 32 then 0 else if isPam4 rate then 3 else 1
    | 9 => Config.compliance rate k
    | _ => if isPam4 rate then pam4Level (patternBit code upat (2 * k)) (patternBit code upat (2 * k + 1))
           else b2n (patternBit code upat k))

/-- The 64 bits of a lane's user pattern. -/
def userPattern (c : Chip) (l : Nat) : Nat :=
  getLane c PHY_LANE_UPAT1_PAT l * 2 ^ 32 + getLane c PHY_LANE_UPAT0_PAT l

/-! ### Generator and checker (R149, R150) -/

/-- Generator and checker act once a loopback set by register is closed, or while the lane belongs to no enabled port. -/
def patternsAct (c : Chip) (l : Nat) : Bool :=
  if getLane c PHY_LANE_CTRL_LB l != 0 then (laneSt c l).lb == .closed else (portOfLane c l).isNone

/-- The lane's checker can lock on its pattern (R148). -/
def patternLocks (c : Chip) (l : Nat) : Bool :=
  !patternBarred (getLane c PHY_LANE_PAT_CHK_PAT l) (getLane c PHY_LANE_STAT_RATE l)

/-- The enables in effect follow the registers where they may; a checker that does not act, or cannot lock, is not
locked. -/
def takePatterns (l : Nat) (c : Chip) : Chip :=
  let act := patternsAct c l && lanePowered c l
  let chk := act && getLane c PHY_LANE_PAT_CHK_EN l != 0
  setLaneSt l { laneSt c l with genOn := act && getLane c PHY_LANE_PAT_GEN_EN l != 0, chkOn := chk }
    (whenB (!(chk && patternLocks c l)) (setLane PHY_LANE_STAT_CHK_LOCK l 0) c)

/-! ### Clocking (R131, R132) -/

/-- The clocking mode that a lane runs in: its port's, or its own CLKMODE while no enabled port holds it. -/
def clockMode (c : Chip) (l : Nat) : Nat :=
  match portOfLane c l with
  | some p => (prtSt c p).clk
  | none => getLane c PHY_LANE_CTRL_CLKMODE l

/-- The bandwidth code in use: at least 2 under SRIS. -/
def cdrCode (c : Chip) (l : Nat) : Nat :=
  let code := getLane c PHY_LANE_CTRL_CDR_BW l
  if clockMode c l = 2 then max code 2 else code

/-- The bandwidth of the phase-tracking loop in MHz. -/
def cdrMHz (c : Chip) (l : Nat) : Nat :=
  match cdrCode c l with
  | 0 => 2 | 1 => 4 | 2 => 8 | _ => 12

/-! ### Adaptation codes (R126 to R128) -/

/-- PHY_LANE_STAT.ADAPT: 3 while FREEZE is 1, else the phase. -/
def adaptAs (l phase : Nat) (c : Chip) : Chip :=
  setLane PHY_LANE_STAT_ADAPT l (if getLane c PHY_LANE_CTRL_FREEZE l = 0 then phase else 3) c

/-- The phase of a lane of an enabled port as its link stands: tracking in L0 unless L0p idles the lane, initial while
the link trains, else idle. -/
def adaptPhase (c : Chip) (l : Nat) : Nat :=
  match portOfLane c l with
  | none => 0
  | some p =>
    if !(laneSt c l).trained || getLane c PHY_LANE_CTRL_LB l != 0 then 0
    else if inL0 c p then (if (laneSt c l).idled then 0 else 2)
    else if linkState c p = 1 then 1 else 0

def adaptNow (l : Nat) (c : Chip) : Chip := adaptAs l (adaptPhase c l) c

def lanesOf (c : Chip) (p : Nat) : List Nat := (List.range (portWidth c p)).map (p + ·)

/-- A lane without a link: nothing trained, no adaptation, no lock, no precoding, and no loopback as follower (R125,
R142). -/
def idleLane (l : Nat) (c : Chip) : Chip :=
  let s := laneSt c l
  let c1 := if s.lb = .follower then setLane PHY_LANE_STAT_LBACT l 0 c else c
  let c2 := setLaneSt l { s with trained := false, idled := false, lb := if s.lb = .follower then .none else s.lb } c1
  if getLane c PHY_LANE_CTRL_LB l != 0 then c2
  else adaptAs l 0 (setLane PHY_LANE_STAT_CDR_LOCK l 0 (setLane PHY_LANE_STAT_SIGDET l 0
    (setLane PHY_LANE_STAT_PRE_TX l 0 (setLane PHY_LANE_STAT_PRE_RX l 0 c2))))

/-- PD takes effect (R140): a lane that is powered down has no signal, no lock and no pattern; a loopback on it opens, and
closes again when LB is written again (log entry 95). -/
def takePower (l : Nat) (c : Chip) : Chip :=
  let on := getLane c PHY_LANE_CTRL_PD l != 0
  let c1 := setLane PHY_LANE_STAT_PDACT l (b2n on) c
  takePatterns l (if on then
      whenB (getLane c1 PHY_LANE_CTRL_LB l != 0) (fun c => setLaneSt l { laneSt c l with lb := .off } c)
        (setLane PHY_LANE_STAT_LBACT l 0 (setLane PHY_LANE_STAT_CDR_LOCK l 0 (setLane PHY_LANE_STAT_SIGDET l 0 c1)))
    else c1)

/-- The port's lanes are idle. -/
def lanesIdle (p : Nat) (c : Chip) : Chip := forEach (lanesOf c p) idleLane c

/-! ### What the transmitter drives (R107, R141 to R149; 02_package_pins.md R61, R88) -/

/-- What the transmit lands of a lane carry. -/
inductive TxDrive where
  /-- Undriven: VIN is not valid. -/
  | undriven
  /-- Electrical idle. -/
  | idle
  /-- Powered down (R140). -/
  | off
  /-- What the link sends. -/
  | link
  /-- The generator's pattern. -/
  | pattern (code : Nat)
  /-- Received data, retransmitted. -/
  | retransmit
  /-- High impedance under the test access port. -/
  | highZ
  /-- A level of the boundary-scan register; under EXTEST_PULSE or EXTEST_TRAIN a pulse or a train of it. -/
  | level (v : Bool)
  | pulse (v : Bool)
  | train (v : Bool)
deriving DecidableEq, Repr

/-- The lane's tile has started (R107). -/
def laneStarted (c : Chip) (l : Nat) : Bool := stageDone c (9 + l / 256)

/-- The transmitter as its functional logic drives it. -/
def laneTxFn (c : Chip) (l : Nat) : TxDrive :=
  if !c.pwr.vin then .undriven
  else if !laneStarted c l then .idle
  else if !lanePowered c l then .off
  else match (laneSt c l).lb with
    | .follower => .retransmit
    | .closed => if getLane c PHY_LANE_CTRL_LB l = 3 then .retransmit else .idle
    | .waitSignal | .off => .idle
    | .none =>
      if (portOfLane c l).isSome then (if (laneSt c l).trained && !(laneSt c l).idled then .link else .idle)
      else if (laneSt c l).genOn && !patternBarred (getLane c PHY_LANE_PAT_GEN_PAT l) (getLane c PHY_LANE_STAT_RATE l) then
        .pattern (getLane c PHY_LANE_PAT_GEN_PAT l)
      else .idle

/-- The receive termination is on: high impedance in reset (02_package_pins.md R61). -/
def rxTerminated (c : Chip) (l : Nat) : Bool := c.pwr.vin && laneStarted c l && lanePowered c l

end Sys2Proof.Machine
end

