-- ==== Sys2Proof/Machine/LnkCore.lean ====
section
/-!
DEFINITION. Links: message classes, credits, replay and sequence numbers, trunk pairs and their buckets, and what the
pool path sends over a pair (05_links.md R155 to R185). The commands stand in Machine/Lnk.lean.
-/
namespace Sys2Proof.Machine

def nth (l : List Nat) (i : Nat) : Nat := (l[i]?).getD 0
def addAt (l : List Nat) (i n : Nat) : List Nat := mapAt l i (· + n)

/-! ### Message classes (R156, R163; 07_switch_core.md R232, R234) -/

/-- Class of a message: 0 REQ, 1 SNP, 2 RSP, 3 DATA. CXL.cache, which the table of R163 does not name, goes by what its
messages are (log entry 22). -/
def clsOf : MsgType → Nat
  | .memReq | .ioNonPosted | .cacheReq => 0
  | .biSnp => 1
  | .ndr | .biRsp | .biConflict | .ioCpl | .cacheRsp => 2
  | .rwd | .drs | .writeback | .ioPosted | .ioCplData | .cacheData => 3

/-- What a message is for the ordering rules of CXL.io. -/
def ioOf : MsgType → IoKind
  | .ioPosted => .posted
  | .ioNonPosted => .nonPosted
  | .ioCpl | .ioCplData => .completion
  | _ => .mem

/-- The outcome of a received flit's check (R157). -/
inductive FlitOutcome where
  | clean | corrected | uncorrectable
deriving DecidableEq, Repr

/-- FEC corrects one symbol in each of its three interleaves; in non-flit mode there is the LCRC alone (R155, R157). -/
def flitOutcome (c : Chip) (p : Nat) (k : FlitCheck) : FlitOutcome :=
  let errs := if isF c LNK_STAT_FLIT p then k.symbols.take 3 else []
  if !k.crc || errs.any (1 < ·) then .uncorrectable
  else if errs.all (· == 0) then .clean
  else .corrected

/-- Flit type and protocol ID of a flit. -/
def flitTypeOf (msg : Option FlitMsg) (orig : Option Nat) : FlitType :=
  match msg, orig with
  | none, _ => .nop
  | some _, some _ => .resend
  | some m, none => match m.typ with
    | .ioNonPosted | .ioPosted | .ioCpl | .ioCplData => .io
    | .cacheReq | .cacheRsp | .cacheData => .cache
    | _ => .mem

/-! ### Trunk pairs (R177, R179) -/

/-- The role that the last training took from LNK_TRUNK, or the register's before any training (R196). -/
def roleOf (c : Chip) (p : Nat) : Bool × Nat :=
  (lnkSt c p).role.getD (isF c LNK_TRUNK_PRIMARY p, getF c LNK_TRUNK_PARTNER p)
def partnerOf (c : Chip) (p : Nat) : Nat := (roleOf c p).2
def isPrimary (c : Chip) (p : Nat) : Bool := (roleOf c p).1

/-- Primary of the pair that a trunk belongs to. -/
def primaryOf (c : Chip) (p : Nat) : Nat := if isPrimary c p then p else partnerOf c p

/-- The partner is a trunk of the same width configured as the other member of the pair (R177). -/
def pairedOk (c : Chip) (p : Nat) : Bool :=
  let q := partnerOf c p
  q != p && persIs c q 4 && portWidth c q == portWidth c p && partnerOf c q == p && isPrimary c q != isPrimary c p

/-- Members that carry traffic or may still do so (R172). -/
def memberUp (c : Chip) (p : Nat) : Bool :=
  trunk c p && 2 ≤ linkState c p && linkState c p ≤ 4 && !(lnkSt c p).declaredDown

/-- The member that SPLIT of the primary's page assigns a bucket to. -/
def assignedTo (c : Chip) (prim b : Nat) : Nat := if b < getF c LNK_PAIR_SPLIT prim then prim else partnerOf c prim

/-- The member that carries a bucket now. -/
def carrierOf (c : Chip) (prim b : Nat) : Nat := (kvFind c.lnk.carrier (prim * 256 + b)).getD (assignedTo c prim b)

def setCarrier (prim b m : Nat) (c : Chip) : Chip :=
  if m = assignedTo c prim b then { c with lnk := { c.lnk with carrier := kvErase c.lnk.carrier (prim * 256 + b) } }
  else { c with lnk := { c.lnk with carrier := kvPut c.lnk.carrier (prim * 256 + b) m } }

def allBuckets : List Nat := List.range 256
def bucketsOf (c : Chip) (p : Nat) : List Nat := allBuckets.filter fun b => carrierOf c (primaryOf c p) b == p

/-- LNK_TSTAT.BUCKETS: a member that is down or out of its pair carries none. -/
def bucketsShown (c : Chip) (p : Nat) : Nat := if memberUp c p then (bucketsOf c p).length else 0

/-- Bucket of a packet: its source port and its destination PBR ID. -/
def bucketOf (src pbr : Nat) : Nat := Config.bucketHash src pbr % 256

/-! ### Credits (R163 to R167) -/

/-- Credits of one class that an edge link advertises for each lane: DATA counts payload lines, and 4 stands for the headers
of posted requests (R164). -/
def edgeCredit (c : Chip) (p cls : Nat) : Nat :=
  match cls with
  | 1 => if pers c p = 3 then 8 else 0
  | 3 => 96
  | _ => 16

/-- Credits that an x16 trunk advertises out of reset. -/
def trunkCredit (cls : Nat) : Nat :=
  match cls with
  | 0 => 512 | 1 => 256 | 2 => 512 | 3 => 1024 | _ => 0

/-- Credits advertised, and LNK_CREDc.ADV as it reads: what software set on a trunk, else what R163 and R164 give; the
reset value on the page of a port that is not enabled (R196). -/
def credAdv (c : Chip) (p cls : Nat) : Nat :=
  let reset := trunkCredit cls * portWidth c p / 16
  if trunk c p then (kvFind c.lnk.adv (p * 4 + cls)).getD reset
  else if portOn c p then edgeCredit c p cls * portWidth c p
  else reset

/-- The credits that a port advertises: ADV as in force since its link entered L0, else as it would start (R167). -/
def credNow (c : Chip) (p cls : Nat) : Nat :=
  if trunk c p && decide (2 ≤ linkState c p) && decide (linkState c p ≤ 4) then nth (lnkSt c p).inForce cls else credAdv c p cls

/-- The largest number of cells that the credits of a port can need (R164, R241): one for each credit. -/
def credCells (c : Chip) (p : Nat) : Nat := (List.range 5).foldl (fun n k => n + credNow c p k) 0

/-- Credits held for sending; 4 stands for posted headers. -/
def avail (c : Chip) (p cls : Nat) : Nat := if cls = 4 then (lnkSt c p).headAvail else getFi c LNK_CRED_AVAIL p cls

def setAvail (p cls v : Nat) (c : Chip) : Chip :=
  if cls = 4 then setLnkSt p { lnkSt c p with headAvail := v } c else setFi LNK_CRED_AVAIL p cls v c

/-- The kind of credit that a message takes beside those of its data: on a trunk one of its class (R163); on an edge link
posted requests and completions have header amounts of their own, and other data messages none (R164). -/
def headClass (c : Chip) (p : Nat) (t : MsgType) : Option Nat :=
  if trunk c p then some (clsOf t)
  else match t with
    | .ioPosted => some 4
    | .ioCplData => some 2
    | .rwd | .drs | .writeback | .cacheData => none
    | _ => some (clsOf t)

/-- Credits by kind that a message, or a further part of one, takes: one for its head, and a DATA credit a line. -/
def needsOf (c : Chip) (p : Nat) (t : MsgType) (first : Bool) (lines : Nat) : List Nat :=
  addAt (match headClass c p t with
    | some k => if first then addAt [0, 0, 0, 0, 0] k 1 else [0, 0, 0, 0, 0]
    | none => [0, 0, 0, 0, 0]) 3 lines

def flitNeeds (c : Chip) (p : Nat) (m : FlitMsg) : List Nat := needsOf c p m.typ m.first m.dataLines

def sumBy (a b : List Nat) : List Nat := List.zipWith (· + ·) a b

/-- The link holds the credits. -/
def hasNeeds (c : Chip) (p : Nat) (n : List Nat) : Bool := (List.range 5).all fun k => nth n k ≤ avail c p k

def takeNeeds (p : Nat) (n : List Nat) (c : Chip) : Chip :=
  forEach (List.range 5) (fun k c => if nth n k = 0 then c else setAvail p k (avail c p k - nth n k) c) c

/-- Credits freed at the receiver, to be returned (R165). -/
def freeNeeds (p : Nat) (n : List Nat) (c : Chip) : Chip :=
  let x := lnkSt c p
  setLnkSt p { x with freed := sumBy x.freed n } c

/-- Credits that a message with n lines of data frees when it leaves, or is accepted (R163, R165). -/
def freeCredits (p : Nat) (t : MsgType) (lines : Nat) (c : Chip) : Chip := freeNeeds p (needsOf c p t true lines) c

/-! ### Replay (R160 to R162) -/

def replayCap (c : Chip) (p : Nat) : Nat := min (32 * portWidth c p) 511
/-- LNK_REPLAY.CAP. That it reads 0 while the link is down, as a port reset leaves it (R197), and R160's number from the
next training on is a DESIGN CHOICE (log entry 117): R196 and R197 do not say when it shows again. -/
def capShown (c : Chip) (p : Nat) : Nat := if linkState c p = 0 then 0 else replayCap c p
def replayRoom (c : Chip) (p : Nat) : Bool := (lnkSt c p).unacked.length < replayCap c p

/-- The credit return fields of a flit sent now: the totals freed since the link entered L0, modulo 4,096. -/
def returnsNow (c : Chip) (p : Nat) : List Nat := (lnkSt c p).freed.map (· % 4096)

/-- A flit leaves with its credit return fields, which report every freed credit. -/
def emitFlit (p seq : Nat) (msg : Option FlitMsg) (orig : Option Nat) (c : Chip) : Chip :=
  let x := lnkSt c p
  send (.flit p (flitTypeOf msg orig) seq msg (returnsNow c p) orig)
    (setLnkSt p { x with told := x.freed, sinceMarks := x.sinceMarks + 1 } c)

/-- A new sequenced flit leaves, and is kept until it is acknowledged. -/
def sendFlit (p : Nat) (msg : Option FlitMsg) (bucket : Nat) (orig : Option Nat) (c : Chip) : Chip :=
  let seq := getF c LNK_SEQ_NEXT_TX p
  let x := lnkSt c p
  let kept := x.unacked ++ [{ seq := seq, msg := msg, bucket := bucket, orig := orig }]
  emitFlit p seq msg orig (wrapF LNK_SEQ_NEXT_TX p 1 (setLnkSt p { x with unacked := kept } c))

/-- The kept flits that a replay from a number resends (R158). -/
def replayList (c : Chip) (p seq : Nat) : List TxFlit := (lnkSt c p).unacked.filter fun f => flitDist seq f.seq < 512

/-- They are sent again in their order, without credits, with the credit return fields of now (R162). -/
def replayFrom (p seq : Nat) (c : Chip) : Chip :=
  forEach (replayList c p seq) (fun f c => emitFlit p f.seq f.msg f.orig c) c

/-- The replay count as LNK_STAT.REPLAY_NUM reports it. -/
def setReplays (p n : Nat) (c : Chip) : Chip :=
  setF LNK_STAT_REPLAY_NUM p (min n 15) (setLnkSt p { lnkSt c p with replays := n } c)

/-! ### Failover resend flits, and messages of the pool path (R163, R179, R181; 08_binding.md R268) -/

/-- A sequenced flit with these needs may leave on p now. -/
def mayGo (c : Chip) (p : Nat) (n : List Nat) : Bool := inL0 c p && replayRoom c p && hasNeeds c p n

/-- A failover resend flit: the flit under its number on the failed member. -/
def sendResend (p : Nat) (f : TxFlit) (c : Chip) : Chip :=
  sendFlit p f.msg f.bucket (some f.seq) (match f.msg with
    | some m => takeNeeds p (flitNeeds c p m) c
    | none => c)

/-- Resend flits leave in their order while credits and room last; after the last, the moved buckets carry new packets. -/
def resendAll (p : Nat) : List TxFlit → Chip → Chip
  | [], c => setLnkSt p { lnkSt c p with resend := [], moved := [] } c
  | f :: r, c =>
    if mayGo c p (match f.msg with
      | some m => flitNeeds c p m
      | none => []) then resendAll p r (sendResend p f c)
    else setLnkSt p { lnkSt c p with resend := f :: r } c

/-- New packets of a bucket wait on member p behind resend flits (step 6 of R179). -/
def resendBars (c : Chip) (p b : Nat) : Bool := !(lnkSt c p).resend.isEmpty && (lnkSt c p).moved.contains b

def trunkOutOf (c : Chip) (prim : Nat) : List TrunkMsg := kvGet [] c.lnk.out prim
def setTrunkOut (prim : Nat) (l : List TrunkMsg) (c : Chip) : Chip :=
  { c with lnk := { c.lnk with out := kvSet [] c.lnk.out prim l } }

/-- What a message tells the far side. -/
def bodyOut (p : Nat) : TrunkBody → Out
  | .req tag xid addr write mask data poison => .remoteReq p tag xid addr write mask data poison
  | .rsp tag data poison => .trunkRsp p tag data poison

def bodyTag : TrunkBody → Nat
  | .req tag _ _ _ _ _ _ => tag
  | .rsp tag _ _ => tag

/-- A message leaves on the member that carries its bucket. -/
def sendTrunk (m : Nat) (x : TrunkMsg) (c : Chip) : Chip :=
  let f : FlitMsg := { typ := x.typ, first := true, dataLines := ⟨x.lines % 16, Nat.mod_lt _ (by decide)⟩,
                       msg := bodyTag x.body }
  sendFlit m (some f) x.bucket none (send (bodyOut m x.body) (takeNeeds m (flitNeeds c m f) c))

/-- Waiting messages leave, oldest first within a class and member, while credits and room last. -/
def pumpOut (prim : Nat) : List TrunkMsg → List TrunkMsg → Chip → Chip
  | [], kept, c => setTrunkOut prim kept c
  | x :: r, kept, c =>
    let m := carrierOf c prim x.bucket
    let behind := kept.any fun y => clsOf y.typ == clsOf x.typ && carrierOf c prim y.bucket == m
    if !behind && !resendBars c m x.bucket && memberUp c m && mayGo c m (needsOf c m x.typ true x.lines) then
      pumpOut prim r kept (sendTrunk m x c)
    else pumpOut prim r (kept ++ [x]) c

/-- Whatever waits for credits or room of link p, and may go now, goes. -/
def pump (p : Nat) (c : Chip) : Chip :=
  let c1 := if (lnkSt c p).resend.isEmpty then c else resendAll p (lnkSt c p).resend c
  if trunk c1 p then pumpOut (primaryOf c1 p) (trunkOutOf c1 (primaryOf c1 p)) [] c1 else c1

/-- The pool path sends a message over the pair of primary p. -/
def trunkPost (p : Nat) (x : TrunkMsg) (c : Chip) : Chip := pumpOut p (trunkOutOf c p ++ [x]) [] c

end Sys2Proof.Machine
end

