-- ==== Sys2Proof/Machine/TenCore.lean ====
section
/-!
DEFINITION. Tenancies: states, generations, the loss log, token buckets and shaper slots (14_tenancy_qos.md R451 to
R467). The commands that move requests stand in Machine/Ten.lean.
-/
namespace Sys2Proof.Machine

def tenGen (c : Chip) (t : Nat) : Nat := getF c TEN_STAT_GEN t
def tenPort (c : Chip) (t : Nat) : Nat := getF c TEN_CFG_PORT t

/-- The tenancies that are not OFF. -/
def tenanciesOn (c : Chip) : List Nat := (listedPages c TEN_STAT_STATE).filter fun t => tenState c t != 0

/-- Tenancies of a port that are not OFF. -/
def tenanciesOf (c : Chip) (p : Nat) : List Nat := (tenanciesOn c).filter fun t => tenPort c t == p

/-- A PASID lies in the tenancy's range; a TLP without one counts as PASID 0 (R451). -/
def pasidIn (c : Chip) (t : Nat) (pasid : Option Nat) : Bool :=
  getF c TEN_PASID_LO_PASID t ≤ pasid.getD 0 && pasid.getD 0 ≤ getF c TEN_PASID_HI_PASID t

/-- The tenancy of a CXL.io TLP on a pool face (R451). -/
def tenOfTlp (c : Chip) (p : Nat) (pasid : Option Nat) : Option Nat :=
  (tenanciesOf c p).find? fun t => pasidIn c t pasid

/-- A range of PASIDs that breaks R451 on a port: empty, or overlapping that of another tenancy that is not OFF. -/
def pasidClash (c : Chip) (t p lo hi : Nat) : Bool :=
  hi < lo || (tenanciesOf c p).any fun u => u != t &&
    (lo ≤ getF c TEN_PASID_HI_PASID u && getF c TEN_PASID_LO_PASID u ≤ hi)

/-- QMAX that a tenancy promises of its port's 1,024 shaper slots (R461). -/
def qPromise (c : Chip) (t : Nat) : Nat := if isF c SHP_SRATE_EN t then getF c SHP_SBURST_QMAX t else 0

/-- The sum of R461 on a port, without tenancy t. -/
def qSumWithout (c : Chip) (p t : Nat) : Nat :=
  ((tenanciesOf c p).filter (· != t)).foldl (fun s u => s + qPromise c u) 0

def qSum (c : Chip) (p : Nat) : Nat := (tenanciesOf c p).foldl (fun s u => s + qPromise c u) 0

/-! ### The loss log (R467) -/

/-- A loss of a tenancy: into the log, or counted as overflow; it counts toward NLOST either way (R439, R467). -/
def addLoss (t line cause : Nat) (c : Chip) : Chip :=
  let x := tenSt c t
  if x.log.length < 64 then
    setTenSt t { x with log := x.log ++ [{ line := line, cause := cause }], nlost := x.nlost + 1 } c
  else
    let c1 := setTenSt t { x with ovf := min (x.ovf + 1) (2 ^ 24 - 1), nlost := x.nlost + 1 } c
    if x.ovf = 0 then raise .ten t 1 c1 else c1

/-- A clear of the log: the n oldest entries, and the overflow count (R454). -/
def clearLoss (t v : Nat) (c : Chip) : Chip :=
  let x := tenSt c t
  setTenSt t { x with log := x.log.drop (bits v 0 7), ovf := if bit v 31 then 0 else x.ovf } c

/-- The management view of a loss entry, and the host view through the tenancy's present windows (R467). -/
def lossMgmt (e : LossEntry) : Nat := 2 ^ 63 + e.cause % 8 * 2 ^ 56 + e.line % 2 ^ 44

def lossHost (c : Chip) (t : Nat) (e : LossEntry) : Nat :=
  match c.bnd.live.find? (fun w => isPool w.2 && w.2.ten == t && w.2.pbase ≤ tileOfLine e.line &&
      tileOfLine e.line < w.2.pbase + w.2.size) with
  | some w => 2 ^ 63 + e.cause % 8 * 2 ^ 56 + ((w.2.hbase * 32768 + (e.line - w.2.pbase * 32768)) * 64) % 2 ^ 50
  | none => e.cause % 8 * 2 ^ 56

/-! ### Token buckets (R457 to R462) -/

/-- Units of 1/256 token in a bucket full to the BURST that a refill takes. -/
def pFull (c : Chip) (t : Nat) : Nat := getF c SHP_PBURST_BURST t * 256
def sFull (c : Chip) (t : Nat) : Nat := getF c SHP_SBURST_BURST t * 256

/-- A tenancy reset fills both buckets, to the BURST in effect (R458, R462). -/
def fillBuckets (t : Nat) (c : Chip) : Chip :=
  setF SHP_STOK_TOK t ((tenSt c t).sBurst * 256) (setF SHP_PTOK_TOK t ((tenSt c t).pBurst * 256) c)

/-- The policer passes a request of a cost in tokens (R459). -/
def policerHolds (c : Chip) (t cost : Nat) : Bool := !(tenSt c t).pEn || cost * 256 ≤ getF c SHP_PTOK_TOK t

def policerTake (t cost : Nat) (c : Chip) : Chip :=
  if (tenSt c t).pEn then setF SHP_PTOK_TOK t (getF c SHP_PTOK_TOK t - cost * 256) c else c

/-- The shaper bucket holds a cost (R460). -/
def shaperHolds (c : Chip) (t cost : Nat) : Bool := !(tenSt c t).sEn || cost * 256 ≤ getF c SHP_STOK_TOK t

def shaperTake (t cost : Nat) (c : Chip) : Chip :=
  if (tenSt c t).sEn then setF SHP_STOK_TOK t (getF c SHP_STOK_TOK t - cost * 256) c else c

/-- One bucket at a refill: enabled now it holds BURST, enabled before it gains RATE up to BURST; a disabled one is capped at
BURST too (R458, R462). -/
def refillBucket (was now : Bool) (tok rate full : Nat) : Nat :=
  if now then (if was then min (tok + rate) full else full) else min tok full

/-- The refill of one tenancy: its fields take effect (R462). -/
def refillTen (t : Nat) (c : Chip) : Chip :=
  let x := tenSt c t
  let p := isF c SHP_PRATE_EN t
  let s := isF c SHP_SRATE_EN t
  let c1 := setF SHP_PTOK_TOK t (refillBucket x.pEn p (getF c SHP_PTOK_TOK t) (getF c SHP_PRATE_RATE t) (pFull c t)) c
  let c2 := setF SHP_STOK_TOK t (refillBucket x.sEn s (getF c SHP_STOK_TOK t) (getF c SHP_SRATE_RATE t) (sFull c t)) c1
  setTenSt t { x with pEn := p, sEn := s, qmaxNow := getF c SHP_SBURST_QMAX t, wNow := getF c SHP_WEIGHT_W t,
                      pBurst := getF c SHP_PBURST_BURST t, sBurst := getF c SHP_SBURST_BURST t } c2

/-- Tenancies whose shaping a refill can change: a bucket enabled or in effect, a bucket size, a queue limit or a
weight set. -/
def refillTens (c : Chip) : List Nat :=
  (listedPages c SHP_PRATE_EN ++ listedPages c SHP_SRATE_EN ++ listedPages c SHP_SBURST_QMAX ++
    listedPages c SHP_WEIGHT_W ++ listedPages c SHP_PBURST_BURST ++ listedPages c SHP_SBURST_BURST ++ kvKeys c.ten.st).foldl addNew []

/-- The first discard after a clearing of the event raises SHP_DISCARD; each is counted with its cause (R459). -/
def noteDiscard (t cause : Nat) (c : Chip) : Chip := event .shpT t 0 (countQ .shpT t 5 cause c)

/-! ### Commands of TEN_CMD (R456) -/

/-- A command starts: OP and GO hold. -/
def cmdBegin (t op : Nat) (c : Chip) : Chip := setF TEN_CMD_GO t 1 (setF TEN_CMD_OP t op c)

/-- A command ends with a status, and TEN_CMD_DONE is raised. -/
def cmdEnd (t status : Nat) (c : Chip) : Chip :=
  event .ten t 0 (setF TEN_CMD_GO t 0 (setF TEN_CMD_STATUS t status c))

/-- A command refused: nothing else changes. -/
def cmdRefuse (t op status : Nat) (c : Chip) : Chip := cmdEnd t status (cmdBegin t op c)

/-- A live window names the tenancy. -/
def tenHasWindow (c : Chip) (t : Nat) : Bool := c.bnd.live.any fun e => isPool e.2 && e.2.ten == t

end Sys2Proof.Machine
end

