-- ==== Sys2Proof/Machine/MapCore.lean ====
section
/-!
DEFINITION. The tile map: locations, entries, the two stored copies, the map cache, marks, the request ring and split
records (09_tile_map.md R289 to R315; 10_placement.md R322). The commands stand in Machine/Map.lean.
-/
namespace Sys2Proof.Machine

/-! ### Locations (R294) -/

def locPort (w : Nat) : Nat := w / 4194304 % 1024
def locTile (w : Nat) : Nat := w % 4194304
def locWord (port dtile : Nat) : Nat := port * 4194304 + dtile

/-- A device face whose PRT_DEV.RESULT reads READY. -/
def devReady (c : Chip) (p : Nat) : Bool := deviceFace c p && getF c PRT_DEV_RESULT p == 1

/-- Devices of stored copy i (0 for A, 1 for B), in the order of the register fields (R290, R291). -/
def copyDevs (c : Chip) (i : Nat) : List Nat :=
  [getFi c MAP_COPY0_DEV0 0 i, getFi c MAP_COPY0_DEV1 0 i, getFi c MAP_COPY1_DEV2 0 i, getFi c MAP_COPY1_DEV3 0 i].take
    (2 ^ getFi c MAP_COPY0_N 0 i)

/-- Tiles of a map region on each of n devices (R291). -/
def regionTiles (c : Chip) (n : Nat) : Nat :=
  (getF c MAP_CFG_POOL_U 0 * 1048576 / n + 4096 + 2097151) / 2097152

/-- Tiles of a device that map regions take (R291). -/
def mapTilesOn (c : Chip) (p : Nat) : Nat :=
  if getF c MAP_CFG_POOL_U 0 = 0 then 0
  else if (copyDevs c 0).contains p then regionTiles c (copyDevs c 0).length
  else if (copyDevs c 1).contains p then regionTiles c (copyDevs c 1).length
  else 0

/-- A location word is valid (R294). -/
def locValid (c : Chip) (w : Nat) : Bool :=
  devReady c (locPort w) && locTile w < getF c PRT_DEV_CAP_TILES (locPort w) - mapTilesOn c (locPort w)

/-- The enabled care page bound to a port (11_media_care.md R360). -/
def carePageOf (c : Chip) (p : Nat) : Option Nat :=
  (listedPages c CAR_DEV_CFG_EN).find? fun d => isF c CAR_DEV_CFG_EN d && getF c CAR_DEV_CFG_PORT d == p

/-- A setting of a device page as care uses it: a change applies from the next pass (11_media_care.md R389). -/
def careF (c : Chip) (X : Fld) (d : Nat) : Nat := (kvFind c.car.inUse (d * 131072 + X.off * 32 + X.lo)).getD X.rst

/-- The settings that R389 speaks of. -/
def careSettings : List Fld :=
  [CAR_DEV_MEDIA_RET_H, CAR_DEV_MEDIA_TREF, CAR_DEV_MEDIA_HALVE, CAR_DEV_THR_TDEF, CAR_DEV_THR_REWET_PCT,
   CAR_DEV_THR_SPARE_PCT, CAR_DEV_THR_RETMAX_PCT, CAR_DEV_WEAR_ENDUR, CAR_DEV_WEAR_WL_GAP, CAR_DEV_WEAR_RETIRE_PCT,
   CAR_DEV_WEAR_DEF_MAX]

/-- The settings of a device page are taken: by each pass, and by the binding of the page (R389; log entry 109). -/
def takeSettings (d : Nat) (c : Chip) : Chip :=
  forEach careSettings (fun X c =>
    { c with car := { c.car with inUse := kvPut c.car.inUse (d * 131072 + X.off * 32 + X.lo) (getF c X d) } }) c

def careHold (c : Chip) (p : Nat) : Bool :=
  match carePageOf c p with
  | some d => isF c CAR_DEV_STAT_HOLD d
  | none => false

def careTwstale (c : Chip) (p : Nat) : Bool :=
  match carePageOf c p with
  | some d => isF c CAR_DEV_STAT_TWSTALE d
  | none => false

/-- A location of a tile (twin or not) is reachable (R294). -/
def locReach (c : Chip) (twin : Bool) (w : Nat) : Bool :=
  locValid c w && inL0 c (locPort w) && !careHold c (locPort w) && !(twin && careTwstale c (locPort w))

/-- Pan of a location (R294). -/
def locPan (c : Chip) (w : Nat) : Nat := (prtSt c (locPort w)).pan

/-! ### Device media (R291, R292) -/

def diskAt (c : Chip) (p : Nat) : Disk := kvGet Disk.empty c.media.disks p

def updDisk (p : Nat) (f : Disk → Disk) (c : Chip) : Chip :=
  { c with media := { c.media with disks := kvMod Disk.empty c.media.disks p f } }

/-- First byte of the map region on device p of a copy of n devices: it ends where the used range ends (R291). -/
def regionBase (c : Chip) (p n : Nat) : Nat := (getF c PRT_DEV_CAP_TILES p - regionTiles c n) * 2097152

/-- The device of copy i that holds the entry of tile t (R291). -/
def entryDev (c : Chip) (i t : Nat) : Nat :=
  let ds := copyDevs c i
  (ds[t / 4 % ds.length]?).getD 0

/-- The entry's byte address on that device (R291). -/
def entryAddr (c : Chip) (i t : Nat) : Nat :=
  let n := (copyDevs c i).length
  regionBase c (entryDev c i t) n + 4096 + t / 4 / n * 64 + t % 4 * 16

/-- The tile whose entry lies at a byte address of device k of n, in a region that begins at `base`. -/
def tileAtAddr (base k n a : Nat) : Nat := ((a - base - 4096) / 64 * n + k) * 4 + (a - base) % 64 / 16

/-- Entries of device k of copy i that are not all zeros, by tile. -/
def devTiles (c : Chip) (i k : Nat) : List Nat :=
  let ds := copyDevs c i
  let p := (ds[k]?).getD 0
  let base := regionBase c p ds.length
  (((kvKeys (diskAt c p).entries).filter fun a => base + 4096 ≤ a).map (tileAtAddr base k ds.length)).filter
    (· < poolTiles c)

/-- Tiles whose entry in copy i is not all zeros. -/
def copyTiles (c : Chip) (i : Nat) : List Nat :=
  (List.range (copyDevs c i).length).foldl (fun l k => l ++ devTiles c i k) []

/-- Every byte of a map region from line `from` on reads 0, and the entries alone; at 0, the header's 4 KiB too. -/
def wipeDev (i k start : Nat) (c : Chip) : Chip :=
  let ds := copyDevs c i
  let p := (ds[k]?).getD 0
  let base := regionBase c p ds.length
  updDisk p (fun d => { d with heads := d.heads.filter fun h => !(base < h.1),
                               entries := d.entries.filter fun e =>
                                 !(base ≤ e.1) || (base + 4096 ≤ e.1 && tileAtAddr base k ds.length e.1 / 4 < start) }) c

def wipeCopy (i start : Nat) (c : Chip) : Chip :=
  forEach (List.range (copyDevs c i).length) (fun k c => wipeDev i k start c) c

/-! ### Stored copies (R304, R310, R318) -/

def mapRunning (c : Chip) : Bool := isF c MAP_STAT_RUNNING 0
def mapSingle (c : Chip) : Nat := getF c MAP_STAT_SINGLE 0

/-- Copy i serves and is written: neither lost nor, for writes, above what a rebuild has copied. -/
def copyLive (c : Chip) (i : Nat) : Bool := mapSingle c == 0 || mapSingle c == i + 1

def copyWritten (c : Chip) (i t : Nat) : Bool :=
  copyLive c i || (c.map.rebuilding && mapSingle c != 3 && t / 4 < c.map.rebuilt)

/-- The entry of tile t in copy i. -/
def storedOf (c : Chip) (i t : Nat) : Entry := kvGet Entry.zero (diskAt c (entryDev c i t)).entries (entryAddr c i t)

def setStored (i t : Nat) (e : Entry) (c : Chip) : Chip :=
  let a := entryAddr c i t
  updDisk (entryDev c i t) (fun d => { d with entries := kvSet Entry.zero d.entries a e }) c

/-- The copy that a fetch reads: copy A, or copy B when A is lost or fails to read; none when no copy can be read (R309,
R311). -/
def fetchCopy (c : Chip) (rd : CopyReads) : Option Nat :=
  if copyLive c 0 && !rd.aFail then some 0 else if copyLive c 1 && !rd.bFail then some 1 else none

def readsGood : CopyReads := { aFail := false, bFail := false }

/-- The stored entry as an undisturbed fetch returns it (R311). -/
def storedEntry (c : Chip) (t : Nat) : Entry := storedOf c (if copyLive c 0 then 0 else 1) t

/-! ### The map cache (R311, R312) -/

def mapLineOf (t : Nat) : Nat := t / 4
def mapSliceSet (l : Nat) : Nat := l % 128 * 128 + l / 128 % 128

def cachedEntry (c : Chip) (t : Nat) : Option Entry := (kvFind c.map.cache (mapLineOf t)).bind fun x => x.e[t % 4]?

def hasSplit (c : Chip) (t : Nat) : Bool := c.map.splits.any fun s => s.1 == t

/-- A line that stays in the cache (R312). -/
def linePinned (c : Chip) (l : Nat) (x : CacheLine) : Bool :=
  x.e.any (fun e => e.state == 2 || e.state == 3) || !x.unwritten.isEmpty ||
    [4 * l, 4 * l + 1, 4 * l + 2, 4 * l + 3].any fun t => hasSplit c t || c.map.placing.contains t

/-- A copy holds the entry as written: its line is no longer kept for want of that, and its marks are saved (R312,
R313). -/
def noteWritten (t : Nat) (e : Entry) (c : Chip) : Chip :=
  match kvFind c.map.cache (mapLineOf t) with
  | some x =>
    let b := (List.range 4).map fun j => if j = t % 4 then (e.rmark, e.wmark) else (x.base[j]?).getD (0, 0)
    let y := { x with unwritten := without x.unwritten t, base := b }
    { c with map := { c.map with cache := kvPut c.map.cache (mapLineOf t) y } }
  | none => c

/-- An entry written to copy A and then to copy B (R304): whether a write succeeded, and the part afterwards. -/
def writeCopies (t : Nat) (e : Entry) (cw : CopyWrites) (c : Chip) : Bool × Chip :=
  let a := copyWritten c 0 t
  let b := copyWritten c 1 t
  let aOk := a && !cw.aFail
  let bOk := b && !cw.bFail
  let c1 := whenB (aOk || bOk) (noteWritten t e) (whenB bOk (setStored 1 t e) (whenB aOk (setStored 0 t e) c))
  (aOk || bOk, whenB ((aOk || bOk) && ((a && cw.aFail) || (b && cw.bFail))) (raise .map 0 1) c1)

/-- Marks of a line written back to both copies at its eviction (R304). -/
def writeBackMarks (l : Nat) (x : CacheLine) (c : Chip) : Chip :=
  if mapSingle c = 3 then c
  else
    let dirty := (List.range 4).any fun j => (x.e[j]?).getD Entry.zero != storedEntry c (4 * l + j)
    if dirty then
      count .map 0 5 (forEach (List.range 4)
        (fun j c => (writeCopies (4 * l + j) ((x.e[j]?).getD Entry.zero) { aFail := false, bFail := false } c).2) c)
    else c

/-- Room for a line in its set: the least recently used unpinned line leaves when sixteen are held. Where R312 keeps all
sixteen, none leaves and the set holds one more (DESIGN CHOICE, log entry 129). -/
def evictMapLine (l : Nat) (c : Chip) : Chip :=
  let inSet := c.map.cache.filter fun e => mapSliceSet e.1 == mapSliceSet l
  if inSet.length < 16 then c
  else match minBy (fun e => e.2.stamp) (inSet.filter fun e => !linePinned c e.1 e.2) with
    | none => c
    | some v =>
      let c1 := writeBackMarks v.1 v.2 c
      { c1 with map := { c1.map with cache := kvErase c1.map.cache v.1 } }

/-- A line filled from stored copy i. -/
def fillLine (i l : Nat) (c : Chip) : Chip :=
  let c1 := evictMapLine l c
  let es := (List.range 4).map fun j => storedOf c1 i (4 * l + j)
  let x : CacheLine := { e := es, stamp := c1.map.clock, unwritten := [], base := es.map fun e => (e.rmark, e.wmark) }
  { c1 with map := { c1.map with cache := kvPut c1.map.cache l x, clock := c1.map.clock + 1 } }

/-- The entries of tile t are in the cache, fetched if need be. -/
def ensureCached (t : Nat) (c : Chip) : Chip :=
  if (kvFind c.map.cache (mapLineOf t)).isSome then c else fillLine (if copyLive c 0 then 0 else 1) (mapLineOf t) c

/-- The entry of a tile as the slice holds it, or as a fetch would return it. -/
def entryOf (c : Chip) (t : Nat) : Entry := (cachedEntry c t).getD (storedEntry c t)

/-- A new entry applied at the slice in one step (R304, R305). -/
def setEntry (t : Nat) (e : Entry) (c : Chip) : Chip :=
  let c1 := ensureCached t c
  match kvFind c1.map.cache (mapLineOf t) with
  | some x =>
    let y := { x with e := mapAt x.e (t % 4) (fun _ => e), stamp := c1.map.clock }
    { c1 with map := { c1.map with cache := kvPut c1.map.cache (mapLineOf t) y, clock := c1.map.clock + 1 } }
  | none => c1

/-- An entry that neither copy holds yet stays in the cache until one does (R304, R312). -/
def setUnwritten (t : Nat) (on : Bool) (c : Chip) : Chip :=
  match kvFind c.map.cache (mapLineOf t) with
  | some x =>
    let y := { x with unwritten := if on then addNew x.unwritten t else without x.unwritten t }
    { c with map := { c.map with cache := kvPut c.map.cache (mapLineOf t) y } }
  | none => c

/-- What a lookup of a tile finds: `none` for a miss that must be fetched, else the entry, LOST where the map does not
serve (R309, R310, R318). -/
def mapLookup (c : Chip) (t : Nat) : Option Entry :=
  if !mapRunning c then some { Entry.zero with state := 4 }
  else if c.map.unreadable.contains t then some { Entry.zero with state := 4 }
  else match cachedEntry c t with
    | some e => if e.state ≤ 5 then some e else some { Entry.zero with state := 4 }
    | none => if mapSingle c == 3 then some { Entry.zero with state := 4 } else none

/-! ### Marks (10_placement.md R322) -/

def markEntry (rd wr : Nat) (e : Entry) : Entry :=
  { e with rmark := min 255 (e.rmark + rd), wmark := min 255 (e.wmark + wr) }

/-- Marks added to a cached tile. An access uses the entry, so its line becomes the most recent, whether or not it adds a
mark (R312). -/
def markTile (t rd wr : Nat) (c : Chip) : Chip :=
  match cachedEntry c t with
  | some e => setEntry t (markEntry rd wr e) c
  | none => c

/-! ### Unreadable entries (R309) -/

/-- An entry that cannot be read from either copy. -/
def noteUnreadable (t : Nat) (c : Chip) : Chip :=
  let c1 := if isF c MAP_ERR_TILE_VALID 0 then c else setF MAP_ERR_TILE_VALID 0 1 (setF MAP_ERR_TILE_TILE 0 t c)
  raise .map 0 4 { c1 with map := { c1.map with unreadable := addNew c1.map.unreadable t } }

/-- The four tiles of a line. -/
def lineTiles (l : Nat) : List Nat := [4 * l, 4 * l + 1, 4 * l + 2, 4 * l + 3]

/-- A line that neither copy returns: the tile that asked for it first, and then its siblings. -/
def noteLineUnreadable (t : Nat) (c : Chip) : Chip :=
  forEach (t :: without (lineTiles (mapLineOf t)) t) noteUnreadable c

/-! ### The request ring (R315) -/

def ringFull (c : Chip) : Bool := 4096 ≤ c.map.ring.length

/-- An item placed on the ring, with MAP_RING when the ring becomes non-empty; one that finds it full waits. -/
def ringPut (i : RingItem) (c : Chip) : Chip :=
  if ringFull c || !c.map.waiting.isEmpty then
    { c with map := { c.map with waiting := c.map.waiting ++ [.item i] } }
  else
    whenB c.map.ring.isEmpty (event .map 0 1) { c with map := { c.map with ring := c.map.ring ++ [i] } }

/-- A RELEASE item for each location released. -/
def releaseLocs (t : Nat) (ls : List Nat) (c : Chip) : Chip :=
  forEach ls (fun w c => ringPut { kind := 2, tile := t, loc := w } c) c

/-! ### Split records (R303) -/

def splitGood (c : Chip) (t : Nat) : Option Bool := (c.map.splits.find? fun s => s.1 == t).map (·.2)

/-- A split recorded: its good location, the fault, the item with that location. -/
def addSplit (t : Nat) (good1 : Bool) (c : Chip) : Chip :=
  if hasSplit c t then c
  else
    let e := entryOf c t
    let c1 := { c with map := { c.map with splits := c.map.splits ++ [(t, good1)] } }
    ringPut { kind := 3, tile := t, loc := if good1 then e.loc1 else e.loc0 } (raise .map 0 5 c1)

/-- The split record of a tile is cleared. Its SPLIT item, where that still waits for ring room, is placed all the same
(DESIGN CHOICE, log entry 128: R303 does not say). -/
def clearSplit (t : Nat) (c : Chip) : Chip :=
  { c with map := { c.map with splits := c.map.splits.filter fun s => s.1 != t } }

/-! ### Which locations an access uses (R295, R296, R302, R303, 10_placement.md R343, R349) -/

/-- The rake slot that holds the move of a tile. -/
def slotOfTile (c : Chip) (t : Nat) : Option (Nat × RakSt) := c.rak.slots.find? fun s => s.2.work == .move t

/-- The tile's move waits for its source: its accesses are served as LOST (R349). -/
def waitsSource (c : Chip) (t : Nat) : Bool :=
  match slotOfTile c t with
  | some s => s.2.waitSrc
  | none => false

/-- Locations of a tile that data lives at, with their slot number: the good one alone under a split record. -/
def dataLocs (c : Chip) (t : Nat) (e : Entry) : List (Nat × Nat) :=
  if e.twin then
    match splitGood c t with
    | some true => [(1, e.loc1)]
    | some false => [(0, e.loc0)]
    | none => [(0, e.loc0), (1, e.loc1)]
  else [(0, e.loc0)]

/-- The reachable ones, in the order in which a read prefers them. -/
def liveLocs (c : Chip) (t : Nat) (e : Entry) : List (Nat × Nat) :=
  if waitsSource c t then [] else (dataLocs c t e).filter fun l => locReach c e.twin l.2

/-- What the move arbiter decides for a write to line l of a moving tile (R343): hold it, or copy it to the
destination as well. -/
inductive MoveSide where
  | sourceOnly | both | hold
deriving DecidableEq, Repr

def moveSide (c : Chip) (t l : Nat) (e : Entry) : MoveSide :=
  if e.state == 2 || e.state == 3 then
    match slotOfTile c t with
    | some (_, s) =>
      if s.dstFailed || s.stopping then .sourceOnly
      else if l < s.c then .both
      else if l < s.claimed then .hold
      else .sourceOnly
    | none => .sourceOnly
  else .sourceOnly

end Sys2Proof.Machine
end

