-- ==== Sys2Proof/Machine/RolCore.lean ====
section
/-!
DEFINITION. The roll's entries, who a line lists, and departures (12_coherence.md R391 to R395, R407 to R410, R419).
-/
namespace Sys2Proof.Machine

def rolSlice (l : Nat) : Nat := l % 32
/-- Slice and set of a line as one number (R391). -/
def rolSet (l : Nat) : Nat := l % 32 * 8192 + l / 32 % 8192

def rolEntry (c : Chip) (l : Nat) : Option RollEntry := kvFind c.rol.entries l

def setRol (l : Nat) (e : RollEntry) (c : Chip) : Chip :=
  { c with rol := { c.rol with entries := kvPut c.rol.entries l { e with stamp := c.rol.clock }, clock := c.rol.clock + 1 } }

def freeRol (l : Nat) (c : Chip) : Chip := { c with rol := { c.rol with entries := kvErase c.rol.entries l } }

/-- A host has its ROL_GONE bit set (R407, R421). -/
def hostGone (c : Chip) (h : Nat) : Bool := bit (getFi c ROL_GONE_GONE 0 (h / 32)) (h % 32)

def setGone (h : Nat) (on : Bool) (c : Chip) : Chip :=
  let v := getFi c ROL_GONE_GONE 0 (h / 32)
  setFi ROL_GONE_GONE 0 (h / 32) (if on then setBit v (h % 32) else clearBit v (h % 32)) c

/-- Hosts whose pool face holds an ACCEPTED SHARED window covering the line (R394, R419). -/
def windowHosts (c : Chip) (l : Nat) : List Nat :=
  (c.bnd.live.filter fun e => isPool e.2 && e.2.shared && e.2.state == 1 && !e.2.remote && e.2.pbase ≤ tileOfLine l &&
    tileOfLine l < e.2.pbase + e.2.size).foldl
    (fun hs e => match hostOf c e.2.port with
      | some h => addNew hs h
      | none => hs) []

/-- The live SHARED window through which a pool face holds a line (07_switch_core.md R249). -/
def shareWin (c : Chip) (p l : Nat) : Option Window :=
  (c.bnd.live.find? fun w => isPool w.2 && w.2.shared && !w.2.remote && w.2.port == p && w.2.pbase ≤ tileOfLine l &&
    tileOfLine l < w.2.pbase + w.2.size).map (·.2)

/-- XBR can translate a line's address for a host (R249). -/
def translates (c : Chip) (l h : Nat) : Bool := (faceOf c h).any fun p => (shareWin c p l).isSome

/-- Hosts an entry lists that a snoop can reach: pointers, or the members of set groups that hold the window (R394). A
host whose window is gone has no address for the line, and counts as having answered BIRspI as in a coarse snoop (log
entry 110). -/
def listedHosts (c : Chip) (l : Nat) (e : RollEntry) : List Nat :=
  if e.coarse then (windowHosts c l).filter fun h => e.groups.getLsbD (h / 8) else e.hosts.filter (translates c l)

/-- An entry that lists host h too (R393): a fifth host turns pointers into a coarse vector. -/
def addHost (e : RollEntry) (h : Nat) : RollEntry :=
  if e.coarse then { e with groups := e.groups ||| (1#32 <<< (h / 8)) }
  else if e.hosts.contains h then e
  else if e.hosts.length < 4 then { e with hosts := e.hosts ++ [h] }
  else { e with coarse := true, hosts := [],
                groups := (e.hosts ++ [h]).foldl (fun g x => g ||| (1#32 <<< (x / 8))) 0#32 }

/-- Host h taken out of a pointer entry that lists it; an entry with no host left is freed. A coarse vector keeps its bits
(R393, R635). -/
def removeHost (h l : Nat) (c : Chip) : Chip :=
  match rolEntry c l with
  | some e =>
    if e.coarse || !e.hosts.contains h then c
    else if (without e.hosts h).isEmpty then freeRol l c
    else setRol l { e with hosts := without e.hosts h, owned := false } c
  | none => c

def emptyRoll : RollEntry := { coarse := false, owned := false, hosts := [], groups := 0, stamp := 0 }

/-- The line OWNED by host h alone, or SHARED with h added. -/
def ownBy (h l : Nat) (c : Chip) : Chip := setRol l { emptyRoll with owned := true, hosts := [h] } c
def shareWith (h l : Nat) (c : Chip) : Chip :=
  setRol l { addHost ((rolEntry c l).getD emptyRoll) h with owned := false } c

/-- The owner of a line. -/
def ownerOf (c : Chip) (l : Nat) : Option Nat :=
  (rolEntry c l).bind fun e => if e.owned then e.hosts.head? else none

/-- A write of host h to line l that its pool face holds and the slice has not seen (R398). -/
def preSlice (c : Chip) (h l : Nat) : Bool :=
  c.txns.any fun t => t.kind == .wr && t.host == some h && t.line == l &&
    (t.stage == .shaper || t.stage == .slateIngress || t.stage == .devOrder)

/-- A snoop still waits for its host: unanswered, or its answer is behind an earlier write of that host (R398). -/
def snoopWaits (c : Chip) (s : Snoop) : Bool := !s.gone && (!s.answered || preSlice c s.host s.line)

/-- Open snoops to a host for a line. -/
def snoopOpen (c : Chip) (h l : Nat) : Bool :=
  c.rol.snoops.any fun s => s.host == h && s.line == l && snoopWaits c s

/-- A holder write: from the owner, or from a host to which a snoop of the line is open (R46, R478). -/
def holderWrite (c : Chip) (h l : Nat) : Bool := ownerOf c l == some h || snoopOpen c h l

/-- A line is locked by a transaction or an eviction (R402, R405). -/
def lineLocked (c : Chip) (l : Nat) : Bool := c.txns.any fun t => t.lock && t.line == l

/-- The first error is recorded (R408, R421). Causes: 0 OWNER_LOST, 1 ENTRY_UE, 2 PROTO, 3 ATOM_FAIL, 4 SNP_TIMEOUT;
the host is 0 for ENTRY_UE and ATOM_FAIL. -/
def noteRolErr (cause host line : Nat) (c : Chip) : Chip :=
  if isF c ROL_ERR_VALID 0 then c
  else setF ROL_ERR_VALID 0 1 (setF ROL_ERR_CAUSE 0 cause (setF ROL_ERR_HOST 0 host
    (setF64 ROL_ERR_LINE_LO_LINE ROL_ERR_LINE_HI_LINE 0 line c)))

end Sys2Proof.Machine
end

