-- ==== Sys2Proof/Machine/Home.lean ====
section
/-!
DEFINITION. A pool access at the home: the lost-line table, the tile's slice, the device accesses it makes and what
their ends do (stages 8 to 10 of 15_mode_matrix.md R481; 09_tile_map.md R295 to R303, R311 to R314; 10_placement.md
R322, R343 to R346; 11_media_care.md R363, R367, R379, R380; 13_ordering.md R434, R443; 12_coherence.md R415, R416).
-/
namespace Sys2Proof.Machine

/-! ### Lines, masks, kinds -/

/-- The bits of the bytes that a mask enables. -/
def maskLine (m : Mask) : Line :=
  (List.range 64).foldl (fun a i => if m.getLsbD i then a ||| (0xFF#512 <<< (8 * i)) else a) 0#512

/-- The enabled bytes of `new` over `old`. -/
def mergeLine (old new : Line) (m : Mask) : Line := (old &&& ~~~maskLine m) ||| (new &&& maskLine m)

def fullMask : Mask := BitVec.allOnes 64

def Ecc.none : Ecc := {}

/-- What is left for a line's lookups in the map cache, the roll and the ROUTE window of two requests that go as one. -/
def Ecc.join (a b : Ecc) : Ecc :=
  { mapUe := a.mapUe || b.mapUe, rolCor := a.rolCor || b.rolCor, rolUe := a.rolUe || b.rolUe,
    rolTagUe := a.rolTagUe || b.rolTagUe, rteCor := a.rteCor || b.rteCor, rteUe := a.rteUe || b.rteUe }

/-- A line of another SX1024's pool space is kept under its fabric switch ID (log entry 30). -/
def remoteLine (xid line : Nat) : Nat := (xid + 1) * 2 ^ 44 + line
def isRemoteLine (l : Nat) : Bool := 2 ^ 44 ≤ l
def remoteXid (l : Nat) : Nat := l / 2 ^ 44 - 1
/-- The line index that registers and logs show. -/
def shownLine (l : Nat) : Nat := l % 2 ^ 44

def isReadKind (k : TxnKind) : Bool := k == .rd || k == .exRd || k == .jobRd
def isWriteKind (k : TxnKind) : Bool :=
  k == .wr || k == .exWr || k == .drain || k == .jobWr || k == .poison || k == .ownerPoison

/-- A request of a host, as against one of the part itself. -/
def hostKind (k : TxnKind) : Bool := k == .rd || k == .wr || k == .inv || k == .atom

/-- A full-line write (13_ordering.md R428); poison writes are none, and neither is a partial write that a sealed window makes
whole (20_security.md R579). -/
def fullLineWrite (t : Txn) : Bool :=
  ((t.kind == .wr || t.kind == .exWr || t.kind == .drain) && t.mask == fullMask && !t.readDone) || t.kind == .jobWr

/-- The access reads and then writes the line as one: an atomic, or a partial write to a sealed window (R415,
20_security.md R579). -/
def readWrites (t : Txn) : Bool := t.kind == .atom || (t.rtype == 3 && isWriteKind t.kind && t.mask != fullMask)

/-- The next thing the access does at home is a read. -/
def readPhase (t : Txn) : Bool := isReadKind t.kind || (readWrites t && !t.readDone)

/-- A transaction put on the list. -/
def addTxn (t : Txn) (c : Chip) : Chip := { c with txns := c.txns ++ [t] }

/-- A transaction waits at a stage. -/
def waitAt (t : Txn) (st : Stage) (c : Chip) : Chip := putTxn { t with stage := st } c

/-! ### Answers (01_architecture.md R42, R43; 06_ports.md R227) -/

/-- An answer to a host: discarded after its link went down, or when the tenancy's generation has passed on. -/
def answerHost (t : Txn) (a : HostAns) (c : Chip) : Chip :=
  if t.lostLink then count .prt t.port 8 c
  else match t.ten with
    | some x => if tenGen c x == t.gen then send (.host t.port t.tag a) c else count .ten x 5 c
    | none => send (.host t.port t.tag a) c

/-- The state granted in a shared window: what MetaValue asks for (R395). -/
def grantOf (t : Txn) : Option MetaVal := if t.shared && t.mv != .i then some t.mv else none

/-! ### The slate over home data (R434) -/

def slateOn (c : Chip) (p l : Nat) : List SlateEntry := c.slt.entries.filter fun e => e.port == p && e.line == l
def openOn (c : Chip) (p l : Nat) : Option SlateEntry := (slateOn c p l).find? fun e => !e.draining
def drainingOn (c : Chip) (p l : Nat) : Option SlateEntry := (slateOn c p l).find? fun e => e.draining

/-- The slate's entries of a line, in the order in which their bytes are laid over the home data: DRAINING, then OPEN. -/
def slateBytes (c : Chip) (p l : Nat) : List SlateEntry := (drainingOn c p l).toList ++ (openOn c p l).toList

/-- The bytes that a read took from its slate when it was decided, laid over the home data, and then those that the slate
holds now, the DRAINING entry's before the OPEN one's; poison stays unless they cover the line (R434). An entry that drained
in between is in the first, so that no acknowledged byte is missed. -/
def overlay (c : Chip) (t : Txn) (d : Line) (poison : Bool) : Line × Bool :=
  let es := slateBytes c t.port t.line
  let q := poison && es.foldl (fun m e => m ||| e.mask) t.overMask != fullMask
  (if q then 0#512 else es.foldl (fun x e => mergeLine x e.data e.mask) (mergeLine d t.overData t.overMask), q)

/-! ### The lost-line table (R443) -/

def isLost (c : Chip) (l : Nat) : Bool := c.slt.lost.any fun x => x.1 == l
def dropLost (l : Nat) (c : Chip) : Chip := { c with slt := { c.slt with lost := c.slt.lost.filter fun x => x.1 != l } }
def endPoisoning (l : Nat) (c : Chip) : Chip :=
  { c with slt := { c.slt with poisoning := without c.slt.poisoning l } }

/-- The lines of a tile that is freed or retired leave the table. -/
def dropLostTile (t : Nat) (c : Chip) : Chip :=
  { c with slt := { c.slt with lost := c.slt.lost.filter fun x => tileOfLine x.1 != t } }

/-! ### Ends of an access -/

/-- A line of a tenant job ends: whether its write failed, and whether its source was poisoned (10_placement.md
R353); of a job that a reset or a DISABLE has ended, nothing is noted (R354). -/
def jobNote (t : Txn) (failed poison : Bool) (c : Chip) : Chip :=
  match t.ten with
  | some x =>
    let s := tenSt c x
    if t.gen == tenGen c x then
      setTenSt x { s with job := { s.job with failed := s.job.failed || failed, poison := s.job.poison || poison } } c
    else c
  | none => c

/-- A job's line has been read: its write waits for the tenancy's shaper (10_placement.md R352). The copy's
destination line and its window's sharing stand in `dpa` and `res` of the read. -/
def jobWriteOf (t : Txn) (d : Line) (poison : Bool) : Txn :=
  { t with kind := .jobWr, line := t.dpa, shared := t.res == 1, data := d, poison := poison, mask := fullMask,
           stage := .shaper, lock := false, legs := [], marked := false, readDone := false, res := 0, ecc := t.ecc2 }

/-- The answer to another SX1024's request, over the pair of primary p: DRS with the line, or NDR for a write
(05_links.md R163), of epoch e. -/
def trunkAnswer (p tag e : Nat) (write : Bool) (d : Line) (poison : Bool) (c : Chip) : Chip :=
  trunkPost p { typ := if write then .ndr else .drs, lines := if write then 0 else 1,
                bucket := bucketOf p (getF c LNK_TSTAT_PEER_ID p), body := .rsp tag d poison, epoch := e } c

/-- A read ends with data or poison. -/
def finishRead (t : Txn) (d : Line) (poison : Bool) (c : Chip) : Chip :=
  match t.kind with
  | .rd =>
    let o := overlay c t d poison
    answerHost t (.memData o.1 o.2 (grantOf t)) (dropTxn t.id c)
  | .exRd => trunkAnswer t.port t.tag t.epoch false (if poison then 0#512 else d) poison (dropTxn t.id c)
  | .jobRd => putTxn (jobWriteOf t d poison) (jobNote t false poison c)
  | _ => dropTxn t.id c

/-- An atomic's value in a line. -/
def atomBits (w : AtomicWidth) : Nat :=
  match w with
  | .w4 => 32 | .w8 => 64 | .w16 => 128

def atomOld (a : AtomSpec) (l : Line) : Nat := (l.toNat / 2 ^ (8 * a.off)) % 2 ^ atomBits a.width

/-- The new value: FetchAdd wraps, CAS swaps on equality (R416). -/
def atomNew (a : AtomSpec) (old : Nat) : Nat :=
  let m := 2 ^ atomBits a.width
  match a.kind with
  | .fetchAdd => (old + a.operand.toNat) % m
  | .swap => a.operand.toNat % m
  | .cas => if old = a.compare.toNat % m then a.operand.toNat % m else old

/-- The line with the atomic's result in place of its operand bytes. -/
def atomLine (a : AtomSpec) (l : Line) : Line :=
  BitVec.ofNat 512 (l.toNat - atomOld a l * 2 ^ (8 * a.off) + atomNew a (atomOld a l) * 2 ^ (8 * a.off))

/-- A poison write has completed at every location of its tile (R443). -/
def poisonLanded (c : Chip) (t : Txn) : Bool :=
  let own := t.legs.filter fun g => g.slot < 2
  own.all (fun g => g.st == .ok) && (dataLocs c (tileOfLine t.line) (entryOf c (tileOfLine t.line))).length ≤ own.length

/-- Results of a write: 1 ok, 2 an error from the device, 3 the device's link went down, 4 the tile's state. -/
def finishWrite (t : Txn) (r : Nat) (c : Chip) : Chip :=
  let c1 := whenB (r == 1 && fullLineWrite t) (dropLost t.line) c
  match t.kind with
  | .wr => answerHost t (.cmp none) (dropTxn t.id (whenB (r != 1) (send (.hostErrLogged t.port)) c1))
  | .exWr => trunkAnswer t.port t.tag t.epoch true 0#512 (r != 1) (dropTxn t.id c1)
  | .drain =>
    if c1.slt.entries.any (fun e => e.txn == some t.id) then
      putTxn { t with stage := .done, res := r, lock := false, legs := [] } c1
    else dropTxn t.id c1
  | .poison => endPoisoning t.line (whenB (r == 1 && poisonLanded c1 t) (dropLost t.line) (dropTxn t.id c1))
  | .jobWr => jobNote t (r != 1) false (dropTxn t.id c1)
  | .atom =>
    match t.atom with
    | some a =>
      if r == 1 then answerHost t (.atomData (atomOld a t.old) false) (dropTxn t.id c1)
      else answerHost t .ca (raise .rolC 0 5 (noteRolErr 3 0 (shownLine t.line)
        (send (.hostErrLogged t.port) (dropTxn t.id c1))))
    | none => dropTxn t.id c1
  | _ => dropTxn t.id c1

/-- A MemInv ends with the state it asked for (R395, R635). -/
def finishInv (t : Txn) (c : Chip) : Chip := answerHost t (.cmp (grantOf t)) (dropTxn t.id c)

/-- An atomic whose read returned poison (R416). -/
def finishAtomPoison (t : Txn) (c : Chip) : Chip := answerHost t (.atomData 0 true) (dropTxn t.id c)

/-! ### Device accesses -/

/-- Care-region tiles of the device on a port (11_media_care.md R363). -/
def careTiles (c : Chip) (p : Nat) : Nat :=
  match carePageOf c p with
  | some d => getF c CAR_DEV_REGION_C d
  | none => 0

def inCareRegion (c : Chip) (w : Nat) : Bool := locTile w < careTiles c (locPort w)

/-- Reachable locations an access may use; one in a care region fails it there (R363). -/
def usableLocs (c : Chip) (tile : Nat) (e : Entry) : List (Nat × Nat) :=
  (liveLocs c tile e).filter fun l => !inCareRegion c l.2

def noteCareHit (tile : Nat) (e : Entry) (c : Chip) : Chip :=
  whenB ((liveLocs c tile e).any fun l => inCareRegion c l.2) (raise .carC 0 2) c

/-- One read sent to a device. -/
def issueRd (t : Txn) (l : Nat × Nat) (c : Chip) : Chip :=
  let g : Leg := { dport := locPort l.2, dtag := c.nextTxn, dtile := locTile l.2, slot := l.1, write := false,
                   st := .out, data := 0#512 }
  send (.devRd g.dport g.dtag g.dtile (lineInTile t.line))
    (putTxn { t with stage := .device, legs := t.legs ++ [g] } { c with nextTxn := c.nextTxn + 1 })

/-- The data and bytes a write puts on the device: a sealed window's lines are encrypted (20_security.md R579). -/
def wireData (t : Txn) : Line := if t.rtype == 3 then sealedForm t.sealTag t.line t.data else t.data
def wireMask (t : Txn) : Mask := if t.rtype == 3 then fullMask else t.mask

def writeLeg (t : Txn) (g : Nat) (l : Nat × Nat) : Leg :=
  { dport := locPort l.2, dtag := g, dtile := locTile l.2, slot := l.1, write := true, st := .out, data := wireData t }

/-- The writes of a line sent to every location they must reach, in one decision (R302, R343). -/
def issueWr (t : Txn) (ls : List (Nat × Nat)) (c : Chip) : Chip :=
  let gs := ls.mapIdx fun i l => writeLeg t (c.nextTxn + i) l
  forEach gs (fun g c => send (.devWr g.dport g.dtag g.dtile (lineInTile t.line) (wireMask t) g.data t.poison) c)
    (putTxn { t with stage := .device, legs := gs }
      (whenB (t.rtype == 3) (count .sec 0 6) { c with nextTxn := c.nextTxn + gs.length }))

/-! ### Remote windows (08_binding.md R268; 05_links.md R192 to R195) -/

/-- Marks for a tile of another home, gathered for the pair; repeats merge, and the oldest of 4,096 is dropped. That a
merged delta stops at 255, that a merged record keeps its place and its age, and that a record dropped for room is counted
on the primary's page, are DESIGN CHOICES (log entry 99): R195 gives none of them. -/
def gatherMark (p tile rd wr : Nat) (c : Chip) : Chip :=
  let l := kvGet [] c.lnk.marks p
  let put (l : List MarkWait) (c : Chip) : Chip := { c with lnk := { c.lnk with marks := kvSet [] c.lnk.marks p l } }
  if l.any fun m => m.tile == tile then
    put (l.map fun m => if m.tile = tile then { m with rd := min 255 (m.rd + rd), wr := min 255 (m.wr + wr) } else m) c
  else if l.length < 4096 then put (l ++ [{ tile := tile, rd := rd, wr := wr }]) c
  else put (l.drop 1 ++ [{ tile := tile, rd := rd, wr := wr }]) (count .lnk p 10 c)

def remoteLeg (p : Nat) (t : Txn) (g : Nat) (write : Bool) : Leg :=
  { dport := p, dtag := g, dtile := 0, slot := 0, write := write, st := .out, data := t.data }

/-- Read and write marks that an access makes (R322): an atomic makes one of each. -/
def marksOf (t : Txn) : Nat × Nat :=
  match t.kind with
  | .rd | .jobRd => (1, 0)
  | .wr | .drain | .jobWr => (0, 1)
  | .atom => (1, 1)
  | _ => (0, 0)

/-- The access crosses the trunk pair that the ROUTE window names. -/
def remoteGo (t : Txn) (p : Nat) (write : Bool) (c : Chip) : Chip :=
  let m := marksOf t
  let c1 := whenB (!t.marked && (m.1 != 0 || m.2 != 0)) (gatherMark p (tileOfLine (shownLine t.line)) m.1 m.2) c
  trunkPost p { typ := if write then .rwd else .memReq, lines := b2n write, bucket := bucketOf t.port (remoteXid t.line)
                body := .req c1.nextTxn (remoteXid t.line) (shownLine t.line * 64) write t.mask t.data t.poison, epoch := t.epoch }
    (putTxn { t with stage := .remote, marked := true, legs := t.legs ++ [remoteLeg p t c1.nextTxn write] }
      { c1 with nextTxn := c1.nextTxn + 1 })

/-- The pair toward an access's home: its primary, if a ROUTE window names one (R279). -/
def remotePair (c : Chip) (t : Txn) : Option Nat :=
  match routeOf c (remoteXid t.line) with
  | some w => if trunk c w.target then some w.target else none
  | none => none

/-- The lookup of the ROUTE window toward the home counts at the requester's slice, and meets what errors the table has
(R264, R288). -/
def routeLookup (t : Txn) (c : Chip) : Chip :=
  windowEcc t.ecc.rteCor t.ecc.rteUe ((routeMatch c (remoteXid t.line)).map (·.1)) (countQ .bnd 0 2 (bndSlice t.port) c)

/-- No ROUTE window leads to the home (R280). -/
def routeMiss (t : Txn) (c : Chip) : Chip := noteMiss 1 t.port (remoteXid t.line) c

/-! ### The write at home -/

/-- Marks made once, at the slice (R322). -/
def markFor (t : Txn) (c : Chip) : Chip :=
  let m := marksOf t
  if t.marked then c else markTile (tileOfLine t.line) m.1 m.2 c

/-- Marks of an entry since its last write-back that no sweep has gathered (09_tile_map.md R313). -/
def unsavedMarks (c : Chip) (t : Nat) : Nat :=
  match kvFind c.map.cache (mapLineOf t) with
  | some x =>
    let e := (x.e[t % 4]?).getD Entry.zero
    let b := (x.base[t % 4]?).getD (0, 0)
    (e.rmark - b.1) + (e.wmark - b.2)
  | none => 0

/-- A cached entry is fetched again in place; its siblings in the line stay as they are (R313). -/
def refetchEntry (t : Nat) (e : Entry) (c : Chip) : Chip :=
  match kvFind c.map.cache (mapLineOf t) with
  | some x =>
    let b := (List.range 4).map fun j => if j = t % 4 then (e.rmark, e.wmark) else (x.base[j]?).getD (0, 0)
    let y := { x with e := mapAt x.e (t % 4) (fun _ => e), base := b }
    { c with map := { c.map with cache := kvPut c.map.cache (mapLineOf t) y } }
  | none => c

/-- An uncorrectable cached entry is fetched again from the stored copies: of its line, its own marks alone are lost. An
entry that no copy holds yet cannot be fetched; with both copies lost it is served as LOST from then on (R310, R313). -/
def mapEcc (t : Txn) (c : Chip) : Chip :=
  let tile := tileOfLine t.line
  if t.ecc.mapUe && (cachedEntry c tile).isSome then
    let c1 := raise .map 0 0 (countN .map 0 6 none (unsavedMarks c tile) c)
    if mapSingle c = 3 then refetchEntry tile { Entry.zero with state := 4 } c1
    else refetchEntry tile (storedEntry c tile) c1
  else c

/-- An access stands between the read and the completion of the write that it makes as one (R415). -/
def holdsLine (u : Txn) : Bool :=
  readWrites u && (u.stage == .device || u.stage == .remote ||
    (u.readDone && (u.stage == .mapMiss || u.stage == .placeHold || u.stage == .moveHold)))

/-- Transaction i began to wait for its line before t: the list keeps that order (R344). -/
def waitsAhead (c : Chip) (i : Nat) (t : Txn) : Bool :=
  t.stage != .writeOrder || ((c.txns.map (·.id)).takeWhile (· != t.id)).contains i

/-- Another access to the line is between its device write's issue and its completion, or holds the line as one
read and write, or, before an access that does not hold it, waits in front (R344, R415). -/
def writeBusy (c : Chip) (t : Txn) : Bool :=
  c.txns.any fun u => u.id != t.id && u.line == t.line &&
    ((u.stage == .device && u.legs.any fun g => g.write && g.st == .out) || holdsLine u ||
     (u.stage == .writeOrder && !t.readDone && waitsAhead c u.id t))

/-- An access waits at a stage behind those that wait there already; one that waits there keeps its place. -/
def waitLast (t : Txn) (st : Stage) (c : Chip) : Chip :=
  if t.stage == st then putTxn t c else addTxn { t with stage := st } (dropTxn t.id c)

/-- What holds an access to a line of another home: an atomic of this part, or one that waits in front (R415). Only atomics
and CXL.mem writes are held. -/
def writeHeld (c : Chip) (t : Txn) : Bool := t.kind != .drain && t.kind != .jobWr && writeBusy c t

/-- A first write to an UNPLACED tile is held, and its PLACE item requested (R314). -/
def holdFirst (t : Txn) (c : Chip) : Chip :=
  let tile := tileOfLine t.line
  let c1 := ringPut { kind := 0, tile := tile, loc := 0 } (waitAt t .placeHold c)
  { c1 with map := { c1.map with placing := addNew c1.map.placing tile } }

def setRakSlot (k : Nat) (s : RakSt) (c : Chip) : Chip :=
  { c with rak := { c.rak with slots := kvPut c.rak.slots k s } }

/-- The move of a tile has lost its destination, unless its flip was requested first (R346). -/
def failDest (tile : Nat) (c : Chip) : Chip :=
  match slotOfTile c tile with
  | some (k, s) => if s.flipAsked then c else setRakSlot k { s with dstFailed := true } c
  | none => c

/-- A write to a placed tile: held for a claimed line, else sent to every location it must reach (R302, R343). -/
def writeMove (t : Txn) (e : Entry) (c : Chip) : Chip :=
  let tile := tileOfLine t.line
  match moveSide c tile (lineInTile t.line) e with
  | .hold => count .rak 0 6 (waitAt t .moveHold c)
  | side =>
    let ls := usableLocs c tile e
    let c1 := noteCareHit tile e c
    if ls.isEmpty then finishWrite t 4 c1
    else if side == .both then
      if inCareRegion c e.dest then issueWr t ls (failDest tile (raise .carC 0 2 c1))
      else if locReach c e.twin e.dest then count .rak 0 5 (issueWr t (ls ++ [(2, e.dest)]) c1)
      else issueWr t ls (failDest tile c1)
    else issueWr t ls c1

/-- A write meets the entry of its tile (R295). -/
def writeAt (t : Txn) (e : Entry) (c : Chip) : Chip :=
  let tile := tileOfLine t.line
  if t.kind == .poison && (e.state == 0 || c.map.placing.contains tile) then finishWrite t 4 c
  else if c.map.placing.contains tile then waitAt t .placeHold c
  else if e.state == 0 then holdFirst t c
  else if e.state == 1 || e.state == 2 || e.state == 3 then
    (if writeBusy c t then waitLast t .writeOrder c else writeMove t e c)
  else finishWrite t 4 c

/-- A write, or the write of an atomic, at the home. -/
def homeWrite (t : Txn) (c : Chip) : Chip :=
  if isRemoteLine t.line then
    if writeHeld c t then waitLast t .writeOrder c
    else
    let c1 := routeLookup t c
    match remotePair c1 t with
    | some p => remoteGo { t with legs := [], ecc := Ecc.none } p true c1
    | none => finishWrite t 4 (routeMiss t c1)
  else
    let c1 := count .map 0 2 (mapEcc t c)
    let t1 := { t with ecc := Ecc.none }
    match mapLookup c1 (tileOfLine t.line) with
    | none => count .map 0 3 (waitAt t1 .mapMiss c1)
    | some e => writeAt { t1 with marked := true, legs := [] } e (markFor t c1)

/-! ### The read at home -/

/-- The line's plain data from what a device returned (20_security.md R579). -/
def plainData (t : Txn) (d : Line) : Line := if t.rtype == 3 then clearForm t.sealTag t.line d else d

/-- The read phase ends: a read ends with it, an atomic or a sealed partial write goes on to its write (R415, R416). -/
def readReturned (t : Txn) (d : Line) (poison : Bool) (c : Chip) : Chip :=
  if isReadKind t.kind then finishRead t d poison c
  else match t.atom with
    | some a =>
      if poison then finishAtomPoison t c
      else homeWrite { t with data := atomLine a d, mask := fullMask, old := d, readDone := true } c
    | none =>
      homeWrite { t with data := mergeLine d t.data t.mask, mask := fullMask, readDone := true, poison := poison } c

/-- A read meets the entry of its tile (R295). -/
def readAt (t : Txn) (e : Entry) (c : Chip) : Chip :=
  let tile := tileOfLine t.line
  if c.map.placing.contains tile then waitAt t .placeHold c
  else if e.state == 0 then readReturned t 0#512 false c
  else if e.state == 1 || e.state == 2 || e.state == 3 then
    (if readWrites t && writeBusy c t then waitLast t .writeOrder c
     else
      let c1 := noteCareHit tile e c
      match (usableLocs c tile e).head? with
      | some l => issueRd t l c1
      | none => readReturned t 0#512 true c1)
  else readReturned t 0#512 true c

/-- A read, or the read of an atomic, at the home: first the lost-line table, then the tile (stages 8 to 10). -/
def homeRead (t : Txn) (c : Chip) : Chip :=
  if isLost c t.line then readReturned t 0#512 true c
  else if isRemoteLine t.line && readWrites t && writeHeld c t then waitLast t .writeOrder c
  else if isRemoteLine t.line then
    let c1 := routeLookup t c
    match remotePair c1 t with
    | some p => remoteGo { t with legs := [], ecc := Ecc.none } p false c1
    | none => readReturned t 0#512 true (routeMiss t c1)
  else
    let c1 := count .map 0 2 (mapEcc t c)
    let t1 := { t with ecc := Ecc.none }
    match mapLookup c1 (tileOfLine t.line) with
    | none => count .map 0 3 (waitAt t1 .mapMiss c1)
    | some e => readAt { t1 with marked := true, legs := [] } e (markFor t c1)

/-- An access goes to the home. -/
def homeGo (t : Txn) (c : Chip) : Chip :=
  if t.kind == .inv then finishInv t c
  else if readPhase t then homeRead t c
  else homeWrite t c

/-! ### Ends of device accesses -/

/-- A defect of a cared device tile (11_media_care.md R367). -/
def carDefect (w : Nat) (c : Chip) : Chip :=
  match carePageOf c (locPort w) with
  | some d =>
    raise .carD d 1 (count .carD d 3
      { c with car := { c.car with defects := kvMod 0 c.car.defects w (· + 1) } })
  | none => c

/-- A mend queued for a poisoned line of a twin tile on a cared device (R380). -/
def queueMend (line : Nat) (bad : Bool) (port : Nat) (c : Chip) : Chip :=
  if (carePageOf c port).isNone then c
  else if c.car.mends.length < 256 then
    { c with car := { c.car with mends := c.car.mends ++ [{ line := line, bad := bad }] } }
  else raise .carC 0 4 { c with car := { c.car with mendDrops := c.car.mendDrops + 1 } }

/-- A read leg came back bad, or its location became unreachable: a reachable location that has returned nothing for this
access is tried, else the access reads poison (R379; 16_faults.md R507). -/
def retryRead (t : Txn) (c : Chip) : Chip :=
  let tile := tileOfLine t.line
  match (usableLocs c tile (entryOf c tile)).find? fun l => !t.legs.any fun g => g.st != .fail && locWord g.dport g.dtile == l.2 with
  | some l => issueRd t l c
  | none => readReturned t 0#512 true c

/-- Poison at one location and not at the other is mended (R380). -/
def noteMend (t : Txn) (c : Chip) : Chip :=
  match t.legs.find? fun g => g.st == .poison && g.slot < 2 with
  | some g => queueMend t.line (g.slot == 1) g.dport c
  | none => c

/-- A read leg ends. -/
def readLegEnd (t : Txn) (g : Leg) (st : LegSt) (d : Line) (c : Chip) : Chip :=
  match st with
  | .ok =>
    let c1 := whenB (t.rtype == 3 && !isRemoteLine t.line) (count .sec 0 7) (noteMend t c)
    readReturned t (plainData t d) false c1
  | .poison => if isRemoteLine t.line then readReturned t 0#512 true c
               else retryRead t (carDefect (locWord g.dport g.dtile) c)
  | _ => if isRemoteLine t.line then readReturned t 0#512 true c else retryRead t c

/-- The result of a write whose legs have all ended, over its tile's own locations: the destination of a move does
not count (R302, R303, R346). -/
def writeResult (t : Txn) (link : Bool) (c : Chip) : Nat × Chip :=
  let own := t.legs.filter fun g => g.slot < 2
  let good := own.filter fun g => g.st == .ok
  if good.length = own.length then (1, c)
  else match good.head? with
    | some g => if hasSplit c (tileOfLine t.line) || c.map.splits.length < 256 then
        (1, addSplit (tileOfLine t.line) (g.slot == 1) c)
      else (if link then 3 else 2, c)
    | none => (if link then 3 else 2, c)

/-- A write leg ends; the last one ends the write. -/
def writeLegEnd (t : Txn) (g : Leg) (link : Bool) (c : Chip) : Chip :=
  let c1 := whenB (g.slot == 2 && g.st != .ok) (failDest (tileOfLine t.line)) (putTxn t c)
  if t.legs.any fun x => x.st == .out then c1
  else if isRemoteLine t.line then finishWrite t (if g.st == .ok then 1 else if link then 3 else 2) c1
  else
    let r := writeResult t link c1
    finishWrite t r.1 r.2

/-- Leg `g` of transaction `t` ends with a status. -/
def legEnd (t : Txn) (g : Leg) (st : LegSt) (link : Bool) (d : Line) (c : Chip) : Chip :=
  let g1 := { g with st := st }
  let t1 := { t with legs := t.legs.map fun x => if x.dport == g.dport && x.dtag == g.dtag then g1 else x }
  if g.write then writeLegEnd t1 g1 link c else readLegEnd t1 g1 st d (putTxn t1 c)

/-- The outstanding leg that a device's completion names. -/
def findLeg (c : Chip) (dport dtag : Nat) : Option (Txn × Leg) :=
  c.txns.findSome? fun t => (t.legs.find? fun g => g.dport == dport && g.dtag == dtag && g.st == .out).map fun g => (t, g)

/-- What a device's status makes of a leg (11_media_care.md R379): an error is as poison for a read, a failure for a
write. -/
def legStatus (write : Bool) (st : DevStatus) : LegSt :=
  match st with
  | .ok => .ok
  | .poison => if write then .fail else .poison
  | .error => if write then .fail else .poison

/-- A completion from a device, or a timeout in its place: one that matches nothing outstanding is discarded
(06_ports.md R631). -/
def deviceAnswer (dport dtag : Nat) (st : DevStatus) (d : Line) (c : Chip) : Chip :=
  match findLeg c dport dtag with
  | some (t, g) => legEnd t g (legStatus g.write st) false d c
  | none => c

end Sys2Proof.Machine
end

