-- ==== Sys2Proof/Machine/Roll.lean ====
section
/-!
DEFINITION. The roll at work: departures, snoops and their close, line locks, the park, evictions and broadcasts
(12_coherence.md R395 to R410, R419).
-/
namespace Sys2Proof.Machine

/-- A transaction of the part itself, with nothing of a host in it. -/
def ownTxn (c : Chip) (k : TxnKind) (line : Nat) : Txn :=
  { id := c.nextTxn, kind := k, port := 0, host := none, tag := 0, ten := none, gen := 0, epoch := epochNow c, win := 0,
    dpa := 0, line := line, rtype := 0, shared := false, mv := .i, mask := fullMask, data := 0#512, poison := false,
    atom := none, stage := .device, lock := false, holder := false, legs := [], old := 0#512, readDone := false,
    marked := false, lostLink := false, res := 0, jobOff := 0, ecc := Ecc.none, owes := false,
    sealTag := 0 }

/-- A new transaction started: it is listed, and `f` takes it on. -/
def startTxn (t : Txn) (f : Txn → Chip → Chip) (c : Chip) : Chip :=
  f t (addTxn t { c with nextTxn := c.nextTxn + 1 })

/-! ### Trackers (R403) -/

/-- Locked lines of a slice, each once. -/
def lockedLines (c : Chip) (s : Nat) : List Nat :=
  ((c.txns.filter fun t => t.lock && rolSlice t.line == s).map (·.line)).foldl addNew []

/-- An atomic of a window with SHARED = 0 is at home: it locks no line (R415). -/
def atomHome (t : Txn) : Bool :=
  t.kind == .atom && !t.shared && !isRemoteLine t.line &&
    (t.stage == .device || t.stage == .mapMiss || t.stage == .placeHold || t.stage == .moveHold || t.stage == .writeOrder)

/-- Trackers of a slice in use: one for each locked line, a roll eviction's victim among them, and for each atomic at home
that locks none (R403). -/
def trackersUsed (c : Chip) (s : Nat) : Nat :=
  (lockedLines c s).length + (c.txns.filter fun t => atomHome t && rolSlice t.line == s).length

/-! ### Departures (R407 to R409) -/

/-- A writeback of a host for a line has been received and is under way, or came while a snoop of the line was
open. -/
def wroteBack (c : Chip) (h l : Nat) : Bool :=
  (c.txns.any fun t => t.holder && t.host == some h && t.line == l) ||
    c.rol.snoops.any fun s => s.host == h && s.line == l && s.wroteBack

/-- The poison write of an owner-lost line runs under the line's lock, which a request that waits for this write may hold
already; with no lock and no tracker it waits, before any other request for the line (R403, R408). -/
def ownerWrite (t : Txn) (c : Chip) : Chip :=
  if !lineLocked c t.line && 1024 ≤ trackersUsed c (rolSlice t.line) then waitLast t .lockWait c
  else homeGo { t with lock := true, stage := .device } (putTxn { t with lock := true, stage := .device } c)

/-- An owner-lost line is written at home as poisoned before anything else is served for it (R408). -/
def ownerLost (h l : Nat) (c : Chip) : Chip :=
  let c1 := countRol (rolSlice l) 10 none (raise .rolC 0 3 (noteRolErr 0 h l c))
  startTxn { ownTxn c1 .ownerPoison l with poison := true } ownerWrite c1

/-- What the scrub does to one entry for a departed host (R409). -/
def scrubEntry (h l : Nat) (e : RollEntry) (c : Chip) : Chip :=
  if e.coarse then c
  else if e.owned && e.hosts == [h] then
    (if wroteBack c h l then freeRol l c else ownerLost h l (freeRol l c))
  else if e.hosts.contains h then removeHost h l c
  else c

/-- Host h departs: its bit in ROL_GONE, its open snoops answered, and the scrub's visits (R407 to R409). `met`: its
face is out of L0 or reset at this moment (R410). -/
def departHost (h : Nat) (met : Bool) (c : Chip) : Chip :=
  let c0 := if met then { c with rol := { c.rol with goneMet := addNew c.rol.goneMet h } } else c
  if hostGone c h then c0
  else
    let c1 := event .rolC 0 0 (count .rolC 0 9 (setF ROL_STAT_SCRUB 0 1 (setGone h true c0)))
    let c2 := { c1 with rol := { c1.rol with snoops := c1.rol.snoops.map fun s =>
                  if s.host = h then { s with gone := true } else s } }
    forEach c2.rol.entries (fun e c => scrubEntry h e.1 e.2 c) c2

/-- The host of a pool face departs. -/
def departFace (p : Nat) (met : Bool) (c : Chip) : Chip :=
  match hostOf c p with
  | some h => departHost h met c
  | none => c

/-! ### The park (R400) -/

def parkedTxn (t : Txn) : Bool := (t.kind == .wr || t.kind == .exWr) && (t.stage == .parked || t.stage == .snoop)
def parkUsed (c : Chip) : Nat := (c.txns.filter parkedTxn).length

/-- A write moves into the park. -/
def notePark (t : Txn) (c : Chip) : Chip :=
  let c1 := countRol (rolSlice t.line) 7 none c
  setF ROL_PARK_HW_HW 0 (max (getF c1 ROL_PARK_HW_HW 0) (parkUsed c1)) c1

/-- A request waits for its line's lock or a tracker, behind those decided before it: a host's or a trunk's write in the
park, any other in its class or its source (R400 to R403). -/
def waitLock (t : Txn) (c : Chip) : Chip :=
  let t1 := { t with lock := false }
  if t.kind == .wr || t.kind == .exWr then
    whenB (t.stage != .parked) (notePark { t1 with stage := .parked }) (waitLast t1 .parked c)
  else waitLast t1 .lockWait c

/-! ### Closing a snoop (R395, R396, R404) -/

def snoopsOf (c : Chip) (i : Nat) : List Snoop := c.rol.snoops.filter fun s => s.txn == i

/-- Every answer is in, and every writeback and owner-lost poison of the line is at the device (R404, R408). -/
def snoopClosed (c : Chip) (t : Txn) : Bool :=
  ((snoopsOf c t.id).all fun s => !snoopWaits c s) &&
    !c.txns.any fun u => u.id != t.id && u.line == t.line && (u.holder || u.kind == .ownerPoison)

/-- What a snoop was answered with: a departed host counts as BIRspI (R407). -/
def answerOf (s : Snoop) : BiRsp := if s.gone then .i else s.rsp

/-- An answer's part in the entry: I removes the host, S leaves it a sharer, E changes nothing. -/
def applyAnswer (s : Snoop) (c : Chip) : Chip :=
  match answerOf s with
  | .i => removeHost s.host s.line c
  | .s => if s.typ == .data then
      (match rolEntry c s.line with
       | some e => setRol s.line { e with owned := false } c
       | none => c) else c
  | .e => c

/-- A host that has not departed is listed as a request asks. -/
def listHost (t : Txn) (f : Nat → Nat → Chip → Chip) (c : Chip) : Chip :=
  match t.host with
  | some h => if hostGone c h then c else f h t.line c
  | none => c

/-- The entry after a request is served (R395, R635, R414). -/
def entryAfter (t : Txn) (c : Chip) : Chip :=
  match t.kind with
  | .rd | .inv =>
    (match t.mv with
     | .i => if t.kind == .inv then listHost t removeHost c else c
     | .s => listHost t shareWith c
     | .a => listHost t ownBy (freeRol t.line c))
  | .wr => (if t.mv == .s then listHost t shareWith else id) (freeRol t.line c)
  | .jobRd | .exRd => c
  | _ => freeRol t.line c

/-- The snoop closes: answers and request change the entry, and the request goes to the home. -/
def closeSnoop (t : Txn) (c : Chip) : Chip :=
  let c1 := forEach (snoopsOf c t.id) applyAnswer c
  let c2 := { c1 with rol := { c1.rol with snoops := c1.rol.snoops.filter fun s => s.txn != t.id } }
  homeGo { t with stage := .device } (putTxn { t with stage := .device } (entryAfter t c2))

/-! ### Sending snoops (R247 to R249, R395) -/

/-- The address by which a host knows a line (R249). -/
def hostDpa (c : Chip) (p l : Nat) : Nat :=
  match shareWin c p l with
  | some w => w.hbase * 2097152 + (l * 64 - w.pbase * 2097152)
  | none => 0

def snpCode (s : SnpType) : Nat :=
  match s with
  | .inv => 0 | .cur => 1 | .data => 2

/-- A snoop to host h is open, with the tag its pool face sets. -/
def openSnoop (t : Txn) (typ : SnpType) (h : Nat) (c : Chip) : Chip :=
  match faceOf c h with
  | some p =>
    let s : Snoop := { tag := c.rol.nextTag, txn := t.id, host := h, port := p, line := t.line, typ := typ,
                       answered := false, rsp := .i, gone := false, wroteBack := false }
    countRol (rolSlice t.line) 3 (some (snpCode typ))
      { c with rol := { c.rol with snoops := c.rol.snoops ++ [s], nextTag := c.rol.nextTag + 1 } }
  | none => c

/-- A snoop leaves on its face. -/
def sendSnoop (s : Snoop) (c : Chip) : Chip := send (.snoop s.port s.tag (hostDpa c s.port s.line) s.typ) c

/-- Cells of a group port's internal allotment in use (07_switch_core.md R241). -/
def internalUsed (c : Chip) (g : Nat) : Nat :=
  (c.xbr.pkts.filter fun k => k.internal && k.ingress / 16 == g).foldl (fun n k => n + k.cells) 0

/-- Waiting multicast packets are injected in their order while their group port's internal allotment of 128 cells has
room (07_switch_core.md R242, R247). -/
def injectWaiting : List Pkt → Chip → Chip
  | [], c => { c with xbr := { c.xbr with waiting := [] } }
  | k :: r, c =>
    if internalUsed c (k.ingress / 16) + k.cells ≤ 128 then
      injectWaiting r { c with xbr := { c.xbr with pkts := c.xbr.pkts ++ [k] } }
    else { c with xbr := { c.xbr with waiting := k :: r } }

def injectMore (c : Chip) : Chip := injectWaiting c.xbr.waiting c

/-- One multicast packet for the destinations in L0; the others are reported not delivered at once (R247, R248). It is
charged to the group port that serves its roll slice. -/
def injectMulticast (t : Txn) (ss : List Snoop) (c : Chip) : Chip :=
  let up := ss.filter fun s => inL0 c s.port
  let pkt : Pkt := { id := c.xbr.nextId, ingress := 16 * (Config.rollGroup (rolSlice t.line) % 64),
                     egress := up.map (·.port), typ := .biSnp, lines := 0, cells := 1, arrived := 1, paid := false,
                     relaxed := false, pbr := none,
                     sent := 0, mode := .saf, shared := false, held := false, internal := true, multicast := true,
                     repaid := false, snoopOf := some t.id, ten := none, epoch := t.epoch, pool := true, exportReq := none,
                     stalled := false, poisoned := false }
  let c1 := if up.isEmpty then c
            else injectMore { c with xbr := { c.xbr with waiting := c.xbr.waiting ++ [pkt], nextId := c.xbr.nextId + 1 } }
  forEach (ss.filter fun s => !inL0 c s.port) (fun s c => departHost s.host true c)
    (countRol (rolSlice t.line) 4 none c1)

/-- The snoops of a transaction leave: a unicast for one host, a multicast for more (R395). -/
def launchSnoops (t : Txn) (c : Chip) : Chip :=
  match snoopsOf c t.id with
  | [] => c
  | [s] => sendSnoop s c
  | ss => injectMulticast t ss c

/-- A locked transaction snoops hosts; with none to ask it closes at once. `onClose` ends the snoop. -/
def snoopHosts (t : Txn) (typ : SnpType) (hs : List Nat) (onClose : Txn → Chip → Chip) (c : Chip) : Chip :=
  let t1 := { t with stage := .snoop, lock := true }
  let c1 := launchSnoops t1 (forEach (hs.filter fun h => !hostGone c h) (openSnoop t1 typ) (putTxn t1 c))
  if snoopClosed c1 t1 then onClose t1 c1
  else whenB (parkedTxn t1) (notePark t1) c1

/-! ### Deciding a request (R395, R402 to R406, R419) -/

/-- The snoop a request needs, and its hosts. -/
def snoopFor (c : Chip) (t : Txn) : SnpType × List Nat :=
  match rolEntry c t.line with
  | none => (.inv, [])
  | some e =>
    let listed := listedHosts c t.line e
    let others := match t.host with
      | some h => without listed h
      | none => listed
    let owner := if e.owned then others else []
    match t.kind with
    | .rd | .inv =>
      (match t.mv with
       | .i => if t.kind == .inv then (.inv, []) else (.cur, owner)
       | .s => (.data, owner)
       | .a => (.inv, others))
    | .jobRd | .exRd => (.cur, owner)
    | .atom => (.inv, listed)
    | _ => (.inv, others)

/-- The request ends with an entry for its line. -/
def needsEntry (t : Txn) : Bool :=
  t.host.isSome && (((t.kind == .rd || t.kind == .inv) && t.mv != .i) || (t.kind == .wr && t.mv == .s))

/-- The line's use is noted, and the snoop its entry calls for starts. -/
def serveEntry (t : Txn) (c : Chip) : Chip :=
  let c1 := match rolEntry c t.line with
    | some e => setRol t.line e c
    | none => c
  let s := snoopFor c1 t
  snoopHosts t s.1 s.2 closeSnoop c1

/-- An eviction's or a broadcast's snoop closes: the entry is freed, and a request that waits for a way of the set
goes on (R405, R419). -/
def closeEvict (t : Txn) (c : Chip) : Chip :=
  let c1 := { c with rol := { c.rol with snoops := c.rol.snoops.filter fun s => s.txn != t.id } }
  let c2 := dropTxn t.id (freeRol t.line c1)
  match c2.txns.find? fun u => u.stage == .evictWait && rolSet u.line == rolSet t.line with
  | some u => serveEntry u c2
  | none => c2

/-- Ways of a line's set in use. -/
def waysUsed (c : Chip) (l : Nat) : List (Nat × RollEntry) := c.rol.entries.filter fun e => rolSet e.1 == rolSet l

/-- Locked requests of a line's set that write an entry when they are served, and have none (R405). -/
def entriesDue (c : Chip) (l : Nat) : Nat :=
  (c.txns.filter fun u => u.lock && u.stage != .evictWait && needsEntry u && rolSet u.line == rolSet l &&
    (rolEntry c u.line).isNone).length

/-- Requests of a line's set that wait for a way, beyond the entries that open evictions still free: a victim may have been
written back meanwhile (R405). -/
def waysAwaited (c : Chip) (l : Nat) : Nat :=
  (c.txns.filter fun u => u.stage == .evictWait && rolSet u.line == rolSet l).length -
    (c.txns.filter fun u => u.kind == .evict && rolSet u.line == rolSet l && (rolEntry c u.line).isSome).length

/-- Ways of a line's set that are in use or spoken for. -/
def waysTaken (c : Chip) (l : Nat) : Nat := (waysUsed c l).length + entriesDue c l + waysAwaited c l

/-- A full set gives up its least recently used way whose line is not locked; with none, or with no tracker, the
request waits (R405). -/
def evictFor (t : Txn) (c : Chip) : Chip :=
  match minBy (fun e => e.2.stamp) ((waysUsed c t.line).filter fun e => !lineLocked c e.1) with
  | none => waitLock t c
  | some v =>
    if 1023 ≤ trackersUsed c (rolSlice t.line) then waitLock t c
    else
      let c1 := countRol (rolSlice t.line) 8 none (putTxn { t with stage := .evictWait, lock := true } c)
      startTxn { ownTxn c1 .evict v.1 with lock := true, shared := true }
        (fun u c => snoopHosts u .inv (listedHosts c v.1 v.2) closeEvict c) c1

/-- A broadcast locks its line and asks every host of the window; while the line is locked it waits (R419). -/
def broadcastGo (u : Txn) (c : Chip) : Chip :=
  if lineLocked c u.line || 1024 ≤ trackersUsed c (rolSlice u.line) then waitLock u c
  else snoopHosts u .inv (windowHosts c u.line) closeEvict c

/-- An unreadable entry of a line starts a broadcast (R419). -/
def startBroadcast (l : Nat) (c : Chip) : Chip :=
  let c1 := countRol (rolSlice l) 11 none (raise .rolC 0 1 (noteRolErr 1 0 l c))
  startTxn { ownTxn c1 .evict l with shared := true } broadcastGo c1

/-- The request that met an unreadable entry waits behind the broadcast. -/
def broadcastFor (t : Txn) (c : Chip) : Chip :=
  startBroadcast t.line (waitLock { t with ecc := { t.ecc with rolUe := false } } c)

/-- A lookup at the slice is counted, and reports what the entry's SECDED corrected and a tag that cannot be read (R419). -/
def rollLook (t : Txn) (c : Chip) : Chip :=
  whenB t.ecc.rolTagUe (raise .rolC 0 6) (whenB t.ecc.rolCor (raise .rolC 0 0) (countRol (rolSlice t.line) 2 none c))

/-- A request is decided at its slice under the line's lock. -/
def rollDecide (t : Txn) (c : Chip) : Chip :=
  let c1 := rollLook t c
  let t1 := { t with ecc := { t.ecc with rolCor := false, rolTagUe := false } }
  if t1.ecc.rolUe then broadcastFor t1 c1
  else
    let c2 := whenB (t1.kind == .atom) (countRol (rolSlice t.line) 12 none) c1
    if needsEntry t1 && (rolEntry c2 t1.line).isNone && 16 ≤ waysTaken c2 t1.line then evictFor t1 c2
    else serveEntry { t1 with lock := true } c2

/-- A holder write: written at once, its host's listing as its MetaValue asks (R46, R395). A broadcast for an entry that it
finds unreadable follows it (R419). -/
def rollHolder (t : Txn) (h : Nat) (c : Chip) : Chip :=
  let crossed := snoopOpen c h t.line
  let c0 := whenB t.ecc.rolUe (startBroadcast t.line) (rollLook t c)
  let c1 := whenB crossed (countRol (rolSlice t.line) 6 none) c0
  let c2 := { c1 with rol := { c1.rol with snoops := c1.rol.snoops.map fun s =>
                if s.host = h ∧ s.line = t.line then { s with wroteBack := true } else s } }
  let c3 := match t.mv with
    | .i => removeHost h t.line c2
    | .s => (match rolEntry c2 t.line with
             | some e => setRol t.line { e with owned := false } c2
             | none => c2)
    | .a => c2
  let t1 := { t with holder := true, stage := .device, ecc := { t.ecc with rolCor := false, rolUe := false, rolTagUe := false } }
  homeGo t1 (putTxn t1 c3)

/-- Another request waits for the line. -/
def lineQueued (c : Chip) (t : Txn) : Bool :=
  c.txns.any fun u => u.id != t.id && u.line == t.line && (u.stage == .lockWait || u.stage == .parked)

/-- The slice takes a write for a holder write: of an unreadable entry it sees no owner, only its own open snoops (R46,
R419). -/
def holderHere (c : Chip) (t : Txn) : Bool :=
  t.kind == .wr && match t.host with
    | some h => if t.ecc.rolUe then snoopOpen c h t.line else holderWrite c h t.line
    | none => false

/-- A request for a shared line reaches its slice. -/
def rollGo (t : Txn) (c : Chip) : Chip :=
  if holderHere c t then rollHolder t (t.host.getD 0) c
  else if lineLocked c t.line || lineQueued c t || 1024 ≤ trackersUsed c (rolSlice t.line) then waitLock t c
  else rollDecide t c

end Sys2Proof.Machine
end

