-- ==== Sys2Proof/Machine/PoolCore.lean ====
section
/-!
DEFINITION. A pool face's requests from admission to the home: region types, slates and their drains, losses, the
shaper, and what goes on when something it waits for ends (15_mode_matrix.md R477 to R482; 13_ordering.md R423 to
R443; 14_tenancy_qos.md R455 to R462). The commands stand in Machine/Pool.lean and Machine/Slt.lean.
-/
namespace Sys2Proof.Machine

/-! ### Link credits of the pool path (05_links.md R163 to R165) -/

/-- Credits of a CXL.mem request: an RwD with its line, or a request without data (R163, R164). -/
def requestCredits (p : Nat) (write : Bool) (c : Chip) : Chip :=
  if write then freeCredits p .rwd 1 c else freeCredits p .memReq 0 c

/-- Credits of a CXL.io access: a posted request with its data, or a non-posted one. -/
def ioCredits (p : Nat) (write : Bool) (c : Chip) : Chip :=
  if write then freeCredits p .ioPosted 1 c else freeCredits p .ioNonPosted 0 c

/-- A request's credits are returned once the pool face has taken it; one that waits in the face's ingress withholds them
(13_ordering.md R430). -/
def takenCredits (p i : Nat) (write : Bool) (c : Chip) : Chip :=
  match txnOf c i with
  | some t => if t.stage == .slateIngress then putTxn { t with owes := true } c else requestCredits p write c
  | none => requestCredits p write c

/-! ### Stages 6 and 7 -/

/-- A request of a departed host ends without the roll (12_coherence.md R410). -/
def goneAnswer (t : Txn) (c : Chip) : Chip :=
  let a : HostAns := match t.kind with
    | .rd => .memData 0#512 true none
    | .atom => .ca
    | _ => .cmp none
  answerHost t a (send (.hostErrLogged t.port) (dropTxn t.id c))

def fromGoneHost (c : Chip) (t : Txn) : Bool :=
  hostKind t.kind &&
    match t.host with
    | some h => hostGone c h
    | none => false

/-- A shared window's request goes to the roll unless its host has departed, any other to the home; an atomic waits there for
a tracker (12_coherence.md R403). -/
def stage6 (t : Txn) (c : Chip) : Chip :=
  if t.shared then (if fromGoneHost c t then goneAnswer t c else rollGo t c)
  else if t.kind == .atom && !isRemoteLine t.line && 1024 ≤ trackersUsed c (rolSlice t.line) then waitLock t c
  else homeGo t c

/-! ### Drains (R431 to R433) -/

/-- QUAL of a drain that no row of R431 names: one that no counter selects by. -/
def otherTrigger : Nat := 8191

def setEntryOf (e : SlateEntry) (c : Chip) : Chip :=
  { c with slt := { c.slt with entries := c.slt.entries.map fun x => if x.id = e.id then e else x } }

def slateEntry (c : Chip) (i : Nat) : Option SlateEntry := c.slt.entries.find? fun e => e.id == i

/-- A port reset clears SLT_STAT and SLT_OCC_HW, while the entries it finds drain (R450). -/
def shedSlate (p : Nat) (c : Chip) : Chip :=
  setF SLT_OCC_HW_HW p 0
    { c with slt := { c.slt with entries := c.slt.entries.map fun e => if e.port = p then { e with shed := true } else e } }

/-- The drain write of an entry: the binding decision of its merge, a write of its tenancy from a host that holds
nothing (R433, R417). -/
def drainTxn (e : SlateEntry) (c : Chip) : Txn :=
  { ownTxn c .drain e.line with port := e.port, host := e.host, ten := some e.ten, epoch := e.epoch, win := e.win,
                                rtype := 1, shared := e.shared, mask := e.mask, data := e.data, ecc := e.ecc }

/-- An OPEN entry becomes DRAINING, or its trigger waits for a DRAINING entry of the same line (R431, R432). -/
def startDrain (trigger : Nat) (e : SlateEntry) (c : Chip) : Chip :=
  if e.draining then c
  else if (drainingOn c e.port e.line).isSome then
    setEntryOf { e with trig := some (e.trig.getD trigger) } c
  else
    let t := drainTxn e c
    startTxn t stage6 (countQ .slt e.port 4 trigger
      (setEntryOf { e with draining := true, trig := none, txn := some t.id } c))

/-- Entries named by number become DRAINING, in merge order. -/
def drainListed (trigger : Nat) (ids : List Nat) (c : Chip) : Chip :=
  forEach ids (fun i c => match slateEntry c i with
    | some e => startDrain trigger e c
    | none => c) c

def slateOcc (c : Chip) (p : Nat) : Nat := (c.slt.entries.filter fun e => e.port == p).length
/-- Entries that SLT_STAT and SLT_OCC_HW count: none that a port reset found there (R450). -/
def slateShown (c : Chip) (p : Nat) : Nat := (c.slt.entries.filter fun e => e.port == p && !e.shed).length
def openOf (c : Chip) (p : Nat) : List SlateEntry := c.slt.entries.filter fun e => e.port == p && !e.draining

/-- Occupancy above HIWAT drains the oldest OPEN entries until no more than LOWAT are OPEN: tested at each merge and each
drain decision (R431, 15_mode_matrix.md R483). -/
def pressureDrain (p : Nat) (c : Chip) : Chip :=
  if getF c SLT_WAT_HIWAT p < slateOcc c p then
    drainListed 1 (((openOf c p).take ((openOf c p).length - getF c SLT_WAT_LOWAT p)).map (·.id)) c
  else c

/-- A drain decision: an entry drains, and its slate's pressure is met. -/
def drainEntry (trigger : Nat) (e : SlateEntry) (c : Chip) : Chip := pressureDrain e.port (startDrain trigger e c)

/-- Entries drain in one decision, and the pressure of their slates is met. -/
def drainIds (trigger : Nat) (ids : List Nat) (c : Chip) : Chip :=
  forEach ((ids.filterMap fun i => (slateEntry c i).map (·.port)).foldl addNew []) pressureDrain (drainListed trigger ids c)

/-- Every OPEN entry that a test picks becomes DRAINING. -/
def drainWhere (trigger : Nat) (p : SlateEntry → Bool) (c : Chip) : Chip :=
  drainIds trigger ((c.slt.entries.filter fun e => !e.draining && p e).map (·.id)) c

/-- A write waits for an entry: the oldest OPEN entry drains, one at a time (R430, R431). -/
def waitDrain (p : Nat) (c : Chip) : Chip :=
  if c.slt.entries.any fun e => e.port == p && e.forWait then c
  else match (openOf c p).head? with
    | some e => drainEntry 2 { e with forWait := true } (setEntryOf { e with forWait := true } c)
    | none => c

/-! ### Merging (R429, R430, R485) -/

/-- The write's Cmp, and the end of its request (R429). -/
def mergeDone (t : Txn) (c : Chip) : Chip := count .slt t.port 2 (answerHost t (.cmp none) (dropTxn t.id c))

def mergeInto (t : Txn) (e : SlateEntry) (c : Chip) : Chip :=
  pressureDrain t.port
    (mergeDone t (setEntryOf { e with data := mergeLine e.data t.data t.mask, mask := e.mask ||| t.mask, ecc := Ecc.join e.ecc t.ecc } c))

def newEntry (t : Txn) (c : Chip) : SlateEntry :=
  { id := c.slt.nextId, port := t.port, line := t.line, ten := t.ten.getD 0, epoch := t.epoch, mask := t.mask,
    data := mergeLine 0#512 t.data t.mask, time := nowNs c, draining := false, trig := none, win := t.win,
    host := t.host, shared := t.shared, txn := none, forWait := false, ecc := Ecc.join Ecc.none t.ecc }

/-- A free entry taken: the high-water mark, the drains that pressure and PWR_WARN call for (R429, R431). -/
def takeEntry (t : Txn) (c : Chip) : Chip :=
  let e := newEntry t c
  let c1 := { c with slt := { c.slt with entries := c.slt.entries ++ [e], nextId := c.slt.nextId + 1 } }
  let c2 := setF SLT_OCC_HW_HW t.port (max (getF c1 SLT_OCC_HW_HW t.port) (slateShown c1 t.port)) c1
  let c3 := mergeDone t (count .slt t.port 3 c2)
  pressureDrain t.port (whenB c.pwr.warn (drainIds 5 [e.id]) c3)

/-- A write waits in its pool face's ingress (R430). -/
def waitIngress (t : Txn) (c : Chip) : Chip := waitAt t .slateIngress c

/-- A write merges if it can: into its line's OPEN entry, or into a free one; an OPEN entry of another tenancy drains
first (R485). -/
def merge (t : Txn) (c : Chip) : Chip :=
  match openOn c t.port t.line with
  | some e =>
    if some e.ten == t.ten then mergeInto t e c
    else
      let c1 := drainEntry otherTrigger e c
      if (openOn c1 t.port t.line).isSome then waitIngress t c1
      else if slateOcc c1 t.port < 1024 then takeEntry t c1
      else waitDrain t.port (waitIngress t c1)
  | none =>
    if slateOcc c t.port < 1024 then takeEntry t c else waitDrain t.port (waitIngress t c)

/-! ### Losses and freed entries (R441 to R443, R432) -/

/-- The entry leaves its slate, and every set that waits for it; a trigger that waited takes effect (R432). -/
def freeEntry (e : SlateEntry) (c : Chip) : Chip :=
  let s := tenSt c e.ten
  let s1 := { s with bells := s.bells.map fun b => { b with covers := without b.covers e.id },
                     job := { s.job with waitLines := without s.job.waitLines e.id } }
  let c1 := setTenSt e.ten s1
    { c with slt := { c.slt with entries := c.slt.entries.filter (fun x => x.id != e.id),
                                 drainAll := c.slt.drainAll.map fun d => (d.1, without d.2 e.id) } }
  match openOn c1 e.port e.line with
  | some o => (match o.trig with
               | some g => startDrain g o c1
               | none => c1)
  | none => c1

/-- The line enters the lost-line table, if it has room (R443). -/
def addLost (p l : Nat) (c : Chip) : Chip :=
  if isLost c l then c
  else if c.slt.lost.length < 262144 then { c with slt := { c.slt with lost := c.slt.lost ++ [(l, p)] } }
  else raise .slt p 2 c

/-- A slate line is declared lost (R442). -/
def declareLost (cause : Nat) (e : SlateEntry) (c : Chip) : Chip :=
  let c1 := addLost e.port e.line (addLoss e.ten (shownLine e.line) cause c)
  let c2 := if isF c1 SLT_ERR_VALID e.port then c1 else
    setF SLT_ERR_VALID e.port 1 (setF SLT_ERR_CAUSE e.port cause (setF SLT_ERR_TEN e.port e.ten
      (setF64 SLT_ERR_LINE_LO_LINE SLT_ERR_LINE_HI_LINE e.port (shownLine e.line) c1)))
  freeEntry e (event .slt e.port 0 (raise .slt e.port 0 (countQ .slt e.port 7 cause c2)))

/-- What an entry's SECDED finds when the entry is read: 0 nothing, 1 a corrected error, 2 an uncorrectable data error,
3 an address that cannot be read from either copy (R444). `f` goes on with an entry that can be read. -/
def withEntryEcc (ecc : Nat) (e : SlateEntry) (f : Chip → Chip) (c : Chip) : Chip :=
  match ecc with
  | 0 => f c
  | 1 => f (raise .slt e.port 1 c)
  | 2 => declareLost 4 e c
  | _ => freeEntry e (raise .slt e.port 3 c)

/-! ### Stage 5: region types (R423, R424, R430, R478, R479) -/

/-- An earlier access of the tenancy to the line of a device window is incomplete (R424). -/
def devBusy (c : Chip) (t : Txn) : Bool :=
  c.txns.any fun u => u.id < t.id && u.rtype == 2 && u.ten == t.ten && u.line == t.line

/-- A write of the port waits for a slate entry: later writes wait behind it (R430). -/
def ingressBlocked (c : Chip) (t : Txn) : Bool :=
  c.txns.any fun u => u.id != t.id && u.port == t.port && u.stage == .slateIngress

/-- A request of the host for ownership of the line holds the line's lock (R486). -/
def grantPending (c : Chip) (h l : Nat) : Bool :=
  c.txns.any fun u => u.lock && u.line == l && u.host == some h && (u.kind == .rd || u.kind == .inv) && u.mv == .a

/-- A write that merges: one to a slate window that is not a holder write (R478). While the slice runs a request of its host
for ownership, the write goes to the slice, to be a holder write after the grant (R486). -/
def mergesIn (c : Chip) (t : Txn) : Bool :=
  t.rtype == 1 && t.kind == .wr && !(t.shared && match t.host with
    | some h => holderWrite c h t.line || grantPending c h t.line
    | none => false)

/-- A request that must find no entry of its line in the port's slate (R413, R479). -/
def heldBySlate (c : Chip) (t : Txn) : Bool :=
  t.rtype == 1 && !(slateOn c t.port t.line).isEmpty &&
    (t.kind == .atom || (t.shared && (t.kind == .inv || (t.kind == .rd && t.mv != .i))))

/-- The entry drains, and the request waits until it is freed (R479). -/
def holdForSlate (t : Txn) (c : Chip) : Chip :=
  let c1 := waitAt t .slateHold c
  match openOn c1 t.port t.line with
  | some e => drainEntry otherTrigger e c1
  | none => c1

/-- A read takes the bytes of its slate's entries of the line with it, the DRAINING one's under the OPEN one's (R434). -/
def takeOverlay (c : Chip) (t : Txn) : Txn :=
  { t with overMask := (slateBytes c t.port t.line).foldl (fun m e => m ||| e.mask) 0#64,
           overData := (slateBytes c t.port t.line).foldl (fun x e => mergeLine x e.data e.mask) 0#512 }

/-- A read of a line that its slate holds: what the entry's SECDED finds is met before its bytes are taken (R434, R444). -/
def readSlate (t : Txn) (c : Chip) : Chip :=
  match (slateBytes c t.port t.line).head? with
  | some e =>
    let t1 := { t with ecc := { t.ecc with slt := 0 } }
    let c1 := withEntryEcc t.ecc.slt e id c
    stage6 (takeOverlay c1 t1) (putTxn (takeOverlay c1 t1) c1)
  | none => stage6 t c

/-- The region type's handling of a request that nothing of R430 holds. -/
def regionServe (t : Txn) (c : Chip) : Chip :=
  if mergesIn c t then merge t c
  else if heldBySlate c t then holdForSlate t c
  else if t.rtype == 2 && devBusy c t then waitAt t .devOrder c
  else if t.kind == .rd then readSlate t c
  else stage6 t c

def regionGo (t : Txn) (c : Chip) : Chip :=
  if t.kind == .atom && 2 ≤ t.rtype then answerHost t .ca (dropTxn t.id c)
  else if t.kind == .inv && !t.shared then finishInv t c
  else if t.kind == .wr && ingressBlocked c t then waitIngress t c
  else regionServe t c

/-- The earliest write that waits in a port's ingress. -/
def firstWaiting (c : Chip) (p : Nat) : Option Txn := c.txns.find? fun u => u.port == p && u.stage == .slateIngress

/-- The earliest write that waits in a port's ingress goes on if it can, and its credits are returned; an entry drains
for the next (R430). -/
def ingressNext (p : Nat) (c : Chip) : Chip :=
  match firstWaiting c p with
  | some u =>
    let c1 := regionServe { u with owes := false } c
    let c2 := whenB u.owes (takenCredits p u.id true) c1
    whenB ((firstWaiting c2 p).isSome && 1024 ≤ slateOcc c2 p) (waitDrain p) c2
  | none => c

/-! ### Stages 2 to 4: lookup, tenancy state, policer, shaper -/

/-- Tokens a request costs (R457). -/
def costOf (k : TxnKind) : Nat := if k == .atom then 2 else 1

/-- A request discarded by its tenancy's state, the policer or a full queue (R459). -/
def discardTxn (cause : Nat) (t : Txn) (c : Chip) : Chip :=
  let x := t.ten.getD 0
  let a : HostAns := match t.kind with
    | .rd => .memData 0#512 true none
    | .atom => .ca
    | _ => .cmp none
  answerHost t a (whenB (t.kind == .wr) (addLoss x (shownLine t.line) cause) (noteDiscard x cause c))

/-- A request enters the pool path: listed, and served as its region type says. -/
def admitNow (t : Txn) (c : Chip) : Chip := startTxn t regionGo c

/-- Requests that a pool face's 1,024 shaper slots hold (R461). -/
def faceQueued (c : Chip) (p : Nat) : Nat := (tenanciesOf c p).foldl (fun n x => n + (tenSt c x).queue.length) 0

/-- The shaper (R460); a request that finds its queue or its face's slots full is discarded (R461). -/
def shapeTxn (t : Txn) (c : Chip) : Chip :=
  let x := t.ten.getD 0
  let s := tenSt c x
  if !s.sEn then admitNow t c
  else if s.queue.isEmpty && shaperHolds c x (costOf t.kind) then admitNow t (shaperTake x (costOf t.kind) c)
  else if s.qmaxNow ≤ s.queue.length || 1024 ≤ faceQueued c t.port then discardTxn 7 t c
  else
    count .shpT x 3 (startTxn { t with stage := .shaper } (fun _ c => c)
      (setTenSt x { s with queue := s.queue ++ [t.id] } c))

/-- Tenancy state and policer (R455, R459). -/
def policeTxn (t : Txn) (c : Chip) : Chip :=
  let x := t.ten.getD 0
  if tenState c x != 1 then discardTxn 6 t c
  else if !policerHolds c x (costOf t.kind) then discardTxn 5 t c
  else shapeTxn t (count .shpT x 2 (policerTake x (costOf t.kind) c))

/-- A request as its lookup attributes it (08_binding.md R266). -/
def hostTxn (k : TxnKind) (p tag dpa w : Nat) (x : Window) (mv : MetaVal) (ecc : Ecc) (c : Chip) : Txn :=
  let l := poolAddr x dpa / 64
  { ownTxn c k (if x.remote then remoteLine x.xid l else l) with
      port := p, host := hostOf c p, tag := tag, ten := some x.ten, gen := tenGen c x.ten, win := w, dpa := dpa,
      rtype := x.rtype, shared := x.shared, mv := mv, ecc := ecc, sealTag := x.tag }

/-- A miss as the host sees it (R267). -/
def missAnswer (k : TxnKind) (p tag dpa : Nat) (c : Chip) : Chip :=
  let a : HostAns := if k == .rd then .memData 0#512 true none else .cmp none
  send (.host p tag a) (send (.hostErrLogged p) (noteMiss 0 p dpa c))

/-- CXL.mem traffic flows on a pool face: in L0 or L0P, and with Link IDE where the port requires it (R481 stage 1,
20_security.md R578). -/
def carriesMem (c : Chip) (p : Nat) : Bool :=
  hostReaches c p && (!isF c PRT_CFG_IDE_REQ p || isF c PRT_STAT_IDE_ON p)

/-- The window a request matches once its table's errors have been met; a sealed window counts only under Link IDE
(R264, R266, R426). -/
def servedWindow (c : Chip) (p dpa : Nat) : Option (Nat × Window) :=
  match poolMatch c p dpa with
  | some (w, x) => if x.rtype == 3 && !isF c PRT_STAT_IDE_ON p then none else some (w, x)
  | none => none

/-- The lookup of a request on a pool face, and of the face's host identity with it (R264, R266, R275). -/
def lookupFor (p dpa : Nat) (ecc : Ecc) (c : Chip) : Chip :=
  windowEcc ecc.hidCor ecc.hidUe (hostWindow c p)
    (windowEcc ecc.bndCor ecc.bndUe ((poolMatch c p dpa).map (·.1)) (countQ .bnd 0 2 (bndSlice p) c))

/-- A sealed window matches, whose accesses end as misses without Link IDE, on a port that requires it too (R481 stage 2,
R482). -/
def sealedHere (c : Chip) (p dpa : Nat) : Bool := hostReaches c p && (poolMatch c p dpa).any fun e => e.2.rtype == 3

/-- TEN counts what is attributed: 2 reads, 3 writes, 4 AtomicOps. -/
def countAttributed (k : TxnKind) (x : Nat) (c : Chip) : Chip :=
  match k with
  | .rd => count .ten x 2 c
  | .wr => count .ten x 3 c
  | .atom => count .ten x 4 c
  | _ => c

/-- A CXL.mem request on a pool face (R481). `f` gives the request its data. -/
def memGo (k : TxnKind) (p dpa tag : Nat) (mv : MetaVal) (ecc : Ecc) (f : Txn → Txn) (c : Chip) : Chip :=
  if !(carriesMem c p || sealedHere c p dpa) then c
  else
    let c1 := lookupFor p dpa ecc c
    match servedWindow c1 p dpa with
    | none => requestCredits p (k == .wr) (missAnswer k p tag dpa c1)
    | some (w, x) =>
      takenCredits p c1.nextTxn (k == .wr)
        (policeTxn (f (hostTxn k p tag dpa w x mv ecc c1)) (countAttributed k x.ten c1))

/-! ### The shaper queue (R460, R462) -/

/-- The head of a tenancy's shaper queue leaves; `free`: regardless of tokens. -/
def shaperHead (x : Nat) (free : Bool) (c : Chip) : Chip :=
  let s := tenSt c x
  match s.queue with
  | [] => c
  | i :: rest =>
    match txnOf c i with
    | none => setTenSt x { s with queue := rest } c
    | some t =>
      if free || shaperHolds c x (costOf t.kind) then
        let c1 := whenB (!free) (shaperTake x (costOf t.kind)) (setTenSt x { s with queue := rest } c)
        regionGo t (count .shpT x 4 c1)
      else c

/-- The whole queue leaves in order, as far as tokens allow or regardless of them. -/
def shaperFlush (x : Nat) (free : Bool) (c : Chip) : Chip :=
  forEach (tenSt c x).queue (fun _ c => shaperHead x free c) c

/-! ### Ended drains (R433, R441) -/

/-- A completed drain's entry is freed, or lost with the cause its result names: 1 ok, 2 DEVICE, 3 LINK, 4 STATE
(R433, R441). -/
def endDrain (t : Txn) (e : SlateEntry) (c : Chip) : Chip :=
  let c1 := dropTxn t.id c
  if t.res == 1 then freeEntry e c1 else declareLost (t.res - 2) e c1

/-- The drain of an entry whose write has ended. -/
def endedDrain (c : Chip) (p l : Nat) : Option (SlateEntry × Txn) :=
  match drainingOn c p l with
  | some e => match e.txn.bind (txnOf c) with
    | some t => if t.stage == .done then some (e, t) else none
    | none => none
  | none => none

/-! ### Bells (R436, R439) -/

/-- The bell value (R440), and the bell's end: the count of losses since the host's last bell starts again. -/
def bellValue (s : TenSt) (limit : Bool) : Nat :=
  b2n (s.nlost != 0) * 2 ^ 30 + b2n limit * 2 ^ 29 + b2n (s.ovf != 0) * 2 ^ 28 + min s.nlost 255 * 2 ^ 16 +
    (s.seq + 1) % 65536

/-- A bell's answer to its host, unless its generation has passed on or its link went down (R42, R439). -/
def bellAnswer (x : Nat) (b : Bell) (v : Nat) (c : Chip) : Chip :=
  if b.lostLink then count .prt b.port 8 c
  else if b.gen == tenGen c x then send (.host b.port b.tag (.ioData v)) c
  else count .ten x 5 c

/-- The first bell of a tenancy completes if every write it covers is visible or lost; an internal bell forms no
value and ends no interval (R466). -/
def bellFinish (x : Nat) (c : Chip) : Chip :=
  let s := tenSt c x
  match s.bells with
  | [] => c
  | b :: rest =>
    if !b.covers.isEmpty then c
    else if b.internal then setTenSt x { s with bells := rest } c
    else
      let v := bellValue s b.limit
      bellAnswer x b v (countQ .slt b.port 6 (b2n (s.nlost != 0))
        (setTenSt x { s with bells := rest, nlost := 0, seq := (s.seq + 1) % 65536 } c))

/-! ### Tenant jobs on the pool path (10_placement.md R352, R353) -/

def jobTxns (c : Chip) (x : Nat) : List Txn :=
  c.txns.filter fun t => t.ten == some x && (t.kind == .jobRd || t.kind == .jobWr)

/-- A job ends with a status, and its slot is free. -/
def jobEnd (x status : Nat) (c : Chip) : Chip :=
  let s := tenSt c x
  setTenSt x { s with job := { s.job with go := false, paused := false, chunk := false, started := false,
                                          waitLines := [], status := status } }
    { c with rak := { c.rak with slots := c.rak.slots.filter (fun e => e.2.work != .job x || e.2.stopping),
                                 jobs := without c.rak.jobs x } }

/-- A running chunk whose lines have all completed ends: the job ends with it, or is paused, or goes on. -/
def jobChunkEnds (x : Nat) (c : Chip) : Chip :=
  let s := tenSt c x
  if s.job.chunk && (jobTxns c x).isEmpty then
    let j := { s.job with chunk := false, bytes := min (s.job.bytes + 65536) s.job.len }
    let c1 := count .rak 0 8 (setTenSt x { s with job := j } c)
    if j.stopping then jobEnd x 4 c1
    else if j.failed then jobEnd x 5 c1
    else if j.len ≤ j.bytes then jobEnd x (if j.poison then 6 else 7) c1
    else if tenState c1 x == 2 then setTenSt x { tenSt c1 x with job := { j with paused := true } } c1
    else c1
  else c

/-! ### What goes on when something ended -/

/-- A waiting transaction goes on if what it waits for has ended. -/
def resumeTxn (i : Nat) (c : Chip) : Chip :=
  match txnOf c i with
  | none => c
  | some t =>
    match t.stage with
    | .snoop => if snoopClosed c t then (if t.kind == .evict then closeEvict t c else closeSnoop t c) else c
    | .writeOrder => if writeBusy c t then c else homeGo t c
    | .devOrder => if devBusy c t then c else stage6 t c
    | .slateHold =>
      if (slateOn c t.port t.line).isEmpty then stage6 t c
      else match openOn c t.port t.line with
        | some e => drainEntry otherTrigger e c
        | none => c
    | .shaper =>
      let x := t.ten.getD 0
      if (t.kind == .jobRd || t.kind == .jobWr) && (tenSt c x).queue.isEmpty && shaperHolds c x 1 then
        stage6 t (shaperTake x 1 c)
      else c
    | _ => c

/-- One pass over every waiting transaction, oldest first. -/
def settleOnce (c : Chip) : Chip := forEach (c.txns.map (·.id)) resumeTxn c

/-- Everything that can go on does: waiting transactions, ends of job chunks, epochs that have drained. -/
def settle (c : Chip) : Chip :=
  let c1 := settleOnce (settleOnce c)
  checkDrained (forEach (kvKeys c1.ten.st) jobChunkEnds c1)

/-! ### A device that leaves (16_faults.md R507, R632; 06_ports.md R224) -/

/-- The outstanding accesses at a device face. -/
def legsAt (c : Chip) (p : Nat) : List Nat :=
  c.txns.foldl (fun l t => l ++ (t.legs.filter fun g => g.dport == p && g.st == .out).map (·.dtag)) []

/-- An access outstanding at a location that has become unreachable is resolved: always when the link is down for
good; in Recovery only where the tile has another reachable location, or at the destination of a move. -/
def resolveLeg (p : Nat) (final : Bool) (dtag : Nat) (c : Chip) : Chip :=
  match findLeg c p dtag with
  | none => c
  | some (t, g) =>
    let tile := tileOfLine t.line
    let other := (liveLocs c tile (entryOf c tile)).any fun l => locPort l.2 != p
    if final || g.slot == 2 || other then legEnd t g .fail true 0#512 c else c

/-- Drains whose write ended with their device's link are lost at once (R441 cause LINK). -/
def linkLosses (c : Chip) : Chip :=
  forEach c.slt.entries (fun e c => match e.txn.bind (txnOf c) with
    | some t => if t.stage == .done && t.res == 3 then endDrain t e c else c
    | none => c) c

def deviceGone (p : Nat) (final : Bool) (c : Chip) : Chip :=
  settle (whenB final linkLosses (forEach (legsAt c p) (resolveLeg p final) c))

end Sys2Proof.Machine
end

