-- ==== Sys2Proof/Machine/Place.lean ====
section
/-!
DEFINITION. What the prefects know and how they choose: pans, fill, free device tiles, exclusions, destinations
(10_placement.md R320, R321, R331 to R336; 11_media_care.md R363, R368, R372, R374). The choice of a device tile on the
chosen device is the firmware's, and comes with the command (log entry 10).
-/
namespace Sys2Proof.Machine

/-! ### Tiles, devices, pans -/

/-- Tiles with an entry that is not all zeros, in the cache or in a stored copy. -/
def listedTiles (c : Chip) : List Nat :=
  let cached := c.map.cache.foldl (fun l x => l ++ [4 * x.1, 4 * x.1 + 1, 4 * x.1 + 2, 4 * x.1 + 3]) []
  (cached ++ (copyTiles c (if copyLive c 0 then 0 else 1)).filter fun t => (cachedEntry c t).isNone).filter
    fun t => entryOf c t != Entry.zero

/-- Device faces whose device is READY. -/
def readyFaces (c : Chip) : List Nat := (listedPages c PRT_DEV_RESULT).filter (devReady c)

def panOf (c : Chip) (p : Nat) : Nat := (prtSt c p).pan
def panFaces (c : Chip) (n : Nat) : List Nat := (readyFaces c).filter fun p => panOf c p == n
def panEnabled (c : Chip) (n : Nat) : Bool := getFi c MRK_PAN_CFG_EN 0 n != 0

/-- Tiles that pan n offers (R321). -/
def panCap (c : Chip) (n : Nat) : Nat :=
  (panFaces c n).foldl (fun s p => s + (getF c PRT_DEV_CAP_TILES p - mapTilesOn c p)) 0

/-- A move that copies nothing waits for its flip (R305): MAP holds it, and it has no destination. -/
def noCopy (c : Chip) (t : Nat) : Bool :=
  c.map.waiting.any fun w => match w with
    | .flip u _ drop => u == t && drop
    | _ => false

/-- Locations that an entry uses. -/
def entryLocs (c : Chip) (t : Nat) (e : Entry) : List Nat :=
  if e.state == 0 || e.state == 5 then []
  else [e.loc0] ++ (if e.twin then [e.loc1] else []) ++
    (if (e.state == 2 || e.state == 3) && !noCopy c t then [e.dest] else [])

/-- Locations released and not yet taken from the request ring. -/
def releasing (c : Chip) : List Nat :=
  (c.map.ring.filter fun i => i.kind == 2).map (·.loc) ++ c.map.waiting.filterMap fun w => match w with
    | .item i => if i.kind == 2 then some i.loc else none
    | _ => none

/-- Device tiles that a device's care records mark RETIRED (11_media_care.md R381). -/
def retiredLocs (c : Chip) (p : Nat) : List Nat :=
  match (diskAt c p).care with
  | some r => (r.recs.filter fun x => x.2.retired).map fun x => locWord p x.1
  | none => []

/-- Locations in use: held by an entry, about to be released, or retired. -/
def usedLocs (c : Chip) : List Nat :=
  ((listedTiles c).foldl (fun l t => l ++ entryLocs c t (entryOf c t)) [] ++ releasing c ++ c.car.retireLeft ++
    (kvKeys c.media.disks).foldl (fun l p => l ++ retiredLocs c p) []).foldl addNew []

/-- Tiles of a device in use, its care region among them (R363). -/
def usedOn (c : Chip) (used : List Nat) (p : Nat) : Nat :=
  careTiles c p + (used.filter fun w => locPort w == p && careTiles c p ≤ locTile w).length

def panUsed (c : Chip) (n : Nat) : Nat := (panFaces c n).foldl (fun s p => s + usedOn c (usedLocs c) p) 0

/-- The prefects run: an image is present, the part is useful, and no activation is under way (20_security.md R569,
R572; 03_power_start.md R112). -/
def prefectsRun (c : Chip) : Bool :=
  isF c SEC_STAT_PFX_OK 0 && stageDone c 14 && !isF c SEC_STAT_PFXLOAD 0

/-- CAR may start to write to media: no PWR_WARN stands (03_power_start.md R93), and the control plane runs
(11_media_care.md R378; 20_security.md R569, R572). -/
def careWrites (c : Chip) : Bool := !c.pwr.warn && prefectsRun c

/-- The prefects publish the tiles in use of each pan (R321). -/
def publishUsed (c : Chip) : Chip :=
  if prefectsRun c then
    forEach (List.range 4) (fun n c => setFi MRK_PAN_USED_TILES 0 n (panUsed c n) c) c
  else c

/-- The fill of a pan is at or above a percentage (R321, R332): a pan with no capacity is full. -/
def fillAtLeast (c : Chip) (n pct : Nat) : Bool := pct * panCap c n ≤ 100 * panUsed c n
def fillOk (c : Chip) (n : Nat) : Bool := !fillAtLeast c n (getFi c MRK_PAN_FILL_FILL_HI 0 n)

/-! ### Eligible pans (R331, R334) -/

def windowOfTile (c : Chip) (t : Nat) : Option Window := (windowsOverTile c t).head?.map (·.2)

def panBits (c : Chip) (t : Nat) : Nat :=
  match windowOfTile c t with
  | some x => x.pans
  | none => getF c MRK_UNBOUND_PANS 0

def eligible (c : Chip) (t : Nat) : List Nat :=
  (List.range 4).filter fun n => bit (panBits c t) n && panEnabled c n

/-- The window over a tile, of kind POOL or EXPORT, asks for twins (R334; 08_binding.md R262). -/
def wantsTwin (c : Chip) (t : Nat) : Bool := (windowOfTile c t).any (·.twin)

/-- The tile lies under a device window, which no heat move leaves or enters (13_ordering.md R425). -/
def underDevice (c : Chip) (t : Nat) : Bool :=
  (windowsOverTile c t).any fun w => w.2.kind == 1 && w.2.rtype == 2

/-! ### Devices (R332 step 4, R368, R374) -/

/-- What a destination is wanted for. -/
inductive WantKind where
  | heat | first | care
deriving DecidableEq, Repr

/-- A device is excluded as destination (R368, R383). -/
def excluded (c : Chip) (p : Nat) (k : WantKind) : Bool :=
  match carePageOf c p with
  | none => false
  | some d =>
    let s := getF c CAR_DEV_STAT_STATE d
    isF c CAR_DEV_STAT_TWSTALE d || s == 0 || 3 ≤ s || (s == 2 && k != .care)

def freeOn (c : Chip) (p : Nat) : Nat :=
  (getF c PRT_DEV_CAP_TILES p - mapTilesOn c p) - usedOn c (usedLocs c) p

/-- Tiles of a DENSE device kept for care moves (R374). -/
def spareOf (c : Chip) (p : Nat) : Nat :=
  match carePageOf c p with
  | some d => if getF c CAR_DEV_CFG_CLASS d = 1 then
      ((getF c PRT_DEV_CAP_TILES p - mapTilesOn c p - careTiles c p) * careF c CAR_DEV_THR_SPARE_PCT d + 99) / 100
    else 0
  | none => 0

def freeFor (c : Chip) (p : Nat) (k : WantKind) : Nat := if k = .care then freeOn c p else freeOn c p - spareOf c p

/-- The device of a pan with the most free tiles among those that may be used; the lowest port on a tie. -/
def bestDevice (c : Chip) (n : Nat) (k : WantKind) (avoid : List Nat) : Option Nat :=
  minBy (fun p => 2 ^ 32 - freeFor c p k)
    ((panFaces c n).filter fun p => !avoid.contains p && !excluded c p k && 0 < freeFor c p k)

/-- The firmware's device tile is one it may take: on the device that the rules choose, free and in no region. -/
def takesLoc (c : Chip) (n : Nat) (k : WantKind) (avoid : List Nat) (w : Nat) : Bool :=
  bestDevice c n k avoid == some (locPort w) && locValid c w && !inCareRegion c w && !(usedLocs c).contains w

def wordOf (l : Loc) : Nat := locWord l.port.val l.dtile.val

/-- The pan of lowest fill USED / CAP, the lowest number on a tie; a pan with no capacity counts as full (R321, R334). -/
def leastFilled (c : Chip) : List Nat → Option Nat
  | [] => none
  | n :: ns =>
    let used := fun p => if panCap c p = 0 then 1 else panUsed c p
    match leastFilled c ns with
    | some m => if used m * max 1 (panCap c n) < used n * max 1 (panCap c m) then some m else some n
    | none => some n

/-- Pans for a first placement, the best first (R334): the eligible ones under FILL_HI in order, else the eligible one
of lowest fill. -/
def firstPan (c : Chip) (t : Nat) : Option Nat :=
  match (eligible c t).find? (fillOk c) with
  | some n => some n
  | none => leastFilled c (eligible c t)

/-- The pan that a heat or misplaced move goes to (R332 step 2, R333): UP to the lowest eligible pan below, DOWN to the
nearest above, each under its FILL_HI. -/
def upPan (c : Chip) (t p : Nat) : Option Nat := (eligible c t).find? fun n => n < p && fillOk c n
def downPan (c : Chip) (t p : Nat) : Option Nat := (eligible c t).find? fun n => p < n && fillOk c n

end Sys2Proof.Machine
end

