-- ==== Sys2Proof/Machine/MapOps.lean ====
section
/-!
DEFINITION. Changes of map entries: the command interfaces and their refusals, moves and their requests, flips, aborts,
the ring's reservations (09_tile_map.md R297 to R306, R315, R636; 10_placement.md R338, R346 to R350). The commands of
the opcode table stand in Machine/Map.lean and Machine/Rak.lean.
-/
namespace Sys2Proof.Machine

/-! ### Command interfaces (R299) -/

/-- Interface 0 is software's, in the MAP page; interface 1 + f is form f's. -/
def ifaceNum : MapIface → Nat
  | .software => 0
  | .form f => 1 + f.val

/-- A field of interface i: its field in the MAP page, and the like field of a form page. -/
def getI (c : Chip) (i : Nat) (m p : Fld) : Nat := if i = 0 then getF c m 0 else getF c p (i - 1)
def setI (i : Nat) (m p : Fld) (v : Nat) (c : Chip) : Chip := if i = 0 then setF m 0 v c else setF p (i - 1) v c

def cmdGo (c : Chip) (i : Nat) : Bool := getI c i MAP_CMD_GO PFX_CMD_GO != 0
def cmdOp (c : Chip) (i : Nat) : Nat := getI c i MAP_CMD_OP PFX_CMD_OP
def cmdReason (c : Chip) (i : Nat) : Nat := getI c i MAP_CMD_REASON PFX_CMD_REASON
def cmdMslot (c : Chip) (i : Nat) : Bool := getI c i MAP_CMD_MSLOT PFX_CMD_MSLOT != 0
def cmdTwin (c : Chip) (i : Nat) : Bool := getI c i MAP_CMD_TWIN PFX_CMD_TWIN != 0
def cmdTile (c : Chip) (i : Nat) : Nat := getI c i MAP_CMD_TILE_TILE PFX_CMD_TILE_TILE
def cmdA (c : Chip) (i : Nat) : Nat := getI c i MAP_CMD_A_LOC PFX_CMD_A_LOC
def cmdB (c : Chip) (i : Nat) : Nat := getI c i MAP_CMD_B_LOC PFX_CMD_B_LOC

/-- The command of interface i ends with a status (R299, R300). -/
def mapEnd (i status : Nat) (c : Chip) : Chip :=
  let c1 := setI i MAP_CMD_GO PFX_CMD_GO 0 (setI i MAP_CMD_STATUS PFX_CMD_STATUS status c)
  if status = 1 then c1
  else whenB (i != 0) (count .pfxF (i - 1) 3) (countQ .map 0 9 status c1)

/-! ### Refusals (R300, R636) -/

/-- How a MOVE changes its tile (R636). -/
inductive MoveForm where
  | replace (slot1 : Bool) | addTwin | dropTwin | bad
deriving DecidableEq, Repr

def moveForm (twin mslot : Bool) (reason a b : Nat) : MoveForm :=
  if reason = 6 then
    if mslot then (if twin then (if a = b then .dropTwin else .replace true) else .addTwin)
    else if twin then .replace false else .bad
  else if mslot then (if twin then .replace true else .bad)
  else .replace false

/-- The location that must lie on another device than a MOVE's destination. -/
def twinPeer (f : MoveForm) (e : Entry) : Option Nat :=
  match f with
  | .replace true => some e.loc0
  | .replace false => if e.twin then some e.loc1 else none
  | .addTwin => some e.loc0
  | .dropTwin | .bad => none

def isMoving (e : Entry) : Bool := e.state == 2 || e.state == 3

/-- R297 permits the command from a state; an unreadable entry counts as the command requires, and READ changes nothing
(R299, R309). -/
def stateAllows (c : Chip) (op t : Nat) (e : Entry) : Bool :=
  if c.map.unreadable.contains t then op == 1 || op == 3 || op == 6 || op == 7
  else match op with
    | 1 => e.state == 0
    | 2 => e.state == 1 || e.state == 2 || e.state == 3 || e.state == 4
    | 3 => e.state == 0 || e.state == 1 || e.state == 4 || e.state == 5
    | 4 => isMoving e
    | 5 => e.state == 1 || isMoving e
    | 6 => e.state == 1 || e.state == 4
    | _ => true

/-- The source of a MOVE is reachable: of a twin tile, either location (R382). -/
def sourceReach (c : Chip) (e : Entry) : Bool := locReach c e.twin e.loc0 || (e.twin && locReach c e.twin e.loc1)

/-- The checks of a MOVE after its state (R300, R636). -/
def moveRefusal (c : Chip) (i : Nat) (e : Entry) : Nat :=
  let f := moveForm e.twin (cmdMslot c i) (cmdReason c i) (cmdA c i) (cmdB c i)
  if f = .bad then 6
  else if f = .dropTwin then 1
  else if !locValid c (cmdA c i) then 6
  else if (twinPeer f e).any fun w => locPort w == locPort (cmdA c i) then 7
  else if !sourceReach c e then 8
  else 1

/-- The checks of a PLACE after its state. -/
def placeRefusal (c : Chip) (i : Nat) : Nat :=
  if !locValid c (cmdA c i) || (cmdTwin c i && !locValid c (cmdB c i)) then 6
  else if cmdTwin c i && locPort (cmdA c i) == locPort (cmdB c i) then 7
  else 1

/-- The first condition of R300 that the command meets before its tile's entry is looked at; 1 when it meets none. -/
def earlyRefusal (c : Chip) (i : Nat) : Nat :=
  let op := cmdOp c i
  if op = 0 ∨ 8 ≤ op ∨ (op = 2 ∧ (cmdReason c i = 0 ∨ cmdReason c i = 7)) then 2
  else if !mapRunning c || mapSingle c == 3 then 3
  else if poolTiles c ≤ cmdTile c i then 4
  else 1

/-- The code of the first condition of R300 that the command meets; 1 when it meets none. -/
def mapRefusal (c : Chip) (i : Nat) : Nat :=
  let op := cmdOp c i
  let t := cmdTile c i
  let e := entryOf c t
  if earlyRefusal c i ≠ 1 then earlyRefusal c i
  else if !stateAllows c op t e then 5
  else if op = 1 then placeRefusal c i
  else if op = 2 then moveRefusal c i e
  else 1

/-! ### Ring room (R315) -/

/-- n slots of the ring are free for work that waits in front, or for new work behind nothing. -/
def ringRoom (c : Chip) (n : Nat) (front : Bool) : Bool :=
  (front || c.map.waiting.isEmpty) && c.map.ring.length + n ≤ 4096

/-- An item placed in a slot that was reserved. -/
def ringPush (k t w : Nat) (c : Chip) : Chip :=
  whenB c.map.ring.isEmpty (event .map 0 1)
    { c with map := { c.map with ring := c.map.ring ++ [{ kind := k, tile := t, loc := w }] } }

def pushReleases (t : Nat) (ls : List Nat) (c : Chip) : Chip := forEach ls (fun w c => ringPush 2 t w c) c

/-- Work waits for ring room: in order of arrival, or again in front (R315). -/
def ringWait (w : RingWait) (front : Bool) (c : Chip) : Chip :=
  { c with map := { c.map with waiting := if front then w :: c.map.waiting else c.map.waiting ++ [w] } }

/-- A tile's waiting flip or abort is dropped: its move has been stopped. -/
def ringForget (t : Nat) (c : Chip) : Chip :=
  { c with map := { c.map with waiting := c.map.waiting.filter fun w => match w with
      | .flip u _ _ | .abort u _ => u != t
      | .item _ | .command _ _ => true } }

/-! ### Fetched lines and orphans (R307) -/

/-- No engine holds the move of a MOVING or REWETTING tile. -/
def orphanTile (c : Chip) (t : Nat) : Bool :=
  isMoving (entryOf c t) && !c.rak.pending.contains t && !noCopy c t && !c.map.orphaned.contains t &&
    !c.map.unreadable.contains t

/-- An orphan found while the scan runs: its item, and the count. -/
def foundOrphan (t : Nat) (c : Chip) : Chip :=
  if isF c MAP_STAT_OSCAN 0 && orphanTile c t then
    ringPut { kind := 1, tile := t, loc := 0 } (bumpF MAP_STAT_ORPHANS 0 1
      { c with map := { c.map with orphaned := c.map.orphaned ++ [t] } })
  else c

/-- A line fetched from copy i into the cache, with the orphans found at the fetch; an entry that holds a reserved state
is unreadable (R295). -/
def fetchLine (i l : Nat) (c : Chip) : Chip :=
  let c1 := forEach (lineTiles l) foundOrphan (count .map 0 4 (fillLine i l c))
  forEach ((lineTiles l).filter fun t => 6 ≤ (entryOf c1 t).state && !c1.map.unreadable.contains t) noteUnreadable c1

/-- A tile's line is fetched where the cache does not hold it; one that neither copy returns is unreadable (R309, R311). -/
def fetchFor (t : Nat) (rd : CopyReads) (c : Chip) : Chip :=
  if (kvFind c.map.cache (mapLineOf t)).isSome then c
  else match fetchCopy c rd with
    | some i => fetchLine i (mapLineOf t) c
    | none => noteLineUnreadable t c

/-! ### What goes on after a change -/

/-- Transactions that wait at a stage for a tile go to the home again, oldest first. -/
def resumeStage (st : Stage) (t : Nat) (c : Chip) : Chip :=
  forEach (c.txns.map (·.id)) (fun i c => match txnOf c i with
    | some x => if x.stage == st && tileOfLine x.line == t then homeGo x c else c
    | none => c) c

/-- Writes that a claim of the tile's move held go on (R343, R346). -/
def resumeHeld (t : Nat) (c : Chip) : Chip := resumeStage .moveHold t c

/-- A slot is freed, its mends queued if its move has flipped (R380). -/
def dropSlot (k : Nat) (c : Chip) : Chip := { c with rak := { c.rak with slots := kvErase c.rak.slots k } }

/-- A twin's heat move that did not flip has no second MOVE (R335). -/
def forgetSecond (t : Nat) (c : Chip) : Chip :=
  { c with mrk := { c.mrk with secondMove := c.mrk.secondMove.filter fun m => m.tile != t } }

/-- A tile's slot stops claiming lines (R298, R350). -/
def stopMove (t : Nat) (c0 : Chip) : Chip :=
  let c := forgetSecond t c0
  let c1 := ringForget t { c with rak := { c.rak with pending := without c.rak.pending t } }
  match slotOfTile c1 t with
  | some (k, s) => setRakSlot k { s with stopping := true, flipAsked := false } c1
  | none => c1

/-! ### Limits of pending moves (R338) -/

/-- A MOVE would exceed 8,192 pending requests, or 8 of one map cache set. -/
def movesFull (c : Chip) (t : Nat) : Bool :=
  !c.rak.pending.contains t &&
    (8192 ≤ c.rak.pending.length ||
      8 ≤ (c.rak.pending.filter fun u => mapSliceSet (mapLineOf u) == mapSliceSet (mapLineOf t)).length)

/-! ### Applying a command (R297, R299) -/

/-- Locations that a command releases: at once, through reserved ring slots. -/
def cmdReleases (c : Chip) (op t : Nat) (e : Entry) : List Nat :=
  if c.map.unreadable.contains t then []
  else match op with
    | 2 | 4 | 5 => if isMoving e && !noCopy c t then [e.dest] else []
    | 6 => if e.twin then [e.loc0, e.loc1] else [e.loc0]
    | _ => []

/-- The state a tile held before it entered MOVING or REWETTING (R297). No entry stores it, so after a reset an orphan's
ABORT takes it back to RESIDENT (DESIGN CHOICE, log entry 127). -/
def beforeState (c : Chip) (t : Nat) : Nat := (kvFind c.map.before t).getD 1

/-- An entry whose move has ended without a flip (R297). -/
def abortedEntry (c : Chip) (t : Nat) (e : Entry) : Entry :=
  { e with state := beforeState c t, dest := 0, mslot := false, reason := 0 }

/-- The new entry of a command (R299). -/
def cmdEntry (c : Chip) (i t : Nat) (e : Entry) : Entry :=
  match cmdOp c i with
  | 1 => { Entry.zero with state := 1, twin := cmdTwin c i, loc0 := cmdA c i, loc1 := if cmdTwin c i then cmdB c i else 0 }
  | 2 => { e with state := if cmdReason c i = 2 then 3 else 2, dest := cmdA c i, mslot := cmdMslot c i,
                  reason := cmdReason c i }
  | 3 => { e with reason := 7 }
  | 4 => abortedEntry c t e
  | 5 => { e with state := 4, dest := 0, mslot := false, reason := 0 }
  | 6 => { e with state := 5, twin := false, loc0 := 0, loc1 := 0, dest := 0, mslot := false, reason := 0 }
  | _ => e

/-- The old entry of a command: an unreadable one has no locations to speak of (R309). -/
def oldEntry (c : Chip) (t : Nat) : Entry :=
  if c.map.unreadable.contains t then Entry.zero else entryOf c t

def forgetBefore (t : Nat) (c : Chip) : Chip := { c with map := { c.map with before := kvErase c.map.before t } }

/-! ### Flips (R305, R306) -/

/-- The entry at the flip point: the destination in the MSLOT location; UNPLACED for FREE. DEST and MSLOT stay as they are
(01_architecture.md R30). -/
def flippedEntry (e : Entry) (drop : Bool) : Entry :=
  let n := { e with state := 1, reason := 0, flips := (e.flips + 1) % 16 }
  if e.reason = 7 then { n with state := 0, twin := false, loc0 := 0, loc1 := 0 }
  else if drop then { n with twin := false, loc1 := 0 }
  else if e.mslot then { n with twin := true, loc1 := e.dest }
  else { n with loc0 := e.dest }

/-- Locations that the flip releases. -/
def flipReleases (e : Entry) (drop : Bool) : List Nat :=
  if e.reason = 7 then
    (if e.state == 1 || e.state == 4 then (if e.twin then [e.loc0, e.loc1] else [e.loc0]) else [])
  else if drop then [e.loc1]
  else if e.mslot then (if e.twin then [e.loc1] else [])
  else [e.loc0]

/-- A split record ends when its bad location is replaced, or its tile freed or no longer a twin (R303). -/
def flipSplit (t : Nat) (e : Entry) (drop : Bool) (c : Chip) : Chip :=
  match splitGood c t with
  | none => c
  | some good1 => if e.reason = 7 || drop || e.mslot != good1 then clearSplit t c else c

/-- The mends of lines that a twin tile's copy found poisoned (R380). -/
def flipMends (t : Nat) (e : Entry) (c : Chip) : Chip :=
  match slotOfTile c t with
  | some (_, s) => forEach s.bad (fun l c => queueMend (t * 32768 + l) e.mslot (locPort e.dest) c) c
  | none => c

/-- A move leaves the rake: its slot and its request are free. -/
def endMove (t : Nat) (c : Chip) : Chip :=
  let c1 := { c with rak := { c.rak with pending := without c.rak.pending t } }
  match slotOfTile c1 t with
  | some (k, _) => dropSlot k c1
  | none => c1

/-- The move is over without a flip: the entry as before, the destination released in its slot (R297, R306). The abort
is applied even if both copy writes fail, and they are then written again (R304). -/
def applyAbort (t : Nat) (cw : CopyWrites) (release : Bool) (c : Chip) : Chip :=
  let e := entryOf c t
  let n := abortedEntry c t e
  let r := writeCopies t n cw c
  let c1 := setUnwritten t (!r.1) (setEntry t n r.2)
  resumeHeld t (endMove t (forgetSecond t (forgetBefore t (whenB release (ringPush 2 t e.dest) c1))))

/-- The flip, with its ring slots reserved (R305, R306). `drop`: a move that copies nothing and ends the twin. -/
def applyFlip (t : Nat) (cw : CopyWrites) (drop : Bool) (c : Chip) : Chip :=
  let e := entryOf c t
  let r := writeCopies t (flippedEntry e drop) cw c
  if r.1 then
    let c1 := flipSplit t e drop r.2
    let c2 := forgetBefore t (setEntry t (flippedEntry e drop) (if drop then c1 else endMove t (flipMends t e c1)))
    let c3 := count .map 0 7 (pushReleases t (flipReleases e drop) c2)
    let c4 := if e.reason = 4 then
        { c3 with car := { c3.car with retireLeft := c3.car.retireLeft ++ flipReleases e drop } } else c3
    whenB (e.reason == 7) (dropLostTile t) c4
  else if e.reason = 7 then
    setUnwritten t true (setEntry t { e with reason := 0 } r.2)
  else applyAbort t cw (!drop) r.2

/-- Slots that a flip needs: for what it releases, or for an abort in its place. -/
def flipSlots (e : Entry) (drop : Bool) : Nat :=
  if e.reason = 7 then (flipReleases e drop).length else max 1 (flipReleases e drop).length

/-- A flip requested: it waits while the ring has no room. -/
def askFlip (t : Nat) (cw : CopyWrites) (drop front : Bool) (c : Chip) : Chip :=
  if ringRoom c (flipSlots (entryOf c t) drop) front then applyFlip t cw drop c
  else ringWait (.flip t cw drop) front c

/-- An abort that RAK makes: it waits, with its slot, while the ring has no room (R315, R346, R349). -/
def askAbort (t : Nat) (cw : CopyWrites) (front : Bool) (c : Chip) : Chip :=
  if ringRoom c 1 front then applyAbort t cw true c else ringWait (.abort t cw) front c

/-! ### Commands at the slice -/

/-- What follows a command once its entry has been applied. -/
def afterCmd (i op t : Nat) (cw : CopyWrites) (e : Entry) (front : Bool) (c : Chip) : Chip :=
  match op with
  | 1 => resumeStage .placeHold t { c with map := { c.map with placing := without c.map.placing t } }
  | 2 =>
    let c1 := if isMoving e then c else { c with map := { c.map with before := kvPut c.map.before t e.state } }
    if moveForm e.twin (cmdMslot c i) (cmdReason c i) (cmdA c i) (cmdB c i) = .dropTwin then askFlip t cw true front c1
    else { c1 with rak := { c1.rak with pending := without c1.rak.pending t ++ [t] } }
  | 3 => askFlip t cw false front c
  | 4 => resumeHeld t (forgetBefore t c)
  | 5 => resumeHeld t (clearSplit t (forgetBefore t c))
  | 6 => dropLostTile t (clearSplit t c)
  | _ => c

/-- A command that meets no refusal, with its ring slots reserved: the entry written to both copies, applied, and what
follows (R299, R304). -/
def applyCmd (i : Nat) (cw : CopyWrites) (front : Bool) (c : Chip) : Chip :=
  let op := cmdOp c i
  let t := cmdTile c i
  let e := oldEntry c t
  let n := cmdEntry c i t e
  let r := writeCopies t n cw c
  if r.1 then
    let rel := cmdReleases c op t e
    let c1 := if isMoving e && (op == 2 || op == 4 || op == 5) then stopMove t r.2 else r.2
    let c2 := ringForget t { c1 with map := { c1.map with unreadable := without c1.map.unreadable t } }
    let c3 := afterCmd i op t cw e front (pushReleases t rel (setEntry t n c2))
    mapEnd i 1 c3
  else mapEnd i 9 r.2

/-- READ: the entry's words (R299); of an entry that cannot be read, free values (log entry 6). -/
def entryWord (e : Entry) (k : Nat) : Nat :=
  match k with
  | 0 => e.state % 8 + b2n e.twin * 8 + b2n e.mslot * 16 + e.reason % 8 * 32 + e.rmark % 256 * 256 + e.wmark % 256 * 65536 +
      e.flips % 16 * 16777216
  | 1 => e.loc0
  | 2 => e.loc1
  | _ => e.dest

def setE (i k v : Nat) (c : Chip) : Chip :=
  if i = 0 then setFi MAP_CMD_E_WORD 0 k v c else setFi PFX_CMD_E_WORD (i - 1) k v c

def readEntry (i : Nat) (c : Chip) : Chip :=
  let t := cmdTile c i
  mapEnd i 1 (forEach (List.range 4) (fun k c =>
    if c.map.unreadable.contains t then takeDraw (setE i k (drawn c) c) else setE i k (entryWord (entryOf c t) k) c) c)

/-- A command is decided at its tile's slice, which fetches the entry if need be: refused, made to wait for a limit of R338 or for ring room, or applied. -/
def decideCmd (i : Nat) (cw : CopyWrites) (front : Bool) (c0 : Chip) : Chip :=
  let op := cmdOp c0 i
  let t := cmdTile c0 i
  let c := if earlyRefusal c0 i ≠ 1 ∨ c0.map.unreadable.contains t = true then c0 else fetchFor t cw.rd c0
  let st := mapRefusal c i
  if st ≠ 1 then mapEnd i st c
  else if op = 7 then readEntry i c
  else if op = 2 ∧ moveForm (entryOf c t).twin (cmdMslot c i) (cmdReason c i) (cmdA c i) (cmdB c i) ≠ .dropTwin ∧
      movesFull c t = true then
    { c with rak := { c.rak with waiting := c.rak.waiting ++ [(i, cw)] } }
  else
    let rel := cmdReleases c op t (oldEntry c t)
    if rel.isEmpty || ringRoom c rel.length front then applyCmd i cw front c
    else ringWait (.command i cw) front c

/-- Each command that waits for a limit of R338 is decided again where a request has left that limit, in their order. -/
def retryMoves (c : Chip) : Chip :=
  forEach c.rak.waiting (fun w c =>
    if movesFull c (cmdTile c w.1) then c
    else decideCmd w.1 w.2 false { c with rak := { c.rak with waiting := c.rak.waiting.filter fun u => u.1 != w.1 } }) c

/-- A command runs on interface i: counted, and decided (R299). `op` is the OP that the write of GO carries. -/
def runCmd (i op : Nat) (cw : CopyWrites) (c : Chip) : Chip :=
  let c1 := setI i MAP_CMD_GO PFX_CMD_GO 1 (setI i MAP_CMD_OP PFX_CMD_OP op c)
  let c2 := countQ .map 0 8 op (whenB (i != 0) (count .pfxF (i - 1) 2) c1)
  publishUsed (settle (retryMoves (decideCmd i cw false c2)))

/-- A command's write reaches its interface: the page has started and holds no running command (R299, R317). -/
def ifaceFree (c : Chip) (i : Nat) : Bool :=
  pageStarted c .map 0 && (i == 0 || pageStarted c .pfxF (i - 1)) && !cmdGo c i

def mapCmd (i : MapIface) (op : Nat) (cw : CopyWrites) (c : Chip) : Chip :=
  if ifaceFree c (ifaceNum i) then runCmd (ifaceNum i) op cw c else c

/-! ### Moves that the prefects issue (R332 to R336, R372) -/

/-- The form that a tile's prefect work belongs to (R329). -/
def formOf (t : Nat) : Nat := mapLineOf t % 64

/-- A prefect writes its form's interface, A and B, and runs a MOVE there; while its interface is busy it issues none. -/
def issueMove (t a b reason : Nat) (mslot : Bool) (cw : CopyWrites) (c : Chip) : Chip :=
  let i := 1 + formOf t
  if ifaceFree c i && prefectsRun c then
    runCmd i 2 cw (setI i MAP_CMD_TILE_TILE PFX_CMD_TILE_TILE t (setI i MAP_CMD_A_LOC PFX_CMD_A_LOC a
      (setI i MAP_CMD_B_LOC PFX_CMD_B_LOC b (setI i MAP_CMD_REASON PFX_CMD_REASON reason
        (setI i MAP_CMD_MSLOT PFX_CMD_MSLOT (b2n mslot) c)))))
  else c

/-- A heat MOVE issued: counted, and one of the term's MAXMOVES (R332). -/
def issueHeatMove (t a : Nat) (mslot : Bool) (cw : CopyWrites) (c : Chip) : Chip :=
  let c1 := count .mrk 0 6 c
  issueMove t a 0 1 mslot cw { c1 with mrk := { c1.mrk with issued := c1.mrk.issued + 1 } }

/-- Heat MOVEs that the running term still allows, with one kept for each second MOVE that is owed (R332, R335). -/
def heatBudget (c : Chip) : Nat := getF c MRK_BUDGET_MAXMOVES 0 - c.mrk.issued - c.mrk.secondMove.length

/-- The second MOVE of a twin's heat move is issued once the first has flipped (R335), when its form's interface is free and
the term allows a MOVE (R332); until then it stays due. -/
def issueSecond (m : SecondMove) (c : Chip) : Chip :=
  if m.due && ifaceFree c (1 + formOf m.tile) && prefectsRun c && c.mrk.issued < getF c MRK_BUDGET_MAXMOVES 0 then
    issueHeatMove m.tile m.dest true m.cw (forgetSecond m.tile c)
  else c

def issueSeconds (c : Chip) : Chip := forEach c.mrk.secondMove issueSecond c

/-- Any other command of a prefect: PLACE or SETLOST. -/
def issueCmd (op t a b : Nat) (twin : Bool) (cw : CopyWrites) (c : Chip) : Chip :=
  let i := 1 + formOf t
  if ifaceFree c i && prefectsRun c then
    runCmd i op cw (setI i MAP_CMD_TILE_TILE PFX_CMD_TILE_TILE t (setI i MAP_CMD_A_LOC PFX_CMD_A_LOC a
      (setI i MAP_CMD_B_LOC PFX_CMD_B_LOC b (setI i MAP_CMD_TWIN PFX_CMD_TWIN (b2n twin) c))))
  else c

end Sys2Proof.Machine
end

