-- ==== Sys2Proof/Machine/Prefect.lean ====
section
/-!
DEFINITION. What the prefects issue: heat moves, moves of misplaced tiles, TWIN moves, and first placements that waited for
their form's interface (10_placement.md R332 to R335; 15_mode_matrix.md R484). What is decided waits in State and is issued
as interfaces and fills allow, after a sweep, a commit, a change of a pan's EN and the end of any move.
-/
namespace Sys2Proof.Machine

/-! ### Heat moves and misplaced tiles (R332, R333, R335, R484) -/

/-- Records that the prefects have read from the rings. -/
def candidates (c : Chip) : List Cand := c.mrk.rings.foldl (fun l r => l ++ r.2) []

/-- Consecutive sweeps in the same direction (R332 step 1). -/
def confirmNext (c : Chip) (x : Cand) : Bool × Nat :=
  match kvFind c.mrk.confirm x.tile with
  | some (d, n) => if d = x.down then (d, n + 1) else (x.down, 1)
  | none => (x.down, 1)

def confirmAll (c : Chip) : KV (Bool × Nat) :=
  (candidates c).foldl (fun l x => kvPut l x.tile (confirmNext c x)) []

/-- Candidates that may move: confirmed, RESIDENT and under no device window (R332, R425). -/
def ready (c : Chip) : List Cand :=
  (candidates c).filter fun x =>
    ((kvFind c.mrk.confirm x.tile).any fun k => c.mrk.confirmNow ≤ k.2) &&
      (entryOf c x.tile).state == 1 && !underDevice c x.tile

def insertCand (key : Cand → Nat) (x : Cand) : List Cand → List Cand
  | [] => [x]
  | y :: ys => if key x ≤ key y then x :: y :: ys else y :: insertCand key x ys

def sortCand (key : Cand → Nat) (l : List Cand) : List Cand := l.foldr (insertCand key) []

/-- The order of R332 step 3: DOWN moves out of pans that an UP move waits on, UP moves by falling heat, DOWN moves by
rising heat. -/
def heatOrder (c : Chip) (l : List Cand) : List Cand :=
  let ups := sortCand (fun x => 255 - x.heat) (l.filter fun x => !x.down)
  let downs := sortCand (fun x => x.heat) (l.filter fun x => x.down)
  let blocked := ups.filterMap fun x =>
    if (upPan c x.tile x.pan).isNone then (eligible c x.tile).find? fun n => n < x.pan else none
  downs.filter (fun x => blocked.contains x.pan) ++ ups ++ downs.filter fun x => !blocked.contains x.pan

/-- The pan of a DOWN move (R332 step 2): only while the fill of the tile's own pan is above its FILL_LO. -/
def downDest (c : Chip) (t p : Nat) : Option Nat :=
  if getFi c MRK_PAN_FILL_FILL_LO 0 p * panCap c p < 100 * panUsed c p then downPan c t p else none

/-- Where a candidate goes, as the fills stand (R332 step 2). -/
def heatDest (c : Chip) (x : Cand) : Option Nat :=
  let p := locPan c (entryOf c x.tile).loc0
  if x.down then downDest c x.tile p else upPan c x.tile p

/-- The firmware's picks for a tile, in order. -/
def picksOf (ps : List MovePick) (t : Nat) : List MovePick := ps.filter fun p => p.tile.val == t

/-- The second destination of a twin's heat move is kept while the first MOVE is under way or waits (R335). -/
def pairMove (t w : Nat) (cw : CopyWrites) (c : Chip) : Chip :=
  if isMoving (entryOf c t) || cmdGo c (1 + formOf t) then
    let m : SecondMove := { tile := t, dest := w, due := false, cw := cw }
    { c with mrk := { c.mrk with secondMove := (c.mrk.secondMove.filter fun m => m.tile != t) ++ [m] } }
  else c

/-- A tile's heat move is issued with the device tiles that the firmware picked, while the term's budget has room for all of
its MOVEs: of a twin tile two, of which the second follows the first flip (R332, R335). -/
def issueHeat (ps : List MovePick) (t pan : Nat) (c : Chip) : Chip :=
  let e := entryOf c t
  if !(ifaceFree c (1 + formOf t) && prefectsRun c) || heatBudget c < 1 + b2n e.twin then c
  else match picksOf ps t with
    | [] => c
    | p :: more =>
      let a := wordOf p.dest
      if !e.twin then
        (if takesLoc c pan .heat [] a then issueHeatMove t a false p.cw c else c)
      else
        match more with
        | [] => c
        | q :: _ =>
          if takesLoc c pan .heat [locPort e.loc1] a && takesLoc c pan .heat [locPort a] (wordOf q.dest) then
            pairMove t (wordOf q.dest) q.cw (issueHeatMove t a false p.cw c)
          else c

/-- A heat move to the pan that the fills give it now, if any. -/
def heatMove (ps : List MovePick) (dest : Chip → Option Nat) (t : Nat) (c : Chip) : Chip :=
  match dest c with
  | some n => issueHeat ps t n c
  | none => c

/-- Tiles outside their eligible pans (R333). -/
def misplacedTiles (c : Chip) : List Nat :=
  (sortNat (listedTiles c)).filter fun t =>
    let e := entryOf c t
    e.state == 1 && !(eligible c t).contains (locPan c e.loc0)

/-- A misplaced tile goes to an eligible pan as R332 step 2 chooses one, up first (R333; log entry 108). -/
def misplacedDest (c : Chip) (t : Nat) : Option Nat :=
  let p := locPan c (entryOf c t).loc0
  match upPan c t p with
  | some n => some n
  | none => downDest c t p

/-- Tiles of a window whose TWIN is not its window's (R484). -/
def twinOwing (c : Chip) (w : Nat) : List Nat :=
  let x := liveWin c w
  (sortNat (listedTiles c)).filter fun t =>
    x.pbase ≤ t && t < x.pbase + x.size && (entryOf c t).twin != wantsTwin c t && (entryOf c t).state != 0 &&
      (entryOf c t).state != 5

/-- The TWIN move of one tile (R484, R636): the removal, or a second location on another device of LOC0's pan (R334,
R335). -/
def issueTwin (ps : List MovePick) (t : Nat) (c : Chip) : Chip :=
  let e := entryOf c t
  if e.state != 1 || !(ifaceFree c (1 + formOf t) && prefectsRun c) then c
  else if e.twin then count .mrk 0 7 (issueMove t 0 0 6 true { aFail := false, bFail := false } c)
  else match (picksOf ps t).head? with
    | some p =>
      if takesLoc c (locPan c e.loc0) .care [locPort e.loc0] (wordOf p.dest) then
        count .mrk 0 7 (issueMove t (wordOf p.dest) 0 6 true p.cw c)
      else c
    | none => c

/-- The windows that owe TWIN moves, each until no tile of it owes one. -/
def twinMoves (ps : List MovePick) (c : Chip) : Chip :=
  let c1 := forEach c.mrk.twinOwed (fun w c => forEach (twinOwing c w) (issueTwin ps) c) c
  { c1 with mrk := { c1.mrk with twinOwed := c1.mrk.twinOwed.filter fun w => !(twinOwing c1 w).isEmpty } }

/-- Moves of tiles outside their pans, in order, while the budget lasts. -/
def misplacedMoves (ps : List MovePick) (l : List Nat) (c : Chip) : Chip :=
  forEach l (fun t c => heatMove ps (fun c => misplacedDest c t) t c) c

/-- Moves of candidates, in order, while the budget lasts. -/
def heatMoves (ps : List MovePick) (l : List Cand) (c : Chip) : Chip :=
  forEach l (fun x c => heatMove ps (fun c => heatDest c x) x.tile c) c

/-- A candidate that has not moved waits on: an UP move for the fill of the pan it goes to, any for its form's interface; a
DOWN move without a destination is not made (R332). -/
def waitsOn (c : Chip) (x : Cand) : Bool :=
  (entryOf c x.tile).state == 1 && !underDevice c x.tile && locPan c (entryOf c x.tile).loc0 == x.pan &&
    (!x.down || (heatDest c x).isSome)

/-- A first placement that the prefects may make: the pan of R334, a device of R332 step 4, twins on two devices. -/
def placeFits (c : Chip) (t : Nat) (ch : PlaceChoice) : Bool :=
  (entryOf c t).state == 0 && match firstPan c t with
    | some n => takesLoc c n .first [] (wordOf ch.a) &&
        (!wantsTwin c t || takesLoc c n .first [ch.a.port.val] (wordOf ch.b))
    | none => false

/-- A tile is placed where the choice fits; while its form's interface is busy the placement waits. -/
def placeTile (t : Nat) (ch : PlaceChoice) (c : Chip) : Chip :=
  if !placeFits c t ch then c
  else if ifaceFree c (1 + formOf t) && prefectsRun c then
    issueCmd 1 t (wordOf ch.a) (if wantsTwin c t then wordOf ch.b else 0) (wantsTwin c t) ch.cw c
  else { c with mrk := { c.mrk with places := c.mrk.places ++ [(t, ch)] } }

/-- The placements that waited. -/
def placesGo (c : Chip) : Chip :=
  forEach c.mrk.places (fun x c => placeTile x.1 x.2 c) { c with mrk := { c.mrk with places := [] } }

/-- Something waits for the prefects. -/
def prefectWork (c : Chip) : Bool :=
  !(c.mrk.places.isEmpty && c.mrk.twinOwed.isEmpty && c.mrk.misplaced.isEmpty && c.mrk.todo.isEmpty)

/-- The prefects issue what they may of what waits (R332, R333, R484): placements, TWIN moves, misplaced tiles, then the
term's heat moves. -/
def prefectGo (c : Chip) : Chip :=
  if prefectsRun c && prefectWork c then
    let c1 := twinMoves c.mrk.picks (placesGo c)
    let c2 := if c1.mrk.misplaced.isEmpty then c1 else misplacedMoves c.mrk.picks (misplacedTiles c1) c1
    let c3 := heatMoves c.mrk.picks (heatOrder c2 c2.mrk.todo) c2
    { c3 with mrk := { c3.mrk with todo := c3.mrk.todo.filter (waitsOn c3),
                                   misplaced := if (misplacedTiles c3).isEmpty then [] else c3.mrk.misplaced } }
  else c

/-- The prefects decide on a sweep's candidates, and issue what they may (R332). -/
def decideMoves (ps : List MovePick) (c : Chip) : Chip :=
  let c1 := { c with mrk := { c.mrk with confirm := confirmAll c, picks := ps } }
  let c2 := { c1 with mrk := { c1.mrk with todo := ready c1, rings := [] } }
  prefectGo (issueSeconds c2)

/-- A commit or a change of a pan's EN gives the prefects work, for which the firmware has picked device tiles. -/
def prefectsSee (ps : List MovePick) (c : Chip) : Chip :=
  if prefectWork c then
    let c1 := if ps.isEmpty then c else { c with mrk := { c.mrk with picks := ps } }
    publishUsed (settle (prefectGo c1))
  else c

/-- What follows any end of a move: second MOVEs that are due, waiting MOVEs, the prefects' own work, waiting accesses, the
pans' fill. -/
def moveEnded (c : Chip) : Chip := publishUsed (settle (prefectGo (retryMoves (issueSeconds c))))

/-- Forms lose what their memories hold: candidate records, confirmations, and the moves and placements that they have yet to
issue (20_security.md R572, R574). What windows and pans show them, misplaced tiles and TWIN moves owed, they find again. -/
def formsForget (p : Nat → Bool) (c : Chip) : Chip :=
  { c with mrk := { c.mrk with rings := c.mrk.rings.filter (fun r => !p r.1),
                               confirm := c.mrk.confirm.filter (fun x => !p (formOf x.1)),
                               todo := c.mrk.todo.filter (fun x => !p (formOf x.tile)),
                               places := c.mrk.places.filter (fun x => !p (formOf x.1)),
                               secondMove := c.mrk.secondMove.filter (fun x => !p (formOf x.tile)) } }

/-- A tracker is free: the commit runs, or the oldest host command that waits is applied. `picks`: the device tiles that the
firmware picks for the moves that the commit asks for. -/
def execCommitApply (dc : Bool) (picks : List MovePick) (s : State) : Out3 :=
  .next (onChip s fun c => prefectsSee picks (effCommitApply dc c))

end Sys2Proof.Machine
end

