-- ==== Sys2Proof/Machine/Map.lean ====
section
/-!
DEFINITION. The commands of the tile map (09_tile_map.md R297 to R319, R636).
-/
namespace Sys2Proof.Machine

/-! ### Map commands (R299, R300, R636) -/

def execMapPlace (i : MapIface) (cw : CopyWrites) (s : State) : Out3 := .next (onChip s (mapCmd i 1 cw))
def execMapMove (i : MapIface) (cw : CopyWrites) (s : State) : Out3 := .next (onChip s (mapCmd i 2 cw))
def execMapFree (i : MapIface) (cw : CopyWrites) (s : State) : Out3 := .next (onChip s (mapCmd i 3 cw))
def execMapAbort (i : MapIface) (cw : CopyWrites) (s : State) : Out3 := .next (onChip s (mapCmd i 4 cw))
def execMapSetlost (i : MapIface) (cw : CopyWrites) (s : State) : Out3 := .next (onChip s (mapCmd i 5 cw))
def execMapRetire (i : MapIface) (cw : CopyWrites) (s : State) : Out3 := .next (onChip s (mapCmd i 6 cw))

/-- READ and BAD_OP write no entry. -/
def noWrites : CopyWrites := { aFail := false, bFail := false }

def execMapRead (i : MapIface) (rd : CopyReads) (s : State) : Out3 := .next (onChip s (mapCmd i 7 { noWrites with rd := rd }))

/-- The OP that the write carries: the field's, where that is a code that R300 refuses, else 0. -/
def badOpOf (c : Chip) (i : Nat) : Nat :=
  let op := cmdOp c i
  if 8 ≤ op ∨ (op = 2 ∧ (cmdReason c i = 0 ∨ cmdReason c i = 7)) then op else 0

def execMapCmdBadOp (i : MapIface) (s : State) : Out3 :=
  .next (onChip s fun c => mapCmd i (badOpOf c (ifaceNum i)) noWrites c)

/-! ### Flips and aborts (R304 to R306) -/

/-- A dual write of the tile is incomplete (10_placement.md R345). -/
def dualOut (c : Chip) (t : Nat) : Bool :=
  c.txns.any fun x => tileOfLine x.line == t && !isRemoteLine x.line && x.legs.any fun g => g.slot == 2 && g.st == .out

/-- The slot has copied every line and no dual write is incomplete: it may request the flip. -/
def flipReady (c : Chip) (t : Nat) : Option (Nat × RakSt) :=
  match slotOfTile c t with
  | some (k, s) =>
    if s.c == 32768 && !s.stopping && !s.dstFailed && !s.waitSrc && !s.flipAsked && !dualOut c t then some (k, s) else none
  | none => none

/-- The second MOVE of a twin's heat move is due when the first has flipped (10_placement.md R335). `e` is the entry before
the flip: a flip that waits keeps the second MOVE waiting. -/
def secondHeat (t : Nat) (e : Entry) (cw : CopyWrites) (c : Chip) : Chip :=
  let n := entryOf c t
  if isMoving n || e.reason != 1 || e.mslot || n.flips == e.flips then c
  else
    { c with mrk := { c.mrk with secondMove := c.mrk.secondMove.map fun m =>
        if m.tile = t then { m with due := true, cw := cw } else m } }

def effMapFlip (t : Nat) (cw : CopyWrites) (c : Chip) : Chip :=
  match flipReady c t with
  | some (k, s) =>
    moveEnded (secondHeat t (entryOf c t) cw (askFlip t cw false false (setRakSlot k { s with flipAsked := true } c)))
  | none => c

def execMapFlip (t : Tile) (cw : CopyWrites) (s : State) : Out3 := .next (onChip s (effMapFlip t cw))

/-- Every 1 ms, an entry that neither copy holds is written to both copies again, until one write succeeds (R304). -/
def effAbortRewrite (t : Nat) (cw : CopyWrites) (c : Chip) : Chip :=
  match kvFind c.map.cache (mapLineOf t) with
  | some x =>
    if x.unwritten.contains t && tmbRuns c then (writeCopies t (entryOf c t) cw c).2 else c
  | none => c

def execMapAbortRewrite (t : Tile) (cw : CopyWrites) (s : State) : Out3 := .next (onChip s (effAbortRewrite t cw))

/-! ### Copies that are lost (R310) -/

/-- Every device of copy i is reachable. -/
def copyReach (c : Chip) (i : Nat) : Bool :=
  (copyDevs c i).all fun p => devReady c p && inL0 c p && !careHold c p

/-- Copy i is lost: MAP runs on the other alone, or on neither. -/
def loseCopy (i : Nat) (c : Chip) : Chip :=
  if !copyLive c i then c
  else
    let c1 := raise .map 0 3 c
    if mapSingle c = 0 then setF MAP_STAT_SINGLE 0 (2 - i) c1
    else raise .map 0 7 (setF MAP_CTRL_REBUILD 0 0 (setF MAP_STAT_SINGLE 0 3
      { c1 with map := { c1.map with rebuilding := false } }))

/-- Copies whose devices have become unreachable are lost. -/
def checkCopies (c : Chip) : Chip :=
  if mapRunning c then forEach [0, 1] (fun i c => whenB (!copyReach c i) (loseCopy i) c) c else c

/-! ### INIT and RUN (R292, R318) -/

/-- The header that a device holds where the present configuration looks for one: at the region's first byte (R291,
R292). -/
def headerAt (c : Chip) (p n : Nat) : Option MapHeader := kvFind (diskAt c p).heads (regionBase c p n)

/-- 32-bit word k of a header, as it lies on the device (R292). -/
def mapHeaderWord (h : MapHeader) (k : Nat) : Nat :=
  match k with
  | 0 => 0x50414D58
  | 1 => h.poolU
  | 2 => h.copy + h.index * 2 ^ 8 + h.n * 2 ^ 16
  | 3 => h.fsid
  | 4 => h.gen % 2 ^ 32
  | 5 => h.gen / 2 ^ 32
  | _ => 0

/-- The 32-bit word at a byte address of a device's map region: the header's, 0 in the rest of its first 4 KiB, an entry's
beyond (R292, R293). -/
def regionWord (c : Chip) (p n a : Nat) : Nat :=
  let base := regionBase c p n
  if a < base + 4096 then
    match headerAt c p n with
    | some h => mapHeaderWord h ((a - base) / 4)
    | none => 0
  else entryWord (kvGet Entry.zero (diskAt c p).entries (a / 16 * 16)) (a % 16 / 4)

def mapDevs (c : Chip) : List (Nat × Nat) :=
  (copyDevs c 0).map (fun p => (p, (copyDevs c 0).length)) ++ (copyDevs c 1).map fun p => (p, (copyDevs c 1).length)

def noRepeats : List Nat → Bool
  | [] => true
  | x :: xs => !xs.contains x && noRepeats xs

/-- The first check of R318 that fails: 2 NO_DEVICE, 3 SHARED_DEV, 6 BAD_SIZE; 0 when all pass. -/
def mapCheck (c : Chip) : Nat :=
  let ds := mapDevs c
  if ds.any fun d => !devReady c d.1 || panOf c d.1 != 0 then 2
  else if !noRepeats (ds.map (·.1)) then 3
  else if getF c MAP_CFG_POOL_U 0 = 0 then 6
  else if ds.any fun d => getF c PRT_DEV_CAP_TILES d.1 < regionTiles c d.2 then 6
  else 0

/-- The generation of copy i, if its headers are correct (R318). -/
def copyGen (c : Chip) (i : Nat) : Option Nat :=
  let ds := copyDevs c i
  let hs := ds.map fun p => headerAt c p ds.length
  match hs.head? with
  | some (some h0) =>
    let good := (List.range ds.length).all fun k => match hs[k]? with
      | some (some h) => h.poolU == getF c MAP_CFG_POOL_U 0 && h.copy == i && h.index == k && h.n == ds.length &&
          h.gen == h0.gen
      | _ => false
    if good then some h0.gen else none
  | _ => none

/-- Some listed device holds a header with the signature. -/
def anyHeader (c : Chip) : Bool := (mapDevs c).any fun d => (headerAt c d.1 d.2).isSome

/-- MAP starts on both copies, or on one (R318). -/
def startMap (lost : Option Nat) (c : Chip) : Chip :=
  let c1 := setF MAP_CTRL_RUN 0 1 (setF MAP_STAT_RUNNING 0 1 (setF MAP_STAT_RSTATUS 0 1 (setF MAP_STAT_OSCAN 0 1
    { c with map := { c.map with orphaned := [] } })))
  match lost with
  | some i => loseCopy i c1
  | none => c1

/-- RUN with the checks passed reads the headers. -/
def runHeaders (c : Chip) : Chip :=
  match copyGen c 0, copyGen c 1 with
  | some a, some b => startMap (if a = b then none else if a < b then some 0 else some 1) c
  | some _, none => startMap (some 1) c
  | none, some _ => startMap (some 0) c
  | none, none => setF MAP_STAT_RSTATUS 0 (if anyHeader c then 5 else 4) c

def effMapRun (c : Chip) : Chip :=
  if isF c MAP_CTRL_RUN 0 then c
  else match mapCheck c with
    | 0 => checkCopies (runHeaders c)
    | k => setF MAP_STAT_RSTATUS 0 k c

def execMapRun (pa : Path) (s : State) : Out3 := .next (onChip s (reachReg pa .map 0 0x040 effMapRun))

def effMapInit (c : Chip) : Chip :=
  if isF c MAP_CTRL_RUN 0 then c
  else match mapCheck c with
    | 0 => setF MAP_CTRL_INIT 0 1 c
    | k => setF MAP_STAT_RSTATUS 0 k c

def execMapInit (pa : Path) (s : State) : Out3 := .next (onChip s (reachReg pa .map 0 0x040 effMapInit))

/-- The header of device k of copy i (R292). -/
def headerFor (c : Chip) (i k gen : Nat) : MapHeader :=
  { poolU := getF c MAP_CFG_POOL_U 0, copy := i, index := k, n := (copyDevs c i).length,
    fsid := getF c BND_FSID_FSID 0, gen := gen }

/-- The headers of copy i written with a generation (R292). -/
def writeHeaders (i gen : Nat) (c : Chip) : Chip :=
  let n := (copyDevs c i).length
  forEach (List.range n) (fun k c =>
    let p := ((copyDevs c i)[k]?).getD 0
    updDisk p (fun d => { d with heads := kvPut d.heads (regionBase c p n) (headerFor c i k gen) }) c) c

/-- One more than the highest generation found on a listed device. -/
def nextGen (c : Chip) : Nat :=
  (mapDevs c).foldl (fun g d => match headerAt c d.1 d.2 with
    | some h => max g (h.gen + 1)
    | none => g) 1

def effMapInitDone (c : Chip) : Chip :=
  if isF c MAP_CTRL_INIT 0 then
    let g := nextGen c
    let c1 := wipeCopy 1 0 (wipeCopy 0 0 c)
    event .map 0 2 (setF MAP_CTRL_INIT 0 0 (writeHeaders 1 g (writeHeaders 0 g c1)))
  else c

def execMapInitDone (s : State) : Out3 := .next (onChip s effMapInitDone)

/-! ### Scrub and rebuild (R308 to R310) -/

/-- The four tiles of each line of a list. -/
def tilesOfLines (ls : List Nat) : List Nat := ls.foldl (fun l x => l ++ lineTiles x) []

/-- Entry t of copy `dst` rewritten from the other copy. -/
def mirrorEntry (dst t : Nat) (c : Chip) : Chip := setStored dst t (storedOf c (1 - dst) t) c

/-- Tiles whose entries differ between the copies. -/
def differing (c : Chip) : List Nat :=
  ((copyTiles c 0 ++ copyTiles c 1).foldl addNew []).filter fun t => storedOf c 0 t != storedOf c 1 t

/-- The scrub: lines that fail at one copy are rewritten from the other, and B from A where they differ. -/
def effMapScrub (badA badB : List Nat) (c : Chip) : Chip :=
  if mapRunning c && mapSingle c == 0 then
    let both := badA.filter fun l => badB.contains l
    let oneA := badA.filter fun l => !badB.contains l
    let oneB := badB.filter fun l => !badA.contains l
    let c1 := forEach (tilesOfLines oneA) (mirrorEntry 0) c
    let c2 := forEach (tilesOfLines oneB) (mirrorEntry 1) c1
    let c3 := whenB (!(oneA.isEmpty && oneB.isEmpty)) (raise .map 0 1) c2
    let c4 := forEach ((tilesOfLines both).filter fun t => (cachedEntry c3 t).isNone) noteUnreadable c3
    let differ := (differing c4).filter fun t => !both.contains (mapLineOf t)
    whenB (!differ.isEmpty) (fun c => raise .map 0 2 (forEach differ (mirrorEntry 1) c)) c4
  else c

def execMapScrub (badA badB : List Nat) (s : State) : Out3 := .next (onChip s (effMapScrub badA badB))

def effMapRebuild (c : Chip) : Chip :=
  if mapRunning c && (mapSingle c == 1 || mapSingle c == 2) && !c.map.rebuilding then
    setF MAP_CTRL_REBUILD 0 1 { c with map := { c.map with rebuilding := true, rebuilt := 0 } }
  else c

def execMapRebuild (pa : Path) (s : State) : Out3 := .next (onChip s (reachReg pa .map 0 0x040 effMapRebuild))

/-- The new devices of the lost copy can take it: the checks of R318 hold, and they are reachable. -/
def canRebuild (c : Chip) : Bool := mapCheck c == 0 && copyReach c 0 && copyReach c 1

/-- The copy that a rebuild fills: the one that SINGLE does not name. -/
def lostCopy (c : Chip) : Nat := 2 - mapSingle c

/-- The rebuild copies its next line from the survivor, in ascending order, as time passes (R310; the pace is the model's,
log entry 107). -/
def rebuildLine (c : Chip) : Chip :=
  if c.map.rebuilding && canRebuild c && 4 * c.map.rebuilt < poolTiles c then
    let c1 := forEach (lineTiles c.map.rebuilt) (mirrorEntry (lostCopy c)) c
    { c1 with map := { c1.map with rebuilt := c1.map.rebuilt + 1 } }
  else c

/-- Every line that the rebuild has not copied yet is copied: the survivor's entries, and zeros elsewhere. -/
def copyRest (c : Chip) : Chip :=
  let left := (copyTiles c (1 - lostCopy c)).filter fun t => c.map.rebuilt ≤ mapLineOf t
  forEach left (mirrorEntry (lostCopy c)) (wipeCopy (lostCopy c) c.map.rebuilt c)

def effMapRebuilt (c : Chip) : Chip :=
  if c.map.rebuilding && canRebuild c then
    let g := (copyGen c (mapSingle c - 1)).getD 0 + 1
    let c1 := copyRest c
    let c2 := { c1 with map := { c1.map with rebuilding := false, rebuilt := 0 } }
    event .map 0 0 (setF MAP_CTRL_REBUILD 0 0 (setF MAP_STAT_SINGLE 0 0 (writeHeaders 1 g (writeHeaders 0 g c2))))
  else c

def execMapRebuilt (s : State) : Out3 := .next (onChip s effMapRebuilt)

/-! ### Misses and first placement (R309, R311, R314) -/

def missOn (c : Chip) (l : Nat) : List Txn := c.txns.filter fun t => t.stage == .mapMiss && mapLineOf (tileOfLine t.line) == l

/-- A miss fetch returns: from copy A, or from copy B; from neither, the line's entries are unreadable. With both copies
lost nothing is fetched, and the accesses are served as LOST (R310). -/
def effMissFill (l : Nat) (rd : CopyReads) (c : Chip) : Chip :=
  match (missOn c l).head? with
  | none => c
  | some x =>
    let c1 := if mapSingle c = 3 then c else fetchFor (tileOfLine x.line) rd c
    settle (forEach ((missOn c l).map (·.id)) (fun i c => match txnOf c i with
      | some t => homeGo t c
      | none => c) c1)

def execMapMissFill (mapLine : Nat) (rd : CopyReads) (s : State) : Out3 := .next (onChip s (effMissFill mapLine rd))

/-- PLACE_WAIT expires: every held write fails, and the reads behind them find the tile UNPLACED. -/
def effPlaceTimeout (t : Nat) (c : Chip) : Chip :=
  if c.map.placing.contains t && tmbRuns c then
    let c1 := raise .map 0 6 { c with map := { c.map with placing := without c.map.placing t } }
    let held := c1.txns.filter fun x => x.stage == .placeHold && tileOfLine x.line == t
    let c2 := forEach (held.filter fun x => !readPhase x) (fun x c => finishWrite x 4 c) c1
    settle (resumeStage .placeHold t c2)
  else c

def execMapPlaceTimeout (t : Tile) (s : State) : Out3 := .next (onChip s (effPlaceTimeout t))

/-! ### The request ring (R315, 10_placement.md R334) -/

/-- The word that a read of MAP_RING returns. -/
def ringWord (i : RingItem) : Nat := 2 ^ 31 + i.kind * 2 ^ 29 + i.tile

/-- The prefects act on an item they have read: on a PLACE item they place the tile. -/
def prefectItem (i : RingItem) (ch : PlaceChoice) (c : Chip) : Chip :=
  if i.kind == 0 then placeTile i.tile ch c else c

/-- A read of MAP_RING takes the oldest item. -/
def effRingRead (pa : Path) (ch : Option PlaceChoice) (c : Chip) : Chip :=
  match c.map.ring with
  | [] => send (.pathRead pa 0) c
  | i :: rest =>
    let c1 := send (.pathRead pa (ringWord i)) { c with map := { c.map with ring := rest } }
    let c2 := whenB (2 ≤ i.kind) (setF MAP_RING_LOC_LOC 0 i.loc) c1
    publishUsed (match ch with
      | some x => prefectItem i x c2
      | none => c2)

def execMapRingRead (pa : Path) (choice : Option PlaceChoice) (s : State) : Out3 :=
  .next (onChip s (reachReg pa .map 0 0x060 (effRingRead pa choice)))

/-- The first work that waits for ring room goes on once there is room (R315). -/
def effRingItemPlace (c : Chip) : Chip :=
  match c.map.waiting with
  | [] => c
  | w :: rest =>
    let c1 := { c with map := { c.map with waiting := rest } }
    match w with
    | .item i => if c.map.ring.length < 4096 then publishUsed (ringPush i.kind i.tile i.loc c1) else c
    | .command i cw => moveEnded (decideCmd i cw true c1)
    | .flip t cw drop => moveEnded (secondHeat t (entryOf c t) cw (askFlip t cw drop true c1))
    | .abort t cw => moveEnded (askAbort t cw true c1)

def execRingItemPlace (s : State) : Out3 := .next (onChip s effRingItemPlace)

/-- Stored lines that a pass over the pool reads from neither copy: their entries are unreadable, unless the cache holds
them (R309). -/
def badLines (bad : List Nat) (c : Chip) : Chip :=
  forEach ((tilesOfLines bad).filter fun t => (cachedEntry c t).isNone && t < poolTiles c) noteUnreadable c

/-- The orphan scan has read every stored line (R307); `bad` are the lines that neither copy returned, whose entries are
unreadable unless the cache holds them (R309). -/
def effOrphanScanDone (bad : List Nat) (c : Chip) : Chip :=
  if isF c MAP_STAT_OSCAN 0 then
    let c1 := badLines bad c
    setF MAP_STAT_OSCAN 0 0 (forEach (listedTiles c1) foundOrphan c1)
  else c

def execOrphanScanDone (bad : List Nat) (s : State) : Out3 := .next (onChip s (effOrphanScanDone bad))

end Sys2Proof.Machine
end

