-- ==== Sys2Proof/Machine/Rak.lean ====
section
/-!
DEFINITION. The rake: slots, line copies, failures during a move, and tenant jobs (10_placement.md R337 to R354).
-/
namespace Sys2Proof.Machine

/-! ### Slots (R338, R339, R341) -/

/-- Engines take new work (R341; 20_security.md R572). -/
def rakTakes (c : Chip) : Bool :=
  pageStarted c .rak 0 && isF c RAK_CTRL_EN 0 && !c.pwr.warn && !isF c SEC_STAT_PFXLOAD 0

/-- Order of R339 by REASON: RETIRE, EVACUATE, REWET, TWIN, then jobs at 4, WEAR, HEAT. -/
def moveRank (reason : Nat) : Nat :=
  match reason with
  | 4 => 0 | 5 => 1 | 2 => 2 | 6 => 3 | 3 => 5 | _ => 6

/-- Pending moves that hold no slot, oldest first. -/
def waitingMoves (c : Chip) : List Nat := c.rak.pending.filter fun t => (slotOfTile c t).isNone

/-- The waiting move that comes first. -/
def nextMove (c : Chip) : Option Nat := minBy (fun t => moveRank (entryOf c t).reason) (waitingMoves c)

def jobSlots (c : Chip) : Nat := (c.rak.slots.filter fun e => match e.2.work with
  | .job _ => true
  | .move _ => false).length

def jobSlot (c : Chip) (x : Nat) : Option (Nat × RakSt) :=
  c.rak.slots.find? fun e => e.2.work == .job x && !e.2.stopping

/-- A submitted job that may start: what it waited for is visible or lost (R352). -/
def jobReady (c : Chip) (x : Nat) : Bool :=
  let j := (tenSt c x).job
  j.go && !j.started && !j.paused && !j.stopping && j.waitLines.isEmpty && tenState c x == 1

/-- The job that takes a free slot next, within TEN_SLOTS, and behind moves of a kind that comes first. -/
def nextJob (c : Chip) : Option Nat :=
  if getF c RAK_CTRL_TEN_SLOTS 0 ≤ jobSlots c then none
  else if (nextMove c).any fun t => moveRank (entryOf c t).reason < 4 then none
  else c.rak.jobs.find? (jobReady c)

def slotFor (w : RakWork) (claims : Nat) : RakSt :=
  { work := w, c := 0, claimed := min claims 16, waitSrc := false, stopping := false, dstFailed := false,
    flipAsked := false, bad := [] }

/-- A job takes slot k and runs (R352, R353). -/
def takeJob (x k : Nat) (c : Chip) : Chip :=
  let s := tenSt c x
  setTenSt x { s with job := { s.job with started := true, status := 1 } }
    (setRakSlot k (slotFor (.job x) 0) { c with rak := { c.rak with jobs := without c.rak.jobs x } })

/-! ### Unreachable sources and destinations (R346, R348, R349) -/

/-- Locations that a tile's move may read from, the MSLOT one first (R302, R348, R382). -/
def moveSources (c : Chip) (t : Nat) (e : Entry) : List Nat :=
  let ls := ((dataLocs c t e).filter fun l => locReach c e.twin l.2).map (·.2)
  if e.mslot && e.twin && ls.length = 2 then ls.reverse else ls

/-- A slot whose source has become unreachable waits for it; one whose destination has, fails. -/
def checkSlot (k : Nat) (c : Chip) : Chip :=
  match kvFind c.rak.slots k with
  | none => c
  | some s =>
    match s.work with
    | .job _ => c
    | .move t =>
      let e := entryOf c t
      if s.stopping || !isMoving e then c
      else
        let wait := s.waitSrc || (moveSources c t e).isEmpty
        let fail := s.dstFailed || (!s.flipAsked && !locReach c e.twin e.dest)
        if wait == s.waitSrc && fail == s.dstFailed then c
        else resumeHeld t (setRakSlot k { s with waitSrc := wait, dstFailed := fail,
                                                 claimed := if wait then s.c else s.claimed } c)

def checkSlots (c : Chip) : Chip := forEach (kvKeys c.rak.slots) checkSlot c

/-- A device's locations have changed reach: map copies, moves and accesses that wait meet it. -/
def reachChanged (c : Chip) : Chip := settle (checkSlots (checkCopies c))

/-! ### Slot commands -/

/-- A free slot takes the work that comes first (R339). -/
def effSlotAssign (k claims : Nat) (c : Chip) : Chip :=
  if rakTakes c && (kvFind c.rak.slots k).isNone then
    match nextJob c with
    | some x =>
      if (nextMove c).any fun t => moveRank (entryOf c t).reason < 4 then c else takeJob x k c
    | none =>
      match nextMove c with
      | some t =>
        checkSlot k (countQ .rak 0 2 (entryOf c t).reason
          (setRakSlot k { slotFor (.move t) claims with reason := (entryOf c t).reason } c))
      | none => c
  else c

def execRakSlotAssign (slot : RakSlot) (claims : Fin 17) (s : State) : Out3 :=
  .next (onChip s (effSlotAssign slot claims))

/-- RAK_ERR holds the first failure (R357): 0 DST_FAIL, 1 SRC_LOST, 2 SRC_POISON. -/
def noteRakErr (cause t : Nat) (c : Chip) : Chip :=
  if isF c RAK_ERR_VALID 0 then c
  else setF RAK_ERR_VALID 0 1 (setF RAK_ERR_CAUSE 0 cause (setF RAK_ERR_TILE 0 t c))

/-- A source line came back poisoned: counted, a defect of the source, and copied poisoned (R347, R367, R380). -/
def poisonedLine (t l : Nat) (e : Entry) (k : Nat) (s : RakSt) (c : Chip) : Chip :=
  let c1 := noteRakErr 2 t (raise .rak 0 1 (count .rak 0 7 c))
  let c2 := match (moveSources c1 t e).head? with
    | some w => carDefect w c1
    | none => c1
  setRakSlot k { s with bad := if e.twin then s.bad ++ [l] else s.bad } c2

/-- A write of the line that the move arbiter decided before its claim is still on its way to a device: the copy follows it
(R54, R344). -/
def writeAhead (c : Chip) (t l : Nat) : Bool :=
  c.txns.any fun u => !isRemoteLine u.line && tileOfLine u.line == t && lineInTile u.line == l &&
    u.legs.any fun g => g.write && g.st == .out

/-- One line of a move: read from the source, and written to the destination with the data and the poison that the read
returned, until the move stops or its destination fails (R342, R346, R347, R350). -/
def sendCopy (t l : Nat) (e : Entry) (s : RakSt) (d : Line) (poison : Bool) (c : Chip) : Chip :=
  match (moveSources c t e).head? with
  | some w =>
    if s.stopping then c
    else
      let c1 := send (.devRd (locPort w) c.nextTxn (locTile w) l) { c with nextTxn := c.nextTxn + 2 }
      if s.dstFailed then c1
      else send (.devWr (locPort e.dest) (c.nextTxn + 1) (locTile e.dest) l fullMask (if poison then 0#512 else d) poison) c1
  | none => c

/-- A claimed line's destination write completes: the pointer advances, and more lines are claimed (R342, R343). -/
def effLineCopy (k : Nat) (d : Line) (poison : Bool) (claims : Nat) (c : Chip) : Chip :=
  match kvFind c.rak.slots k with
  | none => c
  | some s =>
    match s.work with
    | .job _ => c
    | .move t =>
      if writeAhead c t s.c then c
      else if s.c < s.claimed && !s.waitSrc then
        let n := s.c + 1
        let more := if s.stopping || s.dstFailed then s.claimed else min 32768 (min (s.claimed + claims) (n + 16))
        let s1 := { s with c := n, claimed := more }
        let c1 := countN .rak 0 3 none 64 (setRakSlot k s1 (sendCopy t s.c (entryOf c t) s d poison c))
        settle (resumeHeld t (whenB poison (poisonedLine t s.c (entryOf c t) k s1) c1))
      else if claims ≠ 0 ∧ s.c = s.claimed ∧ s.c < 32768 ∧ (s.stopping || s.dstFailed || s.waitSrc) = false then
        setRakSlot k { s with claimed := min 32768 (min (s.claimed + claims) (s.c + 16)) } c
      else c

def execRakLineCopy (slot : RakSlot) (d : Line) (poison : Bool) (claims : Fin 17) (s : State) : Out3 :=
  .next (onChip s (effLineCopy slot d poison claims))

/-- The slot's move, when it may fail: not stopped, no flip requested, no abort waiting for ring room. -/
def failingMove (c : Chip) (k : Nat) : Option (Nat × RakSt) :=
  match kvFind c.rak.slots k with
  | none => none
  | some s =>
    match s.work with
    | .job _ => none
    | .move t =>
      let aborting := c.map.waiting.any fun w => match w with
        | .abort u _ => u == t
        | _ => false
      if s.stopping || s.flipAsked || aborting || !isMoving (entryOf c t) then none else some (t, s)

/-- The destination fails: writes go to the source only from here on, and RAK aborts the move (R346). -/
def effDstFail (k : Nat) (cw : CopyWrites) (c : Chip) : Chip :=
  match failingMove c k with
  | some (t, s) =>
    let c1 := resumeHeld t (setRakSlot k { s with dstFailed := true } c)
    moveEnded (askAbort t cw false (noteRakErr 0 t (raise .rak 0 0 c1)))
  | none => c

def execRakDstFail (slot : RakSlot) (cw : CopyWrites) (s : State) : Out3 := .next (onChip s (effDstFail slot cw))

/-- SRC_WAIT passes with the source unreachable (R349). -/
def effSrcWaitExpiry (k : Nat) (cw : CopyWrites) (c : Chip) : Chip :=
  match failingMove c k with
  | some (t, s) =>
    if s.waitSrc && (moveSources c t (entryOf c t)).isEmpty && tmbRuns c then
      moveEnded (askAbort t cw false (noteRakErr 1 t (raise .rak 0 2 c)))
    else c
  | none => c

def execRakSrcWaitExpiry (slot : RakSlot) (cw : CopyWrites) (s : State) : Out3 :=
  .next (onChip s (effSrcWaitExpiry slot cw))

/-- The source is reachable again in time: the slot resumes from its pointer (R349). -/
def effSrcResume (k : Nat) (c : Chip) : Chip :=
  match failingMove c k with
  | some (t, s) =>
    if s.waitSrc && !(moveSources c t (entryOf c t)).isEmpty then setRakSlot k { s with waitSrc := false } c else c
  | none => c

def execRakSrcResume (slot : RakSlot) (s : State) : Out3 := .next (onChip s (effSrcResume slot))

/-- The chunk of a job that a DISABLE cleared still runs: lines of a generation that has passed (R354). -/
def oldChunkRuns (c : Chip) (x : Nat) : Bool := (jobTxns c x).any fun t => t.gen != tenGen c x

/-- What a stopped slot began has ended: a move's claimed lines, or a cleared job's chunk (R350, R354). -/
def slotEnds (c : Chip) (s : RakSt) : Bool :=
  match s.work with
  | .move _ => s.claimed ≤ s.c
  | .job x => !oldChunkRuns c x

/-- A stopped slot frees when what it began has ended. -/
def effSlotFree (k : Nat) (c : Chip) : Chip :=
  match kvFind c.rak.slots k with
  | some s => if s.stopping && slotEnds c s then dropSlot k c else c
  | none => c

def execRakSlotFree (slot : RakSlot) (s : State) : Out3 := .next (onChip s (effSlotFree slot))

/-! ### Tenant jobs (R351 to R354) -/

/-- The lowest free slot. -/
def freeSlot (c : Chip) : Option Nat := (List.range 128).find? fun k => (kvFind c.rak.slots k).isNone

/-- A job starts once its earlier slate writes are visible or lost, and a slot is free for it. -/
def effJobStart (t : Nat) (c : Chip) : Chip :=
  if rakTakes c && nextJob c == some t then
    match freeSlot c with
    | some k => takeJob t k c
    | none => c
  else c

def execTenJobStart (t : Ten) (s : State) : Out3 := .next (onChip s (effJobStart t))

/-- The window of a job's line (R352): one of its tenancy, on its port. -/
def jobWin (c : Chip) (x dpa : Nat) : Option (Nat × Window) :=
  match poolMatch c (tenPort c x) dpa with
  | some (w, y) => if y.ten == x then some (w, y) else none
  | none => none

/-- The lookups of a chunk: 2 where a line meets a device or sealed window, 3 where one misses, 0 where all serve. -/
def chunkStatus (ws : List (Option (Nat × Window))) : Nat :=
  if ws.any fun w => match w with
      | some x => 2 ≤ x.2.rtype
      | none => false then 2
  else if ws.any fun w => w.isNone then 3
  else 0

/-- The pool line of a DPA through its window. -/
def jobLine (w : Option (Nat × Window)) (dpa : Nat) : Nat :=
  match w with
  | some (_, y) => if y.remote then remoteLine y.xid (poolAddr y dpa / 64) else poolAddr y dpa / 64
  | none => 0

def sharedOf (w : Option (Nat × Window)) : Bool := w.any fun x => x.2.shared

/-- What the lookups of an access of a chunk find in the tables: access i is line i's first, and 1024 + i a COPY's write
(12_coherence.md R419). -/
def lineEcc (eccs : List (Nat × Ecc)) (i : Nat) : Ecc := ((eccs.find? fun e => e.1 == i).map (·.2)).getD Ecc.none

/-- Line i of a chunk: a read of the source that its write follows, or the write of zeros. Each waits for the
tenancy's shaper; a read carries its write's line and sharing (Machine/Home.lean). -/
def chunkLine (x src dst : Nat) (copy : Bool) (eccs : List (Nat × Ecc)) (i : Nat) (c : Chip) : Chip :=
  let sw := jobWin c x (src + 64 * i)
  let dw := jobWin c x (dst + 64 * i)
  let sl := jobLine sw (src + 64 * i)
  let dl := jobLine dw (dst + 64 * i)
  let base : Txn := if copy then
      { ownTxn c .jobRd sl with dpa := dl, shared := sharedOf sw, res := b2n (sharedOf dw), win := (sw.map (·.1)).getD 0 }
    else { ownTxn c .jobWr dl with shared := sharedOf dw, win := (dw.map (·.1)).getD 0 }
  startTxn { base with port := tenPort c x, ten := some x, gen := tenGen c x, stage := .shaper, jobOff := i,
                       ecc := lineEcc eccs i, ecc2 := lineEcc eccs (1024 + i) } (fun _ c => c) c

/-- A tenant job may receive nothing: TEN_PCT is 0 and a move request is pending (R340). -/
def jobBarred (c : Chip) : Bool := getF c RAK_CAP_TEN_PCT 0 == 0 && !c.rak.pending.isEmpty

/-- A chunk starts (R352): its lines are looked up, each a lookup that BND counts (08_binding.md R288), and run as strict
accesses of the tenancy. -/
def effJobChunk (x : Nat) (eccs : List (Nat × Ecc)) (c : Chip) : Chip :=
  let s := tenSt c x
  let j := s.job
  if j.go && j.started && !j.paused && !j.chunk && !j.stopping && (jobSlot c x).isSome && tenState c x == 1 &&
      !jobBarred c then
    let n := min 1024 ((j.len - j.bytes) / 64)
    let copy := j.kind == 1
    let lines := List.range n
    let ws := (lines.map fun i => jobWin c x (j.dst + j.bytes + 64 * i)) ++
      (if copy then lines.map fun i => jobWin c x (j.src + j.bytes + 64 * i) else [])
    let c0 := countN .bnd 0 2 (some (bndSlice (tenPort c x))) ws.length c
    match chunkStatus ws with
    | 0 =>
      let c1 := countN .rak 0 3 none (64 * n) (setTenSt x { s with job := { j with chunk := true } } c0)
      settle (forEach lines (chunkLine x (j.src + j.bytes) (j.dst + j.bytes) copy eccs) c1)
    | st => jobEnd x st c0
  else c

def execTenJobChunk (t : Ten) (eccs : List (Nat × Ecc)) (s : State) : Out3 := .next (onChip s (effJobChunk t eccs))

end Sys2Proof.Machine
end

