-- ==== Sys2Proof/Machine/CareCore.lean ====
section
/-!
DEFINITION. Media care: device pages, care regions and records, charges, the care ring, device states, leaving and
returning, evacuation (11_media_care.md R359 to R390). The commands stand in Machine/Car.lean.
-/
namespace Sys2Proof.Machine

/-! ### Scaling by a power of 2 with a rational exponent (R375, R377) -/

/-- num / den * 2 ^ (d / D) is at least n, for a whole number d of either sign. -/
def scaledAtLeast (num den : Nat) (d : Int) (D n : Nat) : Bool :=
  if 0 ≤ d then (n * den) ^ D ≤ num ^ D * 2 ^ d.toNat else (n * den) ^ D * 2 ^ (-d).toNat ≤ num ^ D

/-- The largest n below 2 ^ b above `base` with that property. -/
def scaleBits (num den : Nat) (d : Int) (D : Nat) : Nat → Nat → Nat
  | 0, base => base
  | b + 1, base =>
    if scaledAtLeast num den d D (base + 2 ^ b) then scaleBits num den d D b (base + 2 ^ b) else scaleBits num den d D b base

/-- num / den * 2 ^ (d / D), truncated, below 2 ^ 64. -/
def scaledFloor (num den : Nat) (d : Int) (D : Nat) : Nat := scaleBits num den d D 64 0

/-- num / den * 2 ^ (d / D) is a whole number. -/
def scaledExact (num den : Nat) (d : Int) (D : Nat) : Bool :=
  let n := scaledFloor num den d D
  if 0 ≤ d then (n * den) ^ D == num ^ D * 2 ^ d.toNat else (n * den) ^ D * 2 ^ (-d).toNat == num ^ D

/-- A tile's margin: hours left of its retention, times 2 ^ (num / den) (R377). -/
structure Margin where
  tile : Nat
  left : Int
  num : Int
  den : Nat
deriving DecidableEq, Repr

/-- x * 2 ^ (n / d) is below y * 2 ^ (m / e). -/
def scaledLess (x : Nat) (n : Int) (d y : Nat) (m : Int) (e : Nat) : Bool :=
  let p := n * e
  let q := m * d
  x ^ (d * e) * 2 ^ (p - min p q).toNat < y ^ (d * e) * 2 ^ (q - min p q).toNat

/-- One margin is below another, exactly. -/
def marginLess (a b : Margin) : Bool :=
  if a.left < 0 then 0 ≤ b.left || scaledLess b.left.natAbs b.num b.den a.left.natAbs a.num a.den
  else 0 ≤ b.left && scaledLess a.left.natAbs a.num a.den b.left.natAbs b.num b.den

/-! ### Device pages (R359 to R362, R366) -/

def carPort (c : Chip) (d : Nat) : Nat := getF c CAR_DEV_CFG_PORT d
def isDense (c : Chip) (d : Nat) : Bool := getF c CAR_DEV_CFG_CLASS d == 1
def carPages (c : Chip) : List Nat := (listedPages c CAR_DEV_CFG_EN).filter fun d => isF c CAR_DEV_CFG_EN d

/-- The temperature in use, in 0.5 degrees (R366). -/
def careTemp (c : Chip) (d : Nat) : Int :=
  if isF c CAR_DEV_STAT_TVALID d then toInt 10 (getF c CAR_DEV_STAT_TEMP d) else ((2 * careF c CAR_DEV_THR_TDEF d : Nat) : Int)

/-- (T - TREF) / HALVE, as a numerator in 0.5 degrees over a denominator. -/
def careExpNum (c : Chip) (d : Nat) : Int := careTemp c d - ((2 * careF c CAR_DEV_MEDIA_TREF d : Nat) : Int)
def careExpDen (c : Chip) (d : Nat) : Nat := 2 * careF c CAR_DEV_MEDIA_HALVE d

/-- A health poll's step of the device age (R375): seconds as hours in 1/256, scaled; an inexact step is rounded down,
or up where Config says so (log entry 42). -/
def ageStep (c : Chip) (d secs : Nat) : Nat :=
  let n := scaledFloor (secs * 256) 3600 (careExpNum c d) (careExpDen c d)
  if scaledExact (secs * 256) 3600 (careExpNum c d) (careExpDen c d) then n
  else n + b2n (Config.ageRound secs (careTemp c d + 1024).toNat (careF c CAR_DEV_MEDIA_TREF d) (careF c CAR_DEV_MEDIA_HALVE d))

/-- The age advances while the device is READY (R375). -/
def advanceAge (d secs : Nat) (c : Chip) : Chip :=
  if isDense c d && devReady c (carPort c d) then
    setF CAR_DEV_AGE_AGE d (getF c CAR_DEV_AGE_AGE d + ageStep c d secs) c
  else c

/-! ### Records (R363, R364) -/

/-- Tiles of a care region (R363). -/
def careRegionSize (tiles : Nat) : Nat := (4096 + 16 * tiles + 2097151) / 2097152

/-- A device tile of the care region or of a map region. -/
def reservedTile (c : Chip) (p t : Nat) : Bool :=
  t < careRegionSize (getF c PRT_DEV_CAP_TILES p) || getF c PRT_DEV_CAP_TILES p - mapTilesOn c p ≤ t

def regionOf (c : Chip) (p : Nat) : CareRegion :=
  (diskAt c p).care.getD { tiles := 0, serial := 0, age := 0, passes := 0, wear0 := 0, recs := [], fresh := [] }

def setRegion (p : Nat) (r : CareRegion) (c : Chip) : Chip :=
  updDisk p (fun d => { d with care := some r }) c

/-- 32-bit word k of the region's header (R363). -/
def careHeadWord (r : CareRegion) (k : Nat) : Nat :=
  match k with
  | 0 => 0x45524143
  | 1 => r.tiles
  | 2 => r.serial % 2 ^ 32
  | 3 => r.serial / 2 ^ 32
  | 4 => r.age
  | 5 => careRegionSize r.tiles
  | 6 => r.passes
  | _ => 0

/-- 32-bit word k of a care record (R364). -/
def careRecWord (x : CareRec) (k : Nat) : Nat :=
  match k with
  | 0 => x.wear
  | 1 => x.stamp + x.flips * 2 ^ 24 + x.defects * 2 ^ 28
  | 2 => x.tile.getD 0x1FFFFFFF + b2n x.slot * 2 ^ 29 + b2n x.retired * 2 ^ 30 + b2n x.rsvd * 2 ^ 31
  | _ => 0

/-- The record of a device tile: one that is not listed holds no tile and the initial wear. -/
def recAt (c : Chip) (p t : Nat) : CareRec :=
  let r := regionOf c p
  (kvFind r.recs t).getD { CareRec.zero with wear := r.wear0, rsvd := reservedTile c p t }

/-- The 32-bit word at a byte offset of a device's care region: the header, the fresh list from 0x40, whose unused entries
read 0xFFFF_FFFF, and the records (R363, R364, R374). -/
def careWordAt (c : Chip) (p a : Nat) : Nat :=
  let r := regionOf c p
  if a < 0x40 then careHeadWord r (a / 4)
  else if a < 4096 then (r.fresh[(a - 0x40) / 4]?).getD 0xFFFFFFFF
  else careRecWord (recAt c p ((a - 4096) / 16)) (a % 16 / 4)

/-- A record written back, counted (R369 step 5). -/
def writeRec (d p t : Nat) (x : CareRec) (c : Chip) : Chip :=
  let r := regionOf c p
  count .carD d 2 (setRegion p { r with recs := kvPut r.recs t x } c)

/-! ### Charges (R370, R371) -/

def pendingWear (c : Chip) (w : Nat) : Nat := ((c.car.wear.find? fun x => x.1 == w).map (·.2)).getD 0

/-- The oldest cached tile's record line is written at once, and its place is free (R370). -/
def flushOldest (c : Chip) : Chip :=
  match c.car.wear with
  | [] => c
  | (w, n) :: rest =>
    let c1 := count .carC 0 6 { c with car := { c.car with wear := rest } }
    match carePageOf c1 (locPort w) with
    | some d =>
      let x := recAt c1 (locPort w) (locTile w)
      writeRec d (locPort w) (locTile w) { x with wear := satAdd 32 x.wear n } c1
    | none => c1

/-- n line writes charged to a DENSE device tile (R371): into the wear cache, which makes room by a flush; while CAR may not
write it makes none, and the charge is dropped (R370, R378). -/
def chargeTile (w n : Nat) (c : Chip) : Chip :=
  match carePageOf c (locPort w) with
  | none => c
  | some d =>
    if !isDense c d || n = 0 then c
    else if c.car.wear.any fun x => x.1 == w then
      { c with car := { c.car with wear := c.car.wear.map fun x => if x.1 = w then (w, x.2 + n) else x } }
    else if c.car.wear.length < 262144 then { c with car := { c.car with wear := c.car.wear ++ [(w, n)] } }
    else if !careWrites c then count .carC 0 7 c
    else
      let c1 := flushOldest c
      { c1 with car := { c1.car with wear := c1.car.wear ++ [(w, n)] } }

/-- The sweep's charge for WMARK w, once for each location (R371). -/
def chargeMarks (e : Entry) (c : Chip) : Chip :=
  let n := if e.wmark = 255 then 1024 else e.wmark
  forEach (if e.twin then [e.loc0, e.loc1] else [e.loc0]) (fun w c => chargeTile w n c) c

/-! ### The care ring (R372) -/

/-- Items that wait enter the ring while it has room; CAR_RING is raised when it becomes non-empty. -/
def feedRing (c : Chip) : Chip :=
  let n := 4096 - c.car.ring.length
  let moved := c.car.posting.take n
  if moved.isEmpty then c
  else whenB c.car.ring.isEmpty (event .carC 0 1)
    { c with car := { c.car with ring := c.car.ring ++ moved, posting := c.car.posting.drop n } }

/-- CAR posts an item: 0 REWET, 1 WEAR, 2 RETIRE, 3 EVACUATE, 4 RESTORE, 5 LOST, 6 RECOVER. -/
def postItem (kind tile : Nat) (slot : Bool) (p : Nat) (c : Chip) : Chip :=
  feedRing (countQ .carC 0 8 kind
    { c with car := { c.car with posting := c.car.posting ++ [{ kind := kind, tile := tile, slot := slot, port := p, state := (entryOf c tile).state }] } })

/-! ### Locations on a device -/

/-- Every location that the map's entries have on a device: tile, slot, entry. -/
def locsOn (c : Chip) (p : Nat) : List (Nat × Bool × Entry) :=
  (listedTiles c).foldl (fun l t =>
    let e := entryOf c t
    if e.state == 0 || e.state == 5 || c.map.unreadable.contains t then l
    else l ++ (if locPort e.loc0 = p then [(t, false, e)] else []) ++
      (if e.twin && locPort e.loc1 == p then [(t, true, e)] else [])) []

def twinsOn (c : Chip) (p : Nat) : Bool := (locsOn c p).any fun x => x.2.2.twin

/-- LOST posted for every single tile of the device that is not LOST yet (R384, R385). -/
def postLost (p : Nat) (c : Chip) : Chip :=
  forEach ((locsOn c p).filter fun x => !x.2.2.twin && x.2.2.state != 4) (fun x c => postItem 5 x.1 x.2.1 p c) c

/-- RESTORE posted for every twin location on the device. -/
def postRestore (p : Nat) (c : Chip) : Chip :=
  forEach ((locsOn c p).filter fun x => x.2.2.twin) (fun x c => postItem 4 x.1 x.2.1 p c) c

/-! ### Device states (R368) -/

def retiredCount (c : Chip) (d : Nat) : Nat :=
  ((regionOf c (carPort c d)).recs.filter fun x => x.2.retired).length

/-- The state that R368 gives. -/
def stateOf (c : Chip) (d : Nat) : Nat :=
  let tiles := getF c PRT_DEV_CAP_TILES (carPort c d)
  let pct := careF c CAR_DEV_THR_RETMAX_PCT d
  let n := retiredCount c d
  let some' := tiles != 0
  if !isF c CAR_DEV_CFG_EN d || !c.car.wasReady.contains d then 0
  else if isF c CAR_DEV_STAT_HOLD d then 5
  else if getF c CAR_DEV_EVAC_STATUS d = 1 then 4
  else if c.car.eol.contains d || isF c CAR_DEV_STAT_REPLACE d || getF c CAR_DEV_STAT_LIFE d == 100 ||
      (some' && pct * tiles ≤ 100 * n) then 3
  else if isF c CAR_DEV_STAT_MAINT d || isF c CAR_DEV_STAT_DEGRADED d || 80 ≤ getF c CAR_DEV_STAT_LIFE d ||
      (some' && pct * tiles ≤ 200 * n) then 2
  else 1

/-- The state is evaluated again; entry to WARN and to EOL raise their faults. -/
def evalState (d : Nat) (c : Chip) : Chip :=
  let old := getF c CAR_DEV_STAT_STATE d
  let s := stateOf c d
  let c0 := if s = 3 then { c with car := { c.car with eol := addNew c.car.eol d } } else c
  let c1 := setF CAR_DEV_RETIRED_N d (retiredCount c d) (setF CAR_DEV_STAT_STATE d s c0)
  if s == old then c1
  else whenB (s == 3) (raise .carD d 3) (whenB (s == 2) (raise .carD d 2) c1)

/-! ### Evacuation (R386, R387) -/

/-- An evacuation ends otherwise than DONE. -/
def evacFail (d code : Nat) (c : Chip) : Chip :=
  evalState d (setF PRT_SLOT_REMOVE_REQ (carPort c d) 0 (raise .carD d 4 (setF CAR_DEV_EVAC_STATUS d code c)))

/-- A scan of the map: EVACUATE posted for every location on the device. -/
def evacScan (d : Nat) (c : Chip) : Chip :=
  let ls := locsOn c (carPort c d)
  forEach ls (fun x c => postItem 3 x.1 x.2.1 (carPort c d) c)
    (count .carC 0 9 (setF CAR_DEV_EVAC_LEFT_LEFT d ls.length c))

/-- The device holds a map copy (R290). -/
def holdsMapCopy (c : Chip) (p : Nat) : Bool := mapTilesOn c p != 0

/-- REMOVE_REQ starts an evacuation. -/
def evacStart (d : Nat) (c : Chip) : Chip :=
  if holdsMapCopy c (carPort c d) then evacFail d 5 c
  else evacScan d (evalState d (setF CAR_DEV_EVAC_STATUS d 1 c))

/-! ### Leaving and returning (R365, R383, R385) -/

/-- A cared device face leaves READY: HOLD, the end of its evacuation, and LOST_WAIT. -/
def carLeft (p : Nat) (c : Chip) : Chip :=
  match carePageOf c p with
  | none => c
  | some d =>
    let c0 := { c with car := { c.car with lostWait := addNew c.car.lostWait d, eol := without c.car.eol d,
                                           initOwed := without c.car.initOwed d } }
    let c1 := setF CAR_DEV_STAT_HOLD d 1 c0
    let c2 := if getF c1 CAR_DEV_EVAC_STATUS d = 1 then evacFail d 6 c1 else c1
    evalState d c2

/-- WEAR of an initialised DENSE region's records (R365). -/
def firstWear (c : Chip) (d life : Nat) : Nat :=
  if isDense c d then min (life * careF c CAR_DEV_WEAR_ENDUR d * 327680) (2 ^ 32 - 1) else 0

/-- The region of a page's device is initialised (R365). -/
def initRegion (d : Nat) (c : Chip) : Chip :=
  let p := carPort c d
  let dev := (prtSt c p).dev
  let r : CareRegion := { tiles := getF c PRT_DEV_CAP_TILES p, serial := (dev.map (·.serial)).getD 0, age := 0, passes := 0,
                          wear0 := firstWear c d ((dev.map (·.lifeUsed.val)).getD 0), recs := [], fresh := [] }
  event .carD d 2 (setRegion p r { c with car := { c.car with initOwed := without c.car.initOwed d } })

/-- The region is to be initialised, device age 0, which no pass has seen: at once, or when CAR may write again; until then
the device holds none (R93, R369, R378). -/
def askInit (d : Nat) (c : Chip) : Chip :=
  let c1 := setF CAR_DEV_AGE_AGE d 0 { c with car := { c.car with agePrev := kvPut c.car.agePrev d 0 } }
  if careWrites c1 then initRegion d c1
  else
    let c2 := { c1 with car := { c1.car with initOwed := addNew c1.car.initOwed d } }
    updDisk (carPort c2 d) (fun x => { x with care := Option.none }) c2

/-- CAR may write again: the regions that wait are initialised. -/
def initAll (c : Chip) : Chip := if careWrites c then forEach c.car.initOwed initRegion c else c

/-- The region is read at READY: resumed where its header matches the device, else initialised (R365). -/
def readRegion (d p serial : Nat) (c : Chip) : Chip :=
  let fits := match (diskAt c p).care with
    | some r => r.tiles == getF c PRT_DEV_CAP_TILES p && r.serial == serial
    | none => false
  if fits then
    setF CAR_DEV_AGE_AGE d ((regionOf c p).age + getF c CAR_TIMERS2_OFF_EQH 0 * 256) c
  else askInit d c

/-- The device returns while HOLD stands (R383, R385). -/
def carReturn (d p : Nat) (same : Bool) (serial : Nat) (c : Chip) : Chip :=
  if same then
    let c0 := { c with car := { c.car with newDevice := without c.car.newDevice d } }
    let c1 := readRegion d p serial (setF CAR_DEV_STAT_HOLD d 0 c0)
    let c2 := whenB (twinsOn c1 p) (setF CAR_DEV_STAT_TWSTALE d 1) c1
    if isF c2 CAR_CTRL_RECOVER 0 then c2
    else forEach ((locsOn c2 p).filter fun x => x.2.2.state == 4) (fun x c => postItem 6 x.1 x.2.1 p c) c2
  else
    let c1 := { c with car := { c.car with newDevice := addNew c.car.newDevice d } }
    postRestore p (postLost p c1)

/-- Until a health poll has succeeded, the temperature in use is TDEF (R366, R389). -/
def fallbackTemp (d : Nat) (c : Chip) : Chip :=
  if isF c CAR_DEV_STAT_TVALID d then c else setF CAR_DEV_STAT_TEMP d (2 * careF c CAR_DEV_THR_TDEF d) c

/-- A device face reaches READY (R361, R365, R385): a defect is counted for each entry of its poison list (R367). -/
def carReady (p : Nat) (same : Bool) (serial : Nat) (poison : List Nat) (c : Chip) : Chip :=
  match carePageOf c p with
  | none => raise .carC 0 5 c
  | some d =>
    let tiles := poison.filter fun t => t < getF c PRT_DEV_CAP_TILES p
    let c1 := setF CAR_DEV_REGION_C d (careRegionSize (getF c PRT_DEV_CAP_TILES p))
      { c with car := { c.car with wasReady := addNew c.car.wasReady d, lostWait := without c.car.lostWait d } }
    let c2 := fallbackTemp d (if isF c1 CAR_DEV_STAT_HOLD d then carReturn d p same serial c1 else readRegion d p serial c1)
    forEach tiles (fun t c => carDefect (locWord p t) c) (evalState d c2)

end Sys2Proof.Machine
end

