-- ==== Sys2Proof/Machine/Mrk.lean ====
section
/-!
DEFINITION. Marks, terms, the sweep and its candidates (10_placement.md R322 to R330, R355). The moves decided on them stand
in Machine/Prefect.lean.
-/
namespace Sys2Proof.Machine

/-! ### Thresholds (R327, R328) -/

def enabledPans (c : Chip) : List Nat := (List.range 4).filter (panEnabled c)

/-- The next enabled pan above p. -/
def nextPan (c : Chip) (p : Nat) : Option Nat := (enabledPans c).find? fun q => p < q

def promoteOf (c : Chip) (p : Nat) : Nat := getFi c MRK_PAN_CFG_PROMOTE 0 p
def demoteField (c : Chip) (p : Nat) : Nat := getFi c MRK_PAN_CFG_DEMOTE 0 p

/-- DEMOTE of an enabled pan is clamped for the sweep (R328). -/
def clamped (c : Chip) (p : Nat) : Bool :=
  panEnabled c p && (nextPan c p).any fun q => promoteOf c q ≤ demoteField c p

/-- DEMOTE as the sweep uses it; none where no DOWN candidate can arise. -/
def demoteOf (c : Chip) (p : Nat) : Option Nat :=
  if clamped c p then
    match nextPan c p with
    | some q => if promoteOf c q = 0 then none else some (promoteOf c q - 1)
    | none => none
  else some (demoteField c p)

def heatOf (c : Chip) (e : Entry) : Nat := min 255 (e.rmark + getFi c MRK_PAN_CFG_WW 0 (locPan c e.loc0) * e.wmark)

/-- UP is some false, DOWN some true (R327). -/
def candDir (c : Chip) (e : Entry) : Option Bool :=
  let p := locPan c e.loc0
  let h := heatOf c e
  if e.state != 1 then none
  else if promoteOf c p ≤ h && (enabledPans c).any fun n => n < p then some false
  else if ((demoteOf c p).any fun d => h ≤ d) && (enabledPans c).any fun n => p < n then some true
  else none

/-! ### The sweep (R325, R329, R330) -/

/-- Keys of the running sweep's counts beside the histogram: UP and DOWN candidates. -/
def upKey : Nat := 64
def downKey : Nat := 65

def bumpHist (k : Nat) (c : Chip) : Chip :=
  { c with mrk := { c.mrk with histNext := kvMod 0 c.mrk.histNext k (· + 1) } }

/-- The 8-byte candidate record (R329). -/
def Cand.record (x : Cand) : Nat :=
  x.tile + b2n x.down * 2 ^ 29 + x.pan * 2 ^ 30 + x.rmark * 2 ^ 32 + x.wmark * 2 ^ 40 + x.heat * 2 ^ 48

/-- A candidate's record in its form's ring, or dropped (R329). -/
def putCand (t : Nat) (down : Bool) (e : Entry) (c : Chip) : Chip :=
  let f := formOf t
  let r := kvGet [] c.mrk.rings f
  let x : Cand := { tile := t, down := down, pan := locPan c e.loc0, rmark := e.rmark, wmark := e.wmark, heat := heatOf c e }
  let c1 := bumpHist (if down then downKey else upKey) (count .mrk 0 (if down then 4 else 3) c)
  if r.length < 16384 then { c1 with mrk := { c1.mrk with rings := kvSet [] c1.mrk.rings f (r ++ [x]) } }
  else
    let c2 := whenB (c1.mrk.dropped == 0) (raise .mrk 0 2) (count .mrk 0 5 c1)
    { c2 with mrk := { c2.mrk with dropped := c2.mrk.dropped + 1 } }

/-- The marks of an entry set to 0 in the cache, without a use of its line. -/
def zeroMarks (e : Entry) : Entry := { e with rmark := 0, wmark := 0 }

/-- The sweep takes the marks of a line's four entries in one step (R325): from the cache; or from a stored copy, and then
the line, if it holds a mark, is written back to copy A and to copy B with marks of 0. -/
def takeMarks (l : Nat) (c : Chip) : Chip :=
  match kvFind c.map.cache l with
  | some x => { c with map := { c.map with cache := kvPut c.map.cache l { x with e := x.e.map zeroMarks, base := [] } } }
  | none =>
    let es := (lineTiles l).map fun t => (t, storedEntry c t)
    if es.any fun e => e.2.rmark != 0 || e.2.wmark != 0 then
      forEach es (fun e c => (writeCopies e.1 (zeroMarks e.2) { aFail := false, bFail := false } c).2) c
    else c

/-- What the sweep makes of an entry whose marks it has taken (R327, R329, R330, R371). -/
def sweepEntry (t : Nat) (e : Entry) (c : Chip) : Chip :=
  let c1 := if e.state = 0 ∨ e.state = 5 then c else chargeMarks e c
  let c2 := if e.state = 1 then bumpHist (locPan c e.loc0 * 16 + heatOf c e / 16) c1 else c1
  match candDir c e with
  | some d => putCand t d e c2
  | none => c2

/-- One line of the sweep; a line that is not in the cache and that no copy returns is left out. -/
def sweepLine (l : Nat) (c : Chip) : Chip :=
  let cached := (kvFind c.map.cache l).isSome
  let ts := (lineTiles l).filter fun t => !c.map.unreadable.contains t
  if !cached && (mapSingle c == 3 || ts.isEmpty) then c
  else
    let es := ts.map fun t => (t, entryOf c t)
    forEach es (fun e c => sweepEntry e.1 e.2 c) (takeMarks l c)

/-- Lines that hold an entry which is not all zeros, in ascending order; the others hold no marks and no candidate. -/
def listedLines (c : Chip) : List Nat := ((sortNat (listedTiles c)).map mapLineOf).foldl addNew []

/-- A term ends: counted, and its sweep takes every mark (R324, R325, R328), with CONFIRM as it is then (15_mode_matrix.md
R483). `bad` are the lines that the sweep reads from
neither copy: their entries are unreadable (09_tile_map.md R309). -/
def endTerm (bad : List Nat) (c : Chip) : Chip :=
  let c1 := event .mrk 0 0 (wrapF MRK_TERMNO_N 0 1 c)
  let c2 := { c1 with mrk := { c1.mrk with sweeping := true, histNext := [], dropped := 0, issued := 0, todo := [],
                                           confirmNow := getF c1 MRK_CTRL_CONFIRM 0 } }
  let c3 := whenB ((List.range 4).any (clamped c2)) (raise .mrk 0 1) c2
  if mapRunning c3 then
    let c4 := badLines bad c3
    forEach (listedLines c4) sweepLine c4
  else c3

/-- A term ends, or is deferred to the end of the sweep that runs (R326, R355). -/
def effTermEnd (bad : List Nat) (c : Chip) : Chip :=
  if c.mrk.termRuns && tmbRuns c && !c.mrk.deferred then
    if c.mrk.sweeping then raise .mrk 0 0 { c with mrk := { c.mrk with deferred := true } } else endTerm bad c
  else c

def execMrkTermEnd (bad : List Nat) (s : State) : Out3 := .next (onChip s (effTermEnd bad))

/-- MRK_CTRL.EN: 1 starts the first term, 0 ends terms after the running sweep (R324). -/
def effMrkEnable (on : Bool) (c : Chip) : Chip :=
  let c1 := setF MRK_CTRL_EN 0 (b2n on) c
  { c1 with mrk := { c1.mrk with termRuns := on, deferred := c1.mrk.deferred && on } }

def execMrkEnable (pa : Path) (on : Bool) (s : State) : Out3 :=
  .next (onChip s (reachReg pa .mrk 0 0x040 (effMrkEnable on)))

/-- The sweep ends: its duration, its counts, the moves decided on it, and a deferred term's end (R325, R326). -/
def effSweepDone (durUs : Nat) (ps : List MovePick) (bad : List Nat) (c : Chip) : Chip :=
  if c.mrk.sweeping then
    let c1 := event .mrk 0 1 (count .mrk 0 2 (setF MRK_SWEEP_T_T 0 durUs c))
    let c2 := setF MRK_CAND_DROP_N 0 c1.mrk.dropped (setF MRK_CAND_DOWN_N 0 (kvGet 0 c1.mrk.histNext downKey)
      (setF MRK_CAND_UP_N 0 (kvGet 0 c1.mrk.histNext upKey) c1))
    let c3 := { c2 with mrk := { c2.mrk with sweeping := false, hist := c2.mrk.histNext } }
    let c4 := if prefectsRun c3 then decideMoves ps c3 else c3
    if c4.mrk.deferred && c4.mrk.termRuns then endTerm bad { c4 with mrk := { c4.mrk with deferred := false } } else c4
  else c

def execMrkSweepDone (durUs : Nat) (picks : List MovePick) (bad : List Nat) (s : State) : Out3 :=
  .next (onChip s (effSweepDone durUs picks bad))

end Sys2Proof.Machine
end

