-- ==== Sys2Proof/Machine/Rol.lean ====
section
/-!
DEFINITION. The commands of the roll: answers to snoops, line locks, timeouts, the scrub's end and its registers
(12_coherence.md R396 to R410, R421).
-/
namespace Sys2Proof.Machine

def rspCode (r : BiRsp) : Nat :=
  match r with
  | .i => 0 | .s => 1 | .e => 2

/-- Answers that R396 allows for a snoop. -/
def rspValid (t : SnpType) (r : BiRsp) : Bool :=
  match r, t with
  | .i, _ => true
  | .s, .inv => false
  | .s, _ => true
  | .e, .cur => true
  | .e, _ => false

/-- The open snoop that a tag of a pool face names. -/
def snoopByTag (c : Chip) (p tag : Nat) : Option Snoop :=
  c.rol.snoops.find? fun s => s.port == p && s.tag == tag && !s.answered && !s.gone

def answerSnoop (s : Snoop) (r : BiRsp) (c : Chip) : Chip :=
  { c with rol := { c.rol with snoops := c.rol.snoops.map fun x =>
      if x.tag = s.tag then { x with answered := true, rsp := r } else x } }

/-- An answer that no rule allows (R396). -/
def rolProto (h l : Nat) (c : Chip) : Chip := raise .rolC 0 4 (noteRolErr 2 h l c)

/-- A BIRsp arrives on a pool face (R396). One that matches no open snoop is discarded; the line that its record
would name is not stated, so a free value stands there (log entry 6). -/
def effBirsp (p tag : Nat) (r : BiRsp) (c : Chip) : Chip :=
  if !carriesMem c p then c
  else freeCredits p .biRsp 0 (match snoopByTag c p tag with
    | some s =>
      let c1 := countRol (rolSlice s.line) 5 (some (rspCode r)) c
      if rspValid s.typ r then settle (answerSnoop s r c1)
      else settle (rolProto s.host s.line (answerSnoop s .i c1))
    | none => takeDraw (rolProto ((hostOf c p).getD (drawn c % 256)) (drawn c % 2 ^ 44) c))

def execBirspReceive (p : Port) (snoopTag : Nat) (rsp : BiRsp) (s : State) : Out3 :=
  .next (onChip s (effBirsp p snoopTag rsp))

/-- BIConflict is answered at once, without the line lock (R399). -/
def execBiconflictReceive (p : Port) (_line : PLine) (tag : Nat) (s : State) : Out3 :=
  .next (onChip s fun c => whenB (carriesMem c p) (fun c => send (.biConflictAck p tag) (freeCredits p .biConflict 0 c)) c)

/-- What waits for a line's lock, in the order of decision. -/
def lineWaits (c : Chip) (l : Nat) : List Txn := c.txns.filter fun u => u.line == l && (u.stage == .lockWait || u.stage == .parked)

/-- What is served next: the slice's own poison write or broadcast before any request, then the earliest (R402, R408). -/
def nextWait (c : Chip) (l : Nat) : Option Txn :=
  match (lineWaits c l).find? fun u => u.kind == .ownerPoison || u.kind == .evict with
  | some u => some u
  | none => (lineWaits c l).head?

/-- A request that has waited is decided as the line now stands: a write whose host has become the owner is a holder write,
and a request for a cache state waits for the entry that its slate has taken meanwhile (R46, R479, R486). -/
def decideWaited (u : Txn) (c : Chip) : Chip :=
  match u.kind with
  | .ownerPoison => ownerWrite u c
  | .evict => broadcastGo u c
  | _ =>
    if !u.shared then homeGo u c
    else if holderHere c u then rollHolder u (u.host.getD 0) c
    else if heldBySlate c u then holdForSlate u c
    else rollDecide u c

/-- The next that waits for a line, if the line's lock and a tracker are free (R402, R403). -/
def serveNext (l : Nat) (c : Chip) : Chip :=
  if lineLocked c l || 1024 ≤ trackersUsed c (rolSlice l) then c
  else match nextWait c l with
    | some u => decideWaited u c
    | none => c

def execLineLockRelease (line : PLine) (s : State) : Out3 := .next (onChip s fun c => settle (serveNext line c))

/-- A host leaves a BISnp unanswered for SNP_TMO (R407). -/
def effSnpTimeout (tag : Nat) (c : Chip) : Chip :=
  match c.rol.snoops.find? fun s => s.tag == tag && !s.answered && !s.gone with
  | some s =>
    if tmbRuns c then
      settle (departHost s.host (!inL0 c s.port) (raise .rolC 0 2 (noteRolErr 4 s.host s.line c)))
    else c
  | none => c

def execRolSnpTimeout (snoopTag : Nat) (s : State) : Out3 := .next (onChip s (effSnpTimeout snoopTag))

/-- The bits of departed hosts that both conditions of R410 release. -/
def clearGone (c : Chip) : Chip :=
  if isF c ROL_STAT_SCRUB 0 then c
  else
    let c1 := forEach c.rol.goneMet (fun h c => setGone h false c) c
    { c1 with rol := { c1.rol with goneMet := [] } }

/-- The face of a departed host has left L0 or been reset (R410). -/
def metGone (p : Nat) (c : Chip) : Chip :=
  match hostOf c p with
  | some h => if hostGone c h then clearGone { c with rol := { c.rol with goneMet := addNew c.rol.goneMet h } } else c
  | none => c

/-- The scrub ends once every owner-lost line is poisoned (R409). -/
def effScrubDone (c : Chip) : Chip :=
  if isF c ROL_STAT_SCRUB 0 && !(c.txns.any fun t => t.kind == .ownerPoison) then
    clearGone (event .rolC 0 1 (setF ROL_STAT_SCRUB 0 0 c))
  else c

def execRolScrubDone (s : State) : Out3 := .next (onChip s effScrubDone)

/-- The 64 bits of an entry (R392). -/
def entryBits (l : Nat) (e : RollEntry) : Nat :=
  let shr := if e.coarse then e.groups.toNat else (e.hosts.mapIdx fun i h => h * 2 ^ (8 * i)).foldl (· + ·) 0
  l / 262144 + b2n e.coarse * 2 ^ 26 + (if e.owned then 2 else 1) * 2 ^ 27 +
    (if e.coarse then 0 else e.hosts.length) * 2 ^ 29 + shr * 2 ^ 32

/-- A probe runs whole: it looks the line up and changes nothing else (R421). -/
def probe (c : Chip) : Chip :=
  let l := getF c ROL_PROBE_LINE_HI 0 * 2 ^ 32 + getF c ROL_PROBE_LO_LINE_LO 0
  let v := match rolEntry c l with
    | some e => entryBits l e
    | none => 0
  setF ROL_PROBE_HIT 0 (b2n (rolEntry c l).isSome) (setF ROL_PROBE_LOCKED 0 (b2n (lineLocked c l))
    (setF64 ROL_PROBE_E0_ENTRY ROL_PROBE_E1_ENTRY 0 v c))

def execRolProbe (pa : Path) (s : State) : Out3 := .next (onChip s (reachReg pa .rolC 0 0x080 probe))

def parkHwClr (c : Chip) : Chip := setF ROL_PARK_HW_HW 0 (parkUsed c) c

def execRolParkHwClr (pa : Path) (s : State) : Out3 := .next (onChip s (reachReg pa .rolC 0 0x06C parkHwClr))

end Sys2Proof.Machine
end

