-- ==== Sys2Proof/Machine/SlpCore.lean ====
section
/-!
DEFINITION. Slot power channels: presence, requests, gates, trips and power-good (17_slot_power.md R510 to R522). The
commands stand in Machine/Slp.lean. STATE is the state of R514: 0 OFF, 1 HOLD, 2 RAMP, 3 QUALIFY, 4 ON, 5 LIMIT, 6
COOL, 7 FAULT.
-/
namespace Sys2Proof.Machine

/-! ### Which port names a channel, and raw presence (R510, R511) -/

def slotted (c : Chip) (p : Nat) : Bool := isF c PRT_SLOT_SLOTTED p

/-- The enabled slotted port that names channel n. -/
def portOfChan (c : Chip) (n : Nat) : Option Nat :=
  (enabledPorts c).find? fun p => slotted c p && getF c PRT_SLOT_CHAN p == n

/-- A chain bit of the last published input image. -/
def chainIn (c : Chip) (b : Nat) : Bool := c.sbc.inImg.getLsbD b

/-- Raw presence: the naming port's PRSNT bit, else PBIT; a PBIT of 1,023 is always present. -/
def rawPresent (c : Chip) (n : Nat) : Bool :=
  let own := if getF c SLP_PRES_PBIT n = 1023 then true else chainIn c (getF c SLP_PRES_PBIT n)
  match portOfChan c n with
  | some p => if getF c PRT_SLOT_IN_PRSNT p = 1023 then own else chainIn c (getF c PRT_SLOT_IN_PRSNT p)
  | none => own

/-! ### States -/

def chanState (c : Chip) (n : Nat) : Nat := getF c SLP_STAT_STATE n
def setChan (n v : Nat) (c : Chip) : Chip := setF SLP_STAT_STATE n v c
def allChans : List Nat := List.range 64

/-- The gate is driven: RAMP, QUALIFY, ON or LIMIT. -/
def gateDriven (c : Chip) (n : Nat) : Bool := 2 ≤ chanState c n && chanState c n ≤ 5

/-- A change of power-good moves the naming port's hot-add (06_ports.md R219 steps 2 and 3). -/
def pgMoves (n : Nat) (up : Bool) (c : Chip) : Chip :=
  match portOfChan c n with
  | none => c
  | some p =>
    let s := prtSt c p
    match s.hot, up with
    | .waitPower, true => setPrtSt p { s with hot := .waitPerst } c
    | .waitPerst, false => setPrtSt p { s with hot := .waitPower } c
    | _, _ => c

/-- PG changes: SLP_PG_UP or SLP_PG_DOWN (R517). -/
def setPg (n : Nat) (v : Bool) (c : Chip) : Chip :=
  if isF c SLP_STAT_PG n == v then c
  else pgMoves n v (event .slp n (if v then 0 else 1) (setF SLP_STAT_PG n (b2n v) c))

/-- The gate goes off and the channel enters a state without a gate; GATE_nn falls to GND, so SLP_GATE reads 0 (R513,
R515, R520). -/
def gateOff (n st : Nat) (c : Chip) : Chip :=
  let c0 := setF SLP_GATE_VGS n 0 (setF SLP_STAT_LIMIT n 0 (setF SLP_STAT_GATEFULL n 0 (setChan n st c)))
  let c1 := setPg n false c0
  setSlpSt n { slpSt c1 n with faultRuns := false, rampRuns := false } c1

/-- OFF leaves to HOLD when EN and REQ are 1 and presence is qualified (R514). -/
def tryHold (n : Nat) (c : Chip) : Chip :=
  if chanState c n = 0 ∧ isF c SLP_CFG_EN n = true ∧ isF c SLP_CTRL_REQ n = true ∧ isF c SLP_STAT_PRESENT n = true then
    setChan n 1 c
  else c

/-- REQ takes a value: 0 enters OFF and clears RETRY (R510, R514, R521). -/
def setReq (n : Nat) (v : Bool) (c : Chip) : Chip :=
  let c1 := setF SLP_CTRL_REQ n (b2n v) c
  if v then tryHold n c1
  else
    let c2 := setF SLP_STAT_RETRY n 0 c1
    if isF c2 SLP_CFG_EN n then gateOff n 0 c2 else c2

/-! ### Trips (R515, R516, R518) -/

/-- A trip with a cause: 1 TIMER, 2 FAST, 3 RAMP_TO. -/
def trip (n cause : Nat) (c : Chip) : Chip :=
  let latch := getF c SLP_CFG_RETRIES n ≤ getF c SLP_STAT_RETRY n
  let c1 := countQ .slp n 3 cause (raise .slp n 0 (gateOff n (if latch then 7 else 6) c))
  let c2 := setF64 SLP_TRIP_T_LO_TIME SLP_TRIP_T_HI_TIME n (nowNs c1) (setF SLP_STAT_CAUSE n cause c1)
  let c3 := setF SLP_COOL_LEFT_MS n (100 * (getF c2 SLP_TIM_COOL n + 1)) c2
  whenB latch (raise .slp n 1) (setSlpSt n { slpSt c3 n with coolRuns := true, coolAt := c3.slp.aux } c3)

/-- Milliseconds of the cooldown that remain, by the auxiliary timer (R518; 22_register_map.md R629). -/
def coolLeft (c : Chip) (n : Nat) : Nat :=
  if (slpSt c n).coolRuns then
    getF c SLP_COOL_LEFT_MS n - (c.slp.aux - (slpSt c n).coolAt) / 1000000
  else 0

/-! ### Admission (R519) -/

def ramping (c : Chip) : Nat := (allChans.filter fun n => chanState c n == 2).length
def waitingChans (c : Chip) : List Nat := allChans.filter fun n => chanState c n == 1

/-- In HOLD with its cooldown ended. -/
def admissible (c : Chip) (n : Nat) : Bool := chanState c n == 1 && !(slpSt c n).coolRuns

/-- GAP has passed since any channel last entered RAMP. -/
def gapOver (c : Chip) : Bool := c.slp.lastRamp.all fun t => t + 1000000 * getF c SLP_SHELF_GAP 0 ≤ c.slp.aux

/-- Channel n is the one admitted next: HV_IN is valid, MAXRAMP leaves room, GAP has passed, and no lower channel waits for
the same. -/
def admitted (c : Chip) (n : Nat) : Bool :=
  c.slp.hvOk && gapOver c && ramping c < getF c SLP_SHELF_MAXRAMP 0 && allChans.find? (admissible c) == some n

/-! ### What the shunt and the rail read (R527) -/

/-- The shunt voltage in 10 microvolts, and its peak. -/
def senseShunt (n isns : Nat) (c : Chip) : Chip :=
  let c1 := setF SLP_SENSE_ISNS n isns c
  setF SLP_PEAK_PEAK n (max (getF c1 SLP_PEAK_PEAK n) isns) c1

/-- The rail in mV. -/
def senseRail (n srail : Nat) (c : Chip) : Chip := setF SLP_SENSE_SRAIL n srail c

def limitLevel (c : Chip) (n : Nat) : Nat := 100 * getF c SLP_CFG_VLIM n
def warnLevel (c : Chip) (n : Nat) : Nat := 50 * getF c SLP_RAIL_VWARN n
def goodLevel (c : Chip) (n : Nat) : Nat := warnLevel c n + 10 * getF c SLP_RAIL_VHYS n

end Sys2Proof.Machine
end

