-- ==== Sys2Proof/Machine/Pool.lean ====
section
/-!
DEFINITION. The commands of the pool path: CXL.mem requests and AtomicOps on pool faces, the completions of devices,
and requests that arrive over trunks (15_mode_matrix.md R481; 12_coherence.md R412 to R416, R635; 08_binding.md R268
to R270).
-/
namespace Sys2Proof.Machine

def execMemRd (p : Port) (dpa : Nat) (mv : MetaVal) (tag : Nat) (ecc : Ecc) (s : State) : Out3 :=
  .next (onChip s fun c => settle (memGo .rd p dpa tag mv ecc id c))

def execMemWr (p : Port) (dpa : Nat) (mv : MetaVal) (tag : Nat) (mask : Mask) (data : Line) (ecc : Ecc) (s : State) :
    Out3 :=
  .next (onChip s fun c => settle (memGo .wr p dpa tag mv ecc (fun t => { t with mask := mask, data := data }) c))

/-- MemInv and MemInvNT (R635). -/
def execMemInv (p : Port) (dpa : Nat) (mv : MetaVal) (tag : Nat) (ecc : Ecc) (s : State) : Out3 :=
  .next (onChip s fun c => settle (memGo .inv p dpa tag mv ecc id c))

/-! ### AtomicOps -/

/-- Atomic base of a tenancy (R412). -/
def atomicBase (c : Chip) (t : Nat) : Nat := getF c TEN_ABASE_HI_ABASE t * 2 ^ 32 + getF c TEN_ABASE_LO_ABASE t * 4096

/-- Operand widths of 06_ports.md R211, naturally aligned (R413). -/
def atomFits (k : AtomicKind) (w : AtomicWidth) (off : Nat) : Bool :=
  off % (atomBits w / 8) == 0 && (k == .cas || w != .w16)

def unsupported (p tag : Nat) (c : Chip) : Chip := send (.host p tag .ur) c

/-- An AtomicOp whose tenancy is known: its DPA is looked up, among that tenancy's windows; one of a device or sealed window
ends with Completer Abort, whether or not the face has Link IDE (R412, R423). -/
def atomLookup (p t tag dpa : Nat) (ecc : Ecc) (f : Txn → Txn) (c : Chip) : Chip :=
  let c1 := lookupFor p dpa ecc c
  match poolMatch c1 p dpa with
  | some (w, x) =>
    if x.ten == t then policeTxn (f (hostTxn .atom p tag dpa w x .i ecc c1)) (countAttributed .atom t c1)
    else unsupported p tag (noteMiss 0 p dpa c1)
  | none => unsupported p tag (noteMiss 0 p dpa c1)

def atomGo (p off : Nat) (pasid : Option Nat) (k : AtomicKind) (w : AtomicWidth) (op cmp : BitVec 128) (tag : Nat)
    (ecc : Ecc) (c : Chip) : Chip :=
  if !carriesMem c p then c
  else ioCredits p false (match tenOfTlp c p pasid with
    | none => unsupported p tag c
    | some t =>
      let dpa := atomicBase c t + off
      if !atomFits k w dpa then unsupported p tag c
      else atomLookup p t tag dpa ecc
        (fun x => { x with atom := some { kind := k, width := w, off := dpa % 64, operand := op, compare := cmp } }) c)

def execAtomicOp (p : Port) (off : Fin 1048576) (pasid : Option (Fin 1048576)) (kind : AtomicKind)
    (width : AtomicWidth) (operand compare : BitVec 128) (tag : Nat) (ecc : Ecc) (s : State) : Out3 :=
  .next (onChip s fun c => settle (atomGo p off (pasid.map (·.val)) kind width operand compare tag ecc c))

/-! ### Completions -/

/-- The credits of a completion that something outstanding matches: DATA with a line for a read, RSP for a write
(05_links.md R163, R164). -/
def answerCredits (p dtag : Nat) (c : Chip) : Chip :=
  match findLeg c p dtag with
  | some (_, g) => if !inL0 c p then c else if g.write then freeCredits p .ndr 0 c else freeCredits p .drs 1 c
  | none => c

def execDeviceCompletion (dport : Port) (dtag : Nat) (status : DevStatus) (data : Line) (s : State) : Out3 :=
  .next (onChip s fun c => settle (deviceAnswer dport dtag status data (answerCredits dport dtag c)))

/-- A device-face request without a completion within CPL_TMO (06_ports.md R631): the request of a line's access ends as
one that the device completed with an error, in Recovery too (16_faults.md R632). Of the other requests (map copies, rake copies, care and hot-add), the
command that they belong to tells how they end; the timeout itself is reported here (log entry 103). -/
def effCplTmo (p : Nat) (dtag : Option Nat) (c : Chip) : Chip :=
  if deviceFace c p && decide (2 ≤ linkState c p) && decide (linkState c p ≤ 4) && tmbRuns c then
    match dtag with
    | some n =>
      if (findLeg c p n).isSome then settle (deviceAnswer p n .error 0#512 (raise .prt p 5 c)) else c
    | none => raise .prt p 5 c
  else c

def execPrtCplTmo (p : Port) (dtag : Option Nat) (s : State) : Out3 := .next (onChip s (effCplTmo p dtag))

/-! ### Requests over a trunk (R268 to R270, R417) -/

/-- A live SHARED window covers a line (R417). -/
def sharedLine (c : Chip) (l : Nat) : Bool :=
  c.bnd.live.any fun e => isPool e.2 && e.2.shared && !e.2.remote && e.2.pbase ≤ tileOfLine l &&
    tileOfLine l < e.2.pbase + e.2.size

/-- A pool request of another SX1024 that came over trunk q, served for q's pair; it belongs to no tenancy. `bad`: its data
met an uncorrectable error in the core. The lookup is that of q's slice, and a miss names q. -/
def exportGo (q : Nat) (r : ExportReq) (bad : Bool) (ecc : Ecc) (c : Chip) : Chip :=
  let p := primaryOf c q
  let c1 := windowEcc ecc.bndCor ecc.bndUe ((exportMatch c p r.fsid r.addr).map (·.1)) (countQ .bnd 0 2 (bndSlice q) c)
  match exportMatch c1 p r.fsid r.addr with
  | none => trunkAnswer p r.tag (epochNow c1) r.write 0#512 true (noteMiss 2 q r.addr c1)
  | some (w, _) =>
    let l := r.addr / 64
    startTxn { ownTxn c1 (if r.write then .exWr else .exRd) l with
                 port := p, tag := r.tag, win := w, mask := if r.write then r.mask else fullMask, data := r.data, poison := r.write && (r.poison || bad),
                 shared := sharedLine c1 l, ecc := ecc } stage6 c1

end Sys2Proof.Machine
end

