-- ==== Sys2Proof/Machine/XbrCore.lean ====
section
/-!
DEFINITION. The switch core: cells and allotments, the shared region's test, what becomes of packets when links go
down, and the multicast copies (07_switch_core.md R230 to R258). The commands stand in Machine/Xbr.lean.
-/
namespace Sys2Proof.Machine

/-! ### Packets -/

def groupOf (p : Nat) : Nat := p / 16
def setPkts (l : List Pkt) (c : Chip) : Chip := { c with xbr := { c.xbr with pkts := l } }
def pktOf (c : Chip) (i : Nat) : Option Pkt := c.xbr.pkts.find? fun k => k.id == i && !k.multicast
def putPkt (k : Pkt) (c : Chip) : Chip :=
  setPkts (c.xbr.pkts.map fun u => if u.id = k.id ∧ u.multicast = k.multicast then k else u) c
def dropPkt (k : Pkt) (c : Chip) : Chip :=
  setPkts (c.xbr.pkts.filter fun u => !(u.id == k.id && u.multicast == k.multicast)) c

def egressOf (k : Pkt) : Nat := k.egress.headD 0

/-- Cells that a packet holds: those it has not sent; a packet ended by the stall rule holds none (R244, R254). -/
def heldCells (k : Pkt) : Nat := if k.stalled then 0 else k.cells - k.sent

/-! ### Allotments and the shared region (R241 to R246) -/

/-- A port's allotment: LANE as its last enable took it, times the width, or what its credits need. -/
def allotOf (c : Chip) (p : Nat) : Nat := max (kvGet 160 c.xbr.laneAt p * portWidth c p) (credCells c p)

/-- S of R241. -/
def sharedSize (c : Chip) : Nat := 393216 - (enabledPorts c).foldl (fun n p => n + allotOf c p) 0 - 8192

/-- U, and L_q of a queue. -/
def sharedUsed (c : Chip) : Nat := c.xbr.pkts.foldl (fun n k => if k.shared then n + heldCells k else n) 0
def queueShared (c : Chip) (p cls : Nat) : Nat :=
  c.xbr.pkts.foldl (fun n k => if k.shared && egressOf k == p && clsOf k.typ == cls then n + heldCells k else n) 0

/-- k_c of a class (R243). -/
def dtExp (c : Chip) (cls : Nat) : Int :=
  toInt 4 (match cls with
    | 0 => getF c XBR_DT_K0 0 | 1 => getF c XBR_DT_K1 0 | 2 => getF c XBR_DT_K2 0 | _ => getF c XBR_DT_K3 0)

/-- The test of R243 for n cells of a queue. -/
def sharedTest (c : Chip) (p cls n : Nat) : Bool :=
  let l := queueShared c p cls + n
  let room := sharedSize c - sharedUsed c
  let k := dtExp c cls
  sharedUsed c ≤ sharedSize c && (if 0 ≤ k then l ≤ 2 ^ k.toNat * room else l * 2 ^ (-k).toNat ≤ room)

/-- Credits of the packet are still to be returned to its ingress (R243, R244). -/
def owesCredits (k : Pkt) : Bool := !(k.shared || k.internal || k.repaid)
def payCredits (k : Pkt) (lines : Nat) (c : Chip) : Chip := whenB (owesCredits k) (freeCredits k.ingress k.typ lines) c

/-- The packet takes part in the test: a port's packet, still charged to its allotment. -/
def testable (k : Pkt) : Bool := !k.shared && !k.internal && !k.stalled

/-- A packet is tested: it moves, and its ingress returns its credits, or it is held. -/
def testPkt (k : Pkt) (c : Chip) : Chip :=
  if sharedTest c (egressOf k) (clsOf k.typ) (heldCells k) then
    payCredits k k.lines (putPkt { k with shared := true, held := false } c)
  else if k.held then c
  else count .xbrG (groupOf k.ingress) 5 (putPkt { k with held := true } c)

/-- Every queue's first packet under test, in arrival order (R243). -/
def queueHeads : List Pkt → List (Nat × Nat) → List Pkt
  | [], _ => []
  | k :: r, seen =>
    if testable k && !seen.contains (egressOf k, clsOf k.typ) then k :: queueHeads r (seen ++ [(egressOf k, clsOf k.typ)])
    else queueHeads r seen

/-- A packet behind one that is held waits with it, and is held as well. -/
def waitsBehind (c : Chip) (k : Pkt) : Bool :=
  testable k && !k.held && c.xbr.pkts.any fun u =>
    testable u && u.held && egressOf u == egressOf k && clsOf u.typ == clsOf k.typ

def holdBehind (k : Pkt) (c : Chip) : Chip := count .xbrG (groupOf k.ingress) 5 (putPkt { k with held := true } c)

/-- The test is repeated for every queue, as often as there are packets, and what waits behind a failed head is held with
it (R243). -/
def retest (c : Chip) : Chip :=
  let c1 := forEach (c.xbr.pkts.filter testable) (fun _ c => forEach (queueHeads c.xbr.pkts []) testPkt c) c
  forEach (c1.xbr.pkts.filter (waitsBehind c1)) holdBehind c1

/-! ### Packets that leave (R244, R254, R256, R258) -/

/-- A packet leaves the core: its cells are free, and its credits are returned unless they were. -/
def releasePkt (k : Pkt) (c : Chip) : Chip :=
  let c1 := dropPkt k c
  if k.stalled then c1 else payCredits k k.lines c1

/-- DATA credits of cells that arrive after a packet's stall end: four lines a cell. -/
def lateLines (k : Pkt) (n : Nat) : Nat := min k.lines (4 * n)

/-- A packet's cells are free, and the credits of what came are returned; the remainder of an incomplete one is still
owed, and is discarded as it comes (R254 step 4; R256, R257). -/
def discardPkt (k : Pkt) (c : Chip) : Chip :=
  if k.stalled || k.cells ≤ k.arrived then releasePkt k c
  else
    let rest := lateLines k (k.cells - k.arrived)
    putPkt { k with stalled := true, held := false, lines := rest } (payCredits k (k.lines - rest) c)

/-- Packets freed or dropped are counted (R240, R256, R257). -/
def countLost (c : Chip) : Chip := { c with xbr := { c.xbr with lost := c.xbr.lost + 1 } }

/-- The stall rule ends a packet (R254 steps 2 and 3): a store-and-forward packet of which nothing was sent is dropped;
any other is nullified, or completed with data poison. -/
def stallEnd (k : Pkt) (c : Chip) : Chip :=
  let c1 := if k.mode = .saf ∧ k.sent = 0 then c else send (.cellEnd (egressOf k) k.id (ioOf k.typ != .mem)) c
  let g := groupOf k.ingress
  let c2 := setF XBR_GP_STALL_VALID g 1 (setF XBR_GP_STALL_CLASS g (clsOf k.typ) (setF XBR_GP_STALL_EGRESS g (egressOf k)
    (setF XBR_GP_STALL_INGRESS g k.ingress (discardPkt k c1))))
  retest (count .xbrG g 6 (raise .xbrG g 0 c2))

/-- Further cells of a packet that has ended are discarded, and their credits returned (R254 step 4). -/
def lateCells (k : Pkt) (n : Nat) (c : Chip) : Chip :=
  let d := lateLines k n
  let c1 := whenB (owesCredits k) (freeNeeds k.ingress [0, 0, 0, d, 0]) c
  let k1 := { k with arrived := k.arrived + n, lines := k.lines - d }
  if k1.cells ≤ k1.arrived then dropPkt k c1 else putPkt k1 c1

/-- The ingress link of incomplete packets has gone down (R254): nothing more of them comes. -/
def ingressDown (p : Nat) (c : Chip) : Chip :=
  let c1 := forEach (c.xbr.pkts.filter fun k => k.ingress == p && !k.multicast && !k.stalled && k.arrived < k.cells)
    stallEnd c
  setPkts (c1.xbr.pkts.filter fun k => !(k.stalled && k.ingress == p)) c1

/-- A completion for a host: data or a response to one of its requests. -/
def isCompletion (t : MsgType) : Bool :=
  match t with
  | .ndr | .drs | .ioCpl | .ioCplData => true
  | _ => false

/-- A queued packet is handed to its port's PRT logic (R256; 06_ports.md R224, R227): toward a host, completions are
discarded and counted; a non-posted request toward a device is answered Unsupported Request. -/
def handToPort (k : Pkt) (c : Chip) : Chip :=
  let p := egressOf k
  let c1 := discardPkt k c
  if hostFacing c p then whenB (isCompletion k.typ) (count .prt p 8) c1
  else if ioOf k.typ == .nonPosted then send (.host k.ingress k.id .ur) c1
  else c1

/-- A multicast destination that cannot read its copy: the count falls without a read, and the roll hears it (R248,
12_coherence.md R407). -/
def undelivered (p : Nat) (c : Chip) : Chip :=
  let had := (c.xbr.pkts ++ c.xbr.waiting).any fun k => k.multicast && k.egress.contains p
  let left := fun (l : List Pkt) => (l.map fun k =>
      if k.multicast then { k with egress := without k.egress p } else k).filter fun k =>
        !(k.multicast && k.egress.isEmpty)
  let c1 := injectMore { c with xbr := { c.xbr with pkts := left c.xbr.pkts, waiting := left c.xbr.waiting } }
  whenB had (departFace p true) c1

/-- An edge egress link has gone down (R256): what is left of a packet being sent is freed and counted; a
non-posted request among them is outstanding to its device, and is answered Unsupported Request (06_ports.md R224). -/
def egressDown (p : Nat) (c : Chip) : Chip :=
  forEach (c.xbr.pkts.filter fun k => !k.multicast && !k.stalled && egressOf k == p)
    (fun k c =>
      if k.sent = 0 then handToPort k c
      else if passFace c p && k.typ == .ioNonPosted then send (.host k.ingress k.id .ur) (countLost (discardPkt k c))
      else countLost (discardPkt k c)) c

/-- A port's link goes down: what the switch core does. -/
def xbrLinkDown (p : Nat) (c : Chip) : Chip := retest (undelivered p (egressDown p (ingressDown p c)))

/-- A port reset drops every packet from or to the port (R258). -/
def xbrPortReset (p : Nat) (c : Chip) : Chip :=
  retest (undelivered p (forEach (c.xbr.pkts.filter fun k => !k.multicast && (k.ingress == p || egressOf k == p))
    (fun k c => if k.ingress = p then releasePkt k c else if k.stalled then c else discardPkt k c) c))

/-! ### Trunk pairs (R257) -/

/-- Packets of moved buckets that wait for a failed member, or are partly sent on it, go on by the survivor and its
credits. -/
def movePkts (failed survivor : Nat) (c : Chip) : Chip :=
  setPkts (c.xbr.pkts.map fun k =>
    if !k.multicast && !k.stalled && egressOf k == failed then { k with egress := [survivor], paid := false } else k) c

/-- A pair that carries nothing ends the packets it was being sent (05_links.md R182), and drops those queued toward it,
each counted. -/
def dropPair (p q : Nat) (c : Chip) : Chip :=
  retest (forEach (c.xbr.pkts.filter fun k => !k.multicast && !k.stalled && (egressOf k == p || egressOf k == q))
    (fun k c => countLost (if k.sent = 0 then discardPkt k c else stallEnd k c)) c)

/-! ### Forwarding modes (R251 to R253) -/

/-- The XBR_PMODE byte of a port, at its lowest lane. -/
def pmodeFr (c : Chip) (p : Nat) : Bool :=
  let i := p % 16 / 4
  let g := groupOf p
  (match p % 4 with
   | 0 => getFi c XBR_PMODE_B0_FR g i | 1 => getFi c XBR_PMODE_B1_FR g i | 2 => getFi c XBR_PMODE_B2_FR g i
   | _ => getFi c XBR_PMODE_B3_FR g i) != 0

def pmodeCt (c : Chip) (p : Nat) : Nat :=
  let i := p % 16 / 4
  let g := groupOf p
  match p % 4 with
  | 0 => getFi c XBR_PMODE_B0_CT g i | 1 => getFi c XBR_PMODE_B1_CT g i | 2 => getFi c XBR_PMODE_B2_CT g i
  | _ => getFi c XBR_PMODE_B3_CT g i

/-- FR is honoured on bridge faces and pass-through faces only. -/
def frPort (c : Chip) (p : Nat) : Bool := pmodeFr c p && (pers c p == 1 || pers c p == 3)

/-- A rate code in tenths of GT/s (04_lanes.md R119). -/
def rateTenths (r : Nat) : Nat :=
  match r with
  | 0 => 25 | 1 => 50 | 2 => 80 | 3 => 160 | 4 => 320 | 5 => 640 | _ => 1280

/-- Rate times trained width. -/
def bandwidth (c : Chip) (p : Nat) : Nat := rateTenths (getF c LNK_STAT_RATE p) * getF c PRT_STAT_TWIDTH p

/-- The mode a packet gets when its first cell arrives, and whether it fell back. -/
def modeOf (c : Chip) (pool : Bool) (p e cls : Nat) : FwdMode × Bool :=
  if pool then (.saf, false)
  else if frPort c p then (.fr, false)
  else if bit (pmodeCt c p) cls then
    if bandwidth c p < bandwidth c e then (.saf, true) else (.cut, false)
  else (.saf, false)

end Sys2Proof.Machine
end

