-- ==== Sys2Proof/Machine/Xbr.lean ====
section
/-!
DEFINITION. The switch core's commands: a packet's arrival, one slot of the central scheduler, the stall rule, and the
forwarding modes (07_switch_core.md R232 to R255; 14_tenancy_qos.md R465).
-/
namespace Sys2Proof.Machine

/-! ### Weighted deficit round robin (R465) -/

/-- Sub-queue of a packet: its tenancy, or 4,096 for the system. -/
def subOf (k : Pkt) : Nat := k.ten.getD 4096
def costOfPkt (k : Pkt) : Nat := max 1 k.lines

/-- Weight of a sub-queue at an egress port. -/
def subWeight (c : Chip) (e t : Nat) : Nat := if t = 4096 then getF c SHP_PORT_SYSW e else (tenSt c t).wNow

/-- The port orders this packet by tenancy: pool path, REQ or DATA, at a device face or trunk, with EN 1. -/
def byTenancy (c : Chip) (k : Pkt) : Bool :=
  let e := egressOf k
  k.pool && !k.multicast && (clsOf k.typ == 0 || clsOf k.typ == 3) && (deviceFace c e || trunk c e) && isF c SHP_PORT_EN e

def queueKey (e cls : Nat) : Nat := e * 4 + cls
def wdrrOf (c : Chip) (e cls : Nat) : List (Nat × Nat) := (kvGet Wdrr.empty c.xbr.wdrr (queueKey e cls)).active
def setWdrr (e cls : Nat) (l : List (Nat × Nat)) (c : Chip) : Chip :=
  { c with xbr := { c.xbr with wdrr := kvSet Wdrr.empty c.xbr.wdrr (queueKey e cls) { active := l } } }

/-- The packets of a sub-queue of a queue, oldest first. -/
def subPkts (c : Chip) (e cls t : Nat) : List Pkt :=
  c.xbr.pkts.filter fun k => k.pool && !k.multicast && !k.stalled && k.sent == 0 && egressOf k == e && clsOf k.typ == cls &&
    subOf k == t

/-- A sub-queue that receives a packet joins the list with deficit 0, unless it stands there with packets. -/
def joinWdrr (k : Pkt) (c : Chip) : Chip :=
  let e := egressOf k
  let l := wdrrOf c e (clsOf k.typ)
  let l1 := l.filter fun x => x.1 != subOf k
  let waits := 2 ≤ (subPkts c e (clsOf k.typ) (subOf k)).length && l.any fun x => x.1 == subOf k
  if byTenancy c k && !waits then
    setWdrr e (clsOf k.typ) (if subWeight c e (subOf k) = 0 then l1 else l1 ++ [(subOf k, 0)]) c
  else c

/-- The first sub-queue with a head that may go supplies it, once its deficit has grown enough; those whose head costs
more go to the end of the list. -/
def wdrrPick (head : Nat → Option Pkt) (w : Nat → Nat) : Nat → List (Nat × Nat) → Option Pkt × List (Nat × Nat)
  | 0, l => (none, l)
  | fuel + 1, l =>
    match l.find? fun x => (head x.1).isSome with
    | none => (none, l)
    | some (t, d) =>
      match head t with
      | none => (none, l)
      | some k =>
        let d1 := if costOfPkt k ≤ d then d else d + w t
        if costOfPkt k ≤ d1 then (some k, l.map fun x => if x.1 = t then (t, d1 - costOfPkt k) else x)
        else wdrrPick head w fuel (l.filter (fun x => x.1 != t) ++ [(t, d1)])

/-- After a packet is taken: an empty sub-queue leaves, one whose head costs more than its deficit goes to the end. -/
def wdrrAfter (c : Chip) (e cls t : Nat) (l : List (Nat × Nat)) : List (Nat × Nat) :=
  match (subPkts c e cls t).drop 1 with
  | [] => l.filter fun x => x.1 != t
  | k :: _ =>
    match l.find? fun x => x.1 == t with
    | some x => if x.2 < costOfPkt k then l.filter (fun y => y.1 != t) ++ [x] else l
    | none => l

/-! ### Eligible packets (R233 to R235, R253) -/

/-- Packets that arrived earlier. -/
def earlier (c : Chip) (k : Pkt) : List Pkt :=
  c.xbr.pkts.takeWhile fun u => !(u.id == k.id && u.multicast == k.multicast)

/-- No earlier packet of its own flow waits: same ingress, egress and class, and same tenancy where the port schedules
by tenancy (R233). -/
def firstOfFlow (c : Chip) (k : Pkt) : Bool :=
  !(earlier c k).any fun u => !u.multicast && !u.stalled && u.ingress == k.ingress && egressOf u == egressOf k &&
    clsOf u.typ == clsOf k.typ && !(byTenancy c u && byTenancy c k && subOf u != subOf k)

/-- No earlier packet that it may not pass (R234, R253): a forerunner packet passes no CXL.io packet, and none passes
it. -/
def ordered (c : Chip) (k : Pkt) : Bool :=
  let fr := k.mode == .fr
  let waits := (fr && ioOf k.typ != .mem) || (!k.relaxed && (ioOf k.typ == .nonPosted || ioOf k.typ == .completion))
  !(waits && (earlier c k).any fun u => !u.multicast && !u.stalled && u.ingress == k.ingress &&
    egressOf u == egressOf k && (ioOf u.typ == .posted || (fr && ioOf u.typ != .mem)))

/-- The packet that an egress port is in the middle of: one that it began, before one that the other member of its pair
began (R257). -/
def current (c : Chip) (e : Nat) : Option Pkt :=
  let l := c.xbr.pkts.filter fun u => !u.multicast && !u.stalled && egressOf u == e && u.sent != 0
  match l.find? (·.paid) with
  | some u => some u
  | none => l.head?

/-- The egress port is sending another packet. -/
def portBusy (c : Chip) (k : Pkt) : Bool := (current c (egressOf k)).any fun u => u.id != k.id

/-- Start condition of the forwarding mode, and a cell to send. -/
def cellReady (k : Pkt) : Bool := k.sent < k.arrived && (k.mode != .saf || k.arrived == k.cells)

def readyPkt (c : Chip) (k : Pkt) : Bool :=
  !k.multicast && !k.stalled && cellReady k && firstOfFlow c k && ordered c k && !portBusy c k &&
    inL0 c (egressOf k) && !ideHeld c (egressOf k) && replayRoom c (egressOf k) &&
    !(trunk c (egressOf k) && resendBars c (egressOf k) (bucketOf k.ingress (k.pbr.getD 0)))

/-- Lines of data not yet sent: a cell carries four. -/
def linesLeft (k : Pkt) : Nat := k.lines - 4 * k.sent

/-- Credits that a packet still has to take on its egress link (05_links.md R163, R164): those of its message, or, on the
other member of its pair, of what is left of it. -/
def pktNeeds (c : Chip) (k : Pkt) : List Nat :=
  if k.paid then [0, 0, 0, 0, 0] else needsOf c (egressOf k) k.typ (k.sent == 0) (linesLeft k)

def creditOk (c : Chip) (k : Pkt) : Bool := hasNeeds c (egressOf k) (pktNeeds c k)

def eligiblePkt (c : Chip) (k : Pkt) : Bool := readyPkt c k && creditOk c k

/-- The head of a sub-queue, if it is eligible (R465). -/
def subHead (c : Chip) (p cls t : Nat) : Option Pkt := ((subPkts c p cls t).head?).filter (eligiblePkt c)

/-- The packet that a queue scheduled by tenancy supplies next, from whatever ingress, and the active list when it is taken: a
sub-queue's of the list, or while no head there is eligible, the oldest head of the others (R465). -/
def supply (c : Chip) (p cls : Nat) : Option (Pkt × List (Nat × Nat)) :=
  let l := (wdrrOf c p cls).filter fun x => subWeight c p x.1 != 0
  match wdrrPick (subHead c p cls) (subWeight c p) (256 * (l.length + 1)) l with
  | (some k, l1) => some (k, l1)
  | (none, _) => (c.xbr.pkts.find? fun k => subHead c p cls (subOf k) == some k && !l.any fun x => x.1 == subOf k).map
      fun k => (k, l)

/-- The tenancy scheduler decides when this packet goes: it has not begun (R465). -/
def wdrrChooses (c : Chip) (k : Pkt) : Bool := byTenancy c k && k.sent == 0

/-- A packet that its queue may supply in this slot: an eligible one, where tenancies are scheduled the one that comes next
(R233, R235, R465). -/
def offeredPkt (c : Chip) (k : Pkt) : Bool :=
  eligiblePkt c k && (!wdrrChooses c k || ((supply c (egressOf k) (clsOf k.typ)).any fun s => s.1 == k))

/-- Queues with a packet that only the want of credits keeps back: a credit stall each (21_counters.md; log entry 22). -/
def creditStalls (c : Chip) : List (Nat × Nat) :=
  ((c.xbr.pkts.filter fun k => readyPkt c k && !creditOk c k).map fun k => (egressOf k, clsOf k.typ)).foldl
    (fun l x => if l.contains x then l else l ++ [x]) []

/-! ### Sending cells (R237, R240) -/

/-- A non-posted request has gone to the device of a pass-through face (06_ports.md R224). -/
def noteAsked (k : Pkt) (c : Chip) : Chip :=
  let e := egressOf k
  if passFace c e && k.typ == .ioNonPosted then
    setPrtSt e { prtSt c e with asked := (prtSt c e).asked ++ [(k.id, k.ingress)] } c
  else c

/-- A completion from a pass-through face answers its request. -/
def noteAnswer (i : PktIn) (c : Chip) : Chip :=
  match i.answers with
  | some n => setPrtSt i.ingress { prtSt c i.ingress with asked := (prtSt c i.ingress).asked.filter fun x => x.1 != n } c
  | none => c

/-- A cell of a packet leaves on its egress link: its message's credits are spent with the first. -/
def sendCell (k : Pkt) (c : Chip) : Chip :=
  let e := egressOf k
  let c1 := takeNeeds e (pktNeeds c k) c
  let m : FlitMsg := { typ := k.typ, first := k.sent == 0,
                       dataLines := ⟨min 4 (linesLeft k) % 16, Nat.mod_lt _ (by decide)⟩, msg := k.id }
  let c2 := sendFlit e (some m) (if trunk c e then bucketOf k.ingress (k.pbr.getD 0) else 0) none
    (send (.cell e k.id k.poisoned) c1)
  let k1 := { k with sent := k.sent + 1, paid := true }
  if k1.sent = k1.cells then releasePkt k1 (noteAsked k c2) else putPkt k1 c2

/-- A packet is taken from its queue: the tenancy scheduler is charged, and its lines are counted (R465). -/
def takePkt (k : Pkt) (l : Option (List (Nat × Nat))) (c : Chip) : Chip :=
  if byTenancy c k && k.sent == 0 then
    let c1 := match l with
      | some l => setWdrr (egressOf k) (clsOf k.typ) (wdrrAfter c (egressOf k) (clsOf k.typ) (subOf k) l) c
      | none => c
    countN .shpP (egressOf k) 6 (some (subOf k)) (costOfPkt k) c1
  else c

/-- The packet that an egress port's queue offers to a match of the group ports, among the packets offered. -/
def choosePkt (c : Chip) (i e cls : Nat) : Option (Pkt × Option (List (Nat × Nat))) :=
  (c.xbr.pkts.find? fun k => offeredPkt c k && groupOf k.ingress == i && groupOf (egressOf k) == e && clsOf k.typ == cls).map
    fun k => (k, if wdrrChooses c k then (supply c (egressOf k) cls).map (·.2) else none)

/-- A cell is read with this error. -/
def errAt (errs : List SlotErr) (k : Pkt) (cell : Nat) (e : CellErr) : Bool :=
  errs.any fun x => x.pkt == k.id && x.multicast == k.multicast && x.cell == cell && x.err == e

/-- What a read of a cell reports (R240, R259), on the page of group port g and on the central one. R240 does not say
which group page an error belongs to: g is the ingress group of a unicast packet, and the egress group that reads a copy
of a multicast one (DESIGN CHOICE, log entry 124). -/
def noteErrs (errs : List SlotErr) (g : Nat) (k : Pkt) (cell : Nat) (c : Chip) : Chip :=
  let c1 := whenB (errAt errs k cell .corrected) (fun c => raise .xbrG g 1 (count .xbrG g 7 c)) c
  let c2 := whenB (errAt errs k cell .uncorrectable) (fun c => raise .xbrG g 2 (count .xbrG g 8 c)) c1
  whenB (errAt errs k cell .parity) (raise .xbrC 0 0) c2

/-- The chosen packet sends a cell: an uncorrectable error in its first, which holds the header, drops it, one in another
poisons it. -/
def serveCell (errs : List SlotErr) (k : Pkt) (l : Option (List (Nat × Nat))) (c : Chip) : Chip :=
  let c1 := noteErrs errs (groupOf k.ingress) k k.sent (takePkt k l c)
  if errAt errs k k.sent .uncorrectable then
    if k.sent = 0 then countLost (discardPkt k c1)
    else sendCell { k with poisoned := true } (putPkt { k with poisoned := true } c1)
  else sendCell k c1

/-- The second cell position of a match: the same packet's next cell, or the next packet of the class where the first
has ended (R237). -/
def secondCell (errs : List SlotErr) (i e cls : Nat) (k : Pkt) (c : Chip) : Chip :=
  match pktOf c k.id with
  | some u => whenB (eligiblePkt c u) (serveCell errs u none) c
  | none => match choosePkt c i e cls with
    | some (u, l) => serveCell errs u l c
    | none => c

/-- Classes from a pointer on, modulo 4. -/
def classesFrom (n : Nat) : List Nat := [n % 4, (n + 1) % 4, (n + 2) % 4, (n + 3) % 4]

/-- A match: up to two cells of the class that comes first (R237). -/
def serveMatch (errs : List SlotErr) (m : Nat × Nat) (c : Chip) : Chip :=
  let key := m.1 * 64 + m.2
  match (classesFrom (kvGet 0 c.xbr.clsPtr key)).find? fun q => (choosePkt c m.1 m.2 q).isSome with
  | none => c
  | some q => match choosePkt c m.1 m.2 q with
    | none => c
    | some (k, l) =>
      let c1 := { c with xbr := { c.xbr with clsPtr := kvSet 0 c.xbr.clsPtr key ((q + 1) % 4) } }
      count .xbrC 0 11 (secondCell errs m.1 m.2 q k (serveCell errs k l c1))

/-! ### The three iterations (R235, R236) -/

/-- Pairs of ingress and egress group ports with a packet to offer. -/
def requests (c : Chip) : List (Nat × Nat) :=
  (c.xbr.pkts.filter (offeredPkt c)).foldl (fun l k =>
    let r := (groupOf k.ingress, groupOf (egressOf k))
    if l.contains r then l else l ++ [r]) []

/-- The element that comes first at or after a pointer, modulo 64. -/
def fromPtr (ptr : Nat) (l : List Nat) : Option Nat := minBy (fun x => (x + 64 - ptr) % 64) l

/-- One iteration over the requests left: each egress grants one ingress, each ingress accepts one egress. -/
def iteration (c : Chip) (reqs : List (Nat × Nat)) : List (Nat × Nat) :=
  let egs := (reqs.map (·.2)).foldl addNew []
  let grants := egs.filterMap fun e =>
    (fromPtr (getF c XBR_GP_PTR_GRANT e) ((reqs.filter fun r => r.2 == e).map (·.1))).map fun i => (i, e)
  let ins := (grants.map (·.1)).foldl addNew []
  ins.filterMap fun i =>
    (fromPtr (getF c XBR_GP_PTR_ACCEPT i) ((grants.filter fun g => g.1 == i).map (·.2))).map fun e => (i, e)

/-- Requests of the group ports that no earlier match of the slot took. -/
def unmatched (ms reqs : List (Nat × Nat)) : List (Nat × Nat) :=
  reqs.filter fun r => !(ms.any fun m => m.1 == r.1 || m.2 == r.2)

/-- Accepts of the first iteration move both pointers. -/
def movePtrs (ms : List (Nat × Nat)) (c : Chip) : Chip :=
  forEach ms (fun m c => setF XBR_GP_PTR_GRANT m.2 (m.1 + 1) (setF XBR_GP_PTR_ACCEPT m.1 (m.2 + 1) c)) c

/-- The unicast matches of a slot, and the pointers after it. -/
def matchSlot (c : Chip) (reqs : List (Nat × Nat)) : List (Nat × Nat) × Chip :=
  let m1 := iteration c reqs
  let m2 := iteration c (unmatched m1 reqs)
  let m3 := iteration c (unmatched (m1 ++ m2) reqs)
  (m1 ++ m2 ++ m3, movePtrs m1 c)

/-! ### The multicast phase (R247 to R250) -/

/-- The multicast packets served concurrently. -/
def mcPkts (c : Chip) : List Pkt := (c.xbr.pkts.filter fun k => k.multicast).take 16

/-- The copy that an egress group port reads: the oldest packet with a remaining destination there that may send. -/
def mcCopy (c : Chip) (e : Nat) : Option (Pkt × Nat) :=
  (mcPkts c).findSome? fun k =>
    (k.egress.find? fun p => groupOf p == e && inL0 c p && !ideHeld c p && hasNeeds c p (needsOf c p .biSnp true 0) &&
      replayRoom c p).map fun p => (k, p)

/-- A destination port's read: the copy leaves with the host's own address and tag (R249). An uncorrectable error of the
one cell, which holds the header, drops the packet (R240). -/
def readCopy (errs : List SlotErr) (k : Pkt) (p : Nat) (c : Chip) : Chip :=
  let c1 := noteErrs errs (groupOf p) k 0 c
  if errAt errs k 0 .uncorrectable then injectMore (countLost (dropPkt k c1))
  else
    let c2 := count .xbrC 0 10 (takeNeeds p (needsOf c p .biSnp true 0) c1)
    let rest := without k.egress p
    let c3 := if rest.isEmpty then injectMore (dropPkt k c2) else putPkt { k with egress := rest } c2
    let c4 := match c3.rol.snoops.find? fun s => some s.txn == k.snoopOf && s.port == p with
      | some s => sendSnoop s c3
      | none => c3
    sendFlit p (some { typ := .biSnp, first := true, dataLines := 0, msg := k.id }) 0 none c4

/-- The multicast phase: each egress group port that took no part in the last slot reads one copy. -/
def multicastPhase (errs : List SlotErr) (c : Chip) : List Nat × Chip :=
  let groups := (((mcPkts c).foldl (fun l k => l ++ k.egress) []).map groupOf).foldl addNew []
  let es := groups.filter fun e => !c.xbr.mcLast.contains e && (mcCopy c e).isSome
  let c1 := forEach es (fun e c => match mcCopy c e with
    | some (k, p) => readCopy errs k p c
    | none => c) c
  (es, { c1 with xbr := { c1.xbr with mcLast := es } })

/-- One slot: the multicast phase, the three iterations, and the matched packets' cells. -/
def effSlot (errs : List SlotErr) (c : Chip) : Chip :=
  if pageStarted c .xbrC 0 then
    let m := multicastPhase errs c
    let r := (requests m.2).filter fun r => !m.1.contains r.2
    let x := matchSlot (forEach (creditStalls m.2) (fun q c => countQ .lnk q.1 6 q.2 c) m.2) r
    match x.1 with
    | [] => x.2
    | ms => retest (forEach ms (serveMatch errs) x.2)
  else c

def execSchedulerSlot (errs : List SlotErr) (s : State) : Out3 := .next (onChip s (effSlot errs))

/-! ### Arrival (R232, R242, R251; 08_binding.md R279, R280) -/

/-- A pass-through face carries traffic only between its device and the bridge face that a VPPB window binds it to, or
another device below that bridge face (08_binding.md R277; 06_ports.md R207, R209). -/
def boundWay (c : Chip) (p q : Nat) : Bool :=
  if passFace c q then
    if bridgeFace c p then (vppbsOf c q).any fun e => e.2.port == p
    else if passFace c p then (vppbsOf c q).any fun e => (vppbsOf c p).any fun f => f.2.port == e.2.port
    else trunk c p && !(vppbsOf c q).isEmpty
  else if passFace c p then
    if bridgeFace c q then (vppbsOf c p).any fun e => e.2.port == q else trunk c q && !(vppbsOf c p).isEmpty
  else true

/-- Where a packet goes: its egress port, or nowhere for want of a route. -/
def routePkt (c : Chip) (k : PktIn) : Option Nat :=
  match k.pbrId with
  | none => some k.egress
  | some x =>
    if x.val = fsid c then some k.egress
    else match routeOf c x with
      | none => none
      | some w =>
        if trunk c w.target then
          if trunk c k.ingress && primaryOf c k.ingress == w.target then none
          else some (carrierOf c w.target (bucketOf k.ingress x))
        else some w.target

/-- A complete pool request for this home is read out of the core, and is served (08_binding.md R268): an uncorrectable
error in its first cell, which holds the header, drops it, one in another poisons its data (R240). -/
def serveExport (errs : List SlotErr) (k : Pkt) (ecc : Ecc) (c : Chip) : Chip :=
  match k.exportReq with
  | some r =>
    let bad := (List.range k.cells).any fun n => errAt errs k n .uncorrectable
    let c1 := releasePkt k (forEach (List.range k.cells) (noteErrs errs (groupOf k.ingress) k) c)
    settle (if errAt errs k 0 .uncorrectable then retest (countLost c1) else exportGo k.ingress r bad ecc (retest c1))
  | none => c

/-- The egress link is down, so nothing waits for it. -/
def egressGone (c : Chip) (p : Nat) : Bool := !inL0 c p && linkState c p != 4

/-- A packet as it arrives, by the mode that it moves in. -/
def newPkt (c : Chip) (i : PktIn) (e : List Nat) (mode : FwdMode) : Pkt :=
  { id := i.id, ingress := i.ingress, egress := e, typ := i.typ, lines := i.lines, cells := max 1 i.cells,
    arrived := min (max 1 i.arrived.val) (max 1 i.cells.val), sent := 0, paid := false, relaxed := i.relaxed,
    pbr := i.pbrId.map (·.val), mode := mode, shared := false, held := false, internal := false, repaid := false,
    multicast := false, snoopOf := none, ten := i.ten.map (·.val), epoch := epochNow c, pool := i.pool,
    exportReq := i.exportReq, stalled := false, poisoned := false }

/-- A packet that does not enter is discarded, with what is still to come of it, and its credits are returned. -/
def discardNew (i : PktIn) (c : Chip) : Chip :=
  let k := newPkt c i [] .saf
  discardPkt k (setPkts (c.xbr.pkts ++ [k]) c)

/-- A packet enters the buffer. -/
def enterPkt (i : PktIn) (e : Nat) (errs : List SlotErr) (ecc : Ecc) (c : Chip) : Chip :=
  let m := modeOf c (i.pool || i.exportReq.isSome) i.ingress e (clsOf i.typ)
  let k := newPkt c i [e] m.1
  let g := groupOf i.ingress
  let c1 := match m.1 with
    | .cut => countQ .xbrG g 2 (clsOf i.typ) c
    | .saf => countQ .xbrG g 3 (clsOf i.typ) c
    | .fr => c
  let c2 := whenB m.2 (count .xbrG g 4) (setPkts (c1.xbr.pkts ++ [k]) c1)
  if k.exportReq.isSome then (if k.arrived = k.cells then serveExport errs k ecc c2 else c2)
  else if egressGone c2 e then handToPort k c2
  else retest (joinWdrr k c2)

/-- Further cells of a packet that is in the buffer. -/
def moreCells (k : Pkt) (n : Nat) (errs : List SlotErr) (ecc : Ecc) (c : Chip) : Chip :=
  if k.stalled then lateCells k n c
  else
    let k1 := { k with arrived := min k.cells (k.arrived + n) }
    let c1 := putPkt k1 c
    if k1.exportReq.isSome && k1.arrived == k1.cells then serveExport errs k1 ecc c1 else c1

/-- Ports over which one packet's cells may come: the port itself, or the other member of its trunk pair (R257). -/
def sameWay (c : Chip) (p q : Nat) : Bool := p == q || (trunk c p && trunk c q && primaryOf c p == primaryOf c q)

/-- The window that an arriving packet is looked up in, if in any: of kind ROUTE for a PBR ID, of kind VPPB where a bridge
face's host addresses a pass-through face (08_binding.md R262). -/
def arrivalWindow (c : Chip) (i : PktIn) : Option (Option Nat) :=
  match i.pbrId with
  | some x => if x.val = fsid c then none else some ((routeMatch c x).map (·.1))
  | none =>
    if bridgeFace c i.ingress && passFace c i.egress then
      some (((vppbsOf c i.egress).find? fun e => e.2.port == i.ingress.val).map (·.1))
    else none

/-- The lookup counts at its slice and meets what errors the table has (08_binding.md R264, R288). -/
def arrivalLookup (i : PktIn) (ecc : Ecc) (c : Chip) : Chip :=
  match arrivalWindow c i with
  | some w =>
    let c1 := countQ .bnd 0 2 (bndSlice i.ingress) c
    if i.exportReq.isSome then c1 else windowEcc ecc.bndCor ecc.bndUe w c1
  | none => c

/-- CXL.cache passes between a bridge face and a pass-through face alone (06_ports.md R211). -/
def cacheWay (c : Chip) (t : MsgType) (p q : Nat) : Bool :=
  match t with
  | .cacheReq | .cacheRsp | .cacheData => (bridgeFace c p && passFace c q) || (passFace c p && bridgeFace c q)
  | _ => true

/-- A packet comes: to its egress, unless it has no route, its face is not bound or it may not leave the forerunner ports
(R253). A forerunner message that comes on a port without FR goes on like any other packet (DESIGN CHOICE, log entry
123: R253 speaks of FR ports alone). -/
def placePkt (i : PktIn) (errs : List SlotErr) (ecc : Ecc) (c : Chip) : Chip :=
  match routePkt c i with
  | none =>
    let c1 := discardNew i (noteMiss 1 i.ingress ((i.pbrId.map (·.val)).getD 0) c)
    if i.typ = .ioNonPosted then send (.host i.ingress i.id .ur) c1 else c1
  | some e =>
    if !boundWay c i.ingress e || !cacheWay c i.typ i.ingress e then
      if i.typ = .ioNonPosted ∧ bridgeFace c i.ingress = true then send (.host i.ingress i.id .ur) (discardNew i c)
      else discardNew i c
    else if i.forerunner && frPort c i.ingress && !frPort c e then
      discardNew i (count .xbrG (groupOf i.ingress) 9 c)
    else enterPkt i e errs ecc c

/-- A packet's first cell arrives on a port that is up, or further cells of it do; a port that awaits Link IDE carries none
(20_security.md R578). -/
def effArrival (i : PktIn) (errs : List SlotErr) (ecc : Ecc) (c : Chip) : Chip :=
  if pageStarted c .xbrC 0 && portOn c i.ingress && inL0 c i.ingress then
    match pktOf c i.id with
    | some k => if sameWay c k.ingress i.ingress then moreCells k i.arrived errs ecc c else c
    | none => if ideHeld c i.ingress then discardNew i c else placePkt i errs ecc (arrivalLookup i ecc (noteAnswer i c))
  else c

def execPacketArrival (pkt : PktIn) (errs : List SlotErr) (ecc : Ecc) (s : State) : Out3 :=
  .next (onChip s (effArrival pkt errs ecc))

/-! ### The stall rule (R254, R255) -/

/-- The stall timer of an incomplete packet runs out: cut-through and forerunner have sent all that came. -/
def effStall (i : Nat) (c : Chip) : Chip :=
  match pktOf c i with
  | some k =>
    if !k.stalled && k.arrived < k.cells && (k.mode == .saf || k.sent == k.arrived) && tmbRuns c then stallEnd k c else c
  | none => c

def execStallTimerExpiry (pkt : Nat) (s : State) : Out3 := .next (onChip s (effStall pkt))

def effLate (i n : Nat) (c : Chip) : Chip :=
  match pktOf c i with
  | some k =>
    if k.stalled then lateCells k n c else c
  | none => c

def execLateRemainder (pkt : Nat) (cells : Fin 128) (s : State) : Out3 := .next (onChip s (effLate pkt cells))

/-! ### XBR_PMODE (R252) -/

/-- A port's byte is set for packets whose first cell arrives afterwards. -/
def pmodeWrite (p : Nat) (fr : Bool) (ct : Nat) (c : Chip) : Chip :=
  let i := p % 16 / 4
  let g := groupOf p
  let w := fun (F C : Fld) => setFi F g i (b2n fr) (setFi C g i ct c)
  match p % 4 with
  | 0 => w XBR_PMODE_B0_FR XBR_PMODE_B0_CT
  | 1 => w XBR_PMODE_B1_FR XBR_PMODE_B1_CT
  | 2 => w XBR_PMODE_B2_FR XBR_PMODE_B2_CT
  | _ => w XBR_PMODE_B3_FR XBR_PMODE_B3_CT

def execXbrPmodeWrite (pa : Path) (p : Port) (fr : Bool) (ct : Fin 16) (s : State) : Out3 :=
  .next (onChip s (reachReg pa .xbrG (groupOf p) (0x040 + 4 * (p.val % 16 / 4)) (pmodeWrite p fr ct)))

end Sys2Proof.Machine
end

