-- ==== Sys2Proof/Machine/PrtCore.lean ====
section
/-!
DEFINITION. Ports: the slot behind a port, hot-add, what a link-down means for each personality, trunk failover, and a
port reset (06_ports.md R199 to R229; 05_links.md R168 to R185; 03_power_start.md R114). The commands stand in
Machine/Prt.lean and Machine/Lnk.lean.
-/
namespace Sys2Proof.Machine

/-! ### The slot (R217 to R219, R221, R225) -/

def slotChan (c : Chip) (p : Nat) : Nat := getF c PRT_SLOT_CHAN p
def slotPresent (c : Chip) (p : Nat) : Bool := slotted c p && isF c SLP_STAT_PRESENT (slotChan c p)
def slotPg (c : Chip) (p : Nat) : Bool := slotted c p && isF c SLP_STAT_PG (slotChan c p)

/-- A pass-through face bound to a host, whose Slot Control drives the slot (R218). -/
def boundFace (c : Chip) (p : Nat) : Bool := passFace c p && (vppbOfTarget c p).isSome

/-- The hot-plug registers of the slot behind a pass-through face (R217). -/
def slotRegs (c : Chip) (p : Nat) : SlotRegs :=
  { powerController := true, attentionButton := true, attentionIndicator := true, powerIndicator := true,
    mrlSensor := false, interlock := false, linkActiveCapable := true, powerOn := isF c PRT_SLOT_PWR_REQ p,
    attn := getF c PRT_SLOT_ATTN p, pwrInd := getF c PRT_SLOT_PWR_IND p, present := slotPresent c p,
    linkActive := inL0 c p }

/-- The functions of a pool face (R205, R206): function 0, and the manager function where MGR is 1. -/
def poolFuncs (c : Chip) (p : Nat) : List FuncFace :=
  { number := 0, memoryDevice := true, memCapable := true, ioCapable := true, cacheCapable := false, hdmDecoders := 4,
    regions := 8, bars := [(0, 2 ^ 20), (2, 2 ^ 24), (4, 2 ^ 21)] } ::
  (if isF c PRT_CFG_MGR p then
    [{ number := 1, memoryDevice := false, memCapable := false, ioCapable := true, cacheCapable := false,
       hdmDecoders := 0, regions := 0, bars := [(0, 2 ^ 27)] }]
   else [])

/-- What an enabled port presents to its partner, by its personality (R204). -/
def faceShown (c : Chip) (p : Nat) : Face :=
  match pers c p with
  | 0 => .memory (poolFuncs c p)
  | 1 => .switch true ((List.range 32).map (boundTo c p))
  | 2 => .root
  | 3 => .downstream (boundFace c p) (if slotted c p then some (slotRegs c p) else none)
  | _ => .trunk (fsid c)

/-- A change of Slot Status is reported through the vPPBs bound to a pass-through face (R217, R224). -/
def slotReport (p : Nat) (button presence link : Bool) (c : Chip) : Chip :=
  if passFace c p then
    forEach (vppbsOf c p) (fun e c => send (.slotStatus e.2.port e.2.vppb button presence link (slotRegs c p)) c) c
  else c

def setHot (p : Nat) (h : HotStep) (c : Chip) : Chip := setPrtSt p { prtSt c p with hot := h } c

/-- PERST_N is driven; while it is low nothing trains, and a training under way is lost (R630). -/
def setPerst (p : Nat) (high : Bool) (c : Chip) : Chip :=
  setPrtSt p { prtSt c p with perstHigh := high } (whenB (!high) (setLnkSt p { lnkSt c p with info := none }) c)

/-- The power indicator, where software and the port drive it: 0 off, 1 on, 2 blink. -/
def setPwrInd (p v : Nat) (c : Chip) : Chip := if boundFace c p then c else setF PRT_SLOT_PWR_IND p v c

/-- Step 1 of hot-add: power-on requested, PERST_N low, the power indicator blinking (R219). -/
def startPower (p : Nat) (c : Chip) : Chip :=
  let c1 := setReq (slotChan c p) true (setF PRT_SLOT_PWR_REQ p 1 c)
  setPwrInd p 2 (setPerst p false (setHot p (if slotPg c1 p then .waitPerst else .waitPower) c1))

/-- The slot's power is requested off, with PERST_N low (R223, R225). -/
def stopPower (p : Nat) (c : Chip) : Chip :=
  let c1 := setReq (slotChan c p) false (setF PRT_SLOT_PWR_REQ p 0 c)
  setPwrInd p 0 (setPerst p false (setHot p .idle c1))

/-- An enabled slotted port's own request changes (R218, R219). -/
def slotRequest (p : Nat) (on : Bool) (c : Chip) : Chip :=
  if on then (if slotPresent c p then startPower p c else setF PRT_SLOT_PWR_REQ p 1 c) else stopPower p c

/-! ### Links (R196, R203) -/

/-- A link as it stands while it is down: nothing unacknowledged, no credits, no width, no IDE key (20_security.md
R577). -/
def linkClear (p : Nat) (c : Chip) : Chip :=
  let c0 := { c with sec := { c.sec with ide := kvErase c.sec.ide p } }
  let c1 := setF LNK_WIDTH_GO p 0 (setLnkSt p LnkSt.idle c0)
  let c2 := setF LNK_SEQ_NEXT_TX p 0 (setF LNK_SEQ_ACKD p 0 (setF LNK_SEQ_LAST_RX p 0 c1))
  let c3 := forEach (List.range 5) (fun i c => setAvail p i 0 c) c2
  setF LNK_STAT_STATE p 0 (setF LNK_STAT_RATE p 0 (setF LNK_STAT_WIDTH p 0 (setF LNK_STAT_FLIT p 0
    (setF LNK_STAT_SELNAK_P p 0 (setF LNK_STAT_RETRAIN_SPENT p 0 (setF LNK_STAT_REPLAY_NUM p 0
      (setF PRT_STAT_TWIDTH p 0 (setF PRT_STAT_IDE_ON p 0 c3))))))))

/-! ### Devices (R222, R224) -/

/-- A device face leaves READY: REMOVED where presence was lost, else NONE. -/
def devLeft (p result : Nat) (c : Chip) : Chip :=
  if deviceFace c p && getF c PRT_DEV_RESULT p == 1 then carLeft p (setF PRT_DEV_RESULT p result c) else c

/-- A device face's link is out for good, or its device is gone: outstanding accesses end, and what rests on it learns
of it (R224). -/
def devLinkGone (p result : Nat) (c : Chip) : Chip :=
  publishUsed (reachChanged (deviceGone p true (devLeft p result c)))

/-- Requests of the face that wait for an answer when its link goes down are answered no more (R227). -/
def loseAnswers (p : Nat) (c : Chip) : Chip :=
  let c1 := { c with txns := c.txns.map fun t => if t.port = p ∧ t.host.isSome = true then { t with lostLink := true } else t }
  forEach (tenanciesOf c1 p) (fun t c =>
    setTenSt t { tenSt c t with bells := (tenSt c t).bells.map fun b => { b with lostLink := true } } c) c1

/-- A pool face's link goes down (R227; 12_coherence.md R407; 13_ordering.md R431). -/
def poolFaceDown (p : Nat) (c : Chip) : Chip :=
  settle (metGone p (departFace p true (drainWhere 7 (fun e => e.port == p) (loseAnswers p (dcDrop p c)))))

/-- Whether the port may train from here: a slotted device-facing port only with PERST_N high (R630). -/
def mayTrain (c : Chip) (p : Nat) : Bool := !(deviceFacing c p && slotted c p) || (prtSt c p).perstHigh

/-- After a link-down the device face adds its device again from step 4 of R219 (R225). -/
def retrainStep (p : Nat) (c : Chip) : Chip :=
  let s := prtSt c p
  let h : HotStep := if mayTrain c p then (if deviceFace c p then .waitLink else s.hot) else s.hot
  setPrtSt p { s with hot := h, dev := none } c

/-- Non-posted requests outstanding to the device of a pass-through face are answered Unsupported Request (R224). -/
def answerAsked (p : Nat) (c : Chip) : Chip :=
  setPrtSt p { prtSt c p with asked := [] }
    (forEach (prtSt c p).asked (fun x c => send (.host x.2 x.1 .ur) c) c)

/-- What a link-down means beyond the link itself, by personality. -/
def linkLost (p : Nat) (c : Chip) : Chip :=
  let c1 := xbrLinkDown p (lanesIdle p (linkClear p c))
  if poolFace c1 p then poolFaceDown p c1
  else if deviceFace c1 p then retrainStep p (devLinkGone p 0 c1)
  else if passFace c1 p then retrainStep p (slotReport p false true true (answerAsked p c1))
  else c1

/-! ### Trunks (R172 to R182, R190) -/

/-- A width change in progress is withdrawn. -/
def withdrawWidth (p : Nat) (c : Chip) : Chip :=
  let c1 := setLnkSt p { lnkSt c p with peerWidth := none } c
  if isF c1 LNK_WIDTH_GO p then setF LNK_WIDTH_GO p 0 (setF LNK_WIDTH_WITHDRAWN p 1 c1) else c1

/-- The member's buckets move to the survivor, and its unacknowledged flits are resent there, each under its number on
that member, ahead of new packets (R179). -/
def failover (p q : Nat) (c : Chip) : Chip :=
  let prim := primaryOf c p
  let lost := (lnkSt c p).unacked
  let bs := bucketsOf c p
  let c1 := setF LNK_TSTAT_CARRYING q 1 (forEach bs (fun b c => setCarrier prim b q c) c)
  let c2 := setLnkSt p { lnkSt c1 p with unacked := [] } c1
  let x := lnkSt c2 q
  pump q (retest <| movePkts p q (setLnkSt q { x with resend := x.resend ++ lost, moved := x.moved ++ bs } c2))

/-- Packets of a bucket queued toward one member are queued toward the other. -/
def retarget (b src dst : Nat) (c : Chip) : Chip :=
  setPkts (c.xbr.pkts.map fun k =>
    if !k.multicast && !k.stalled && k.sent == 0 && egressOf k == src && bucketOf k.ingress (k.pbr.getD 0) == b then
      { k with egress := [dst] } else k) c

def bucketGo (p b : Nat) (c : Chip) : Chip := setCarrier (primaryOf c p) b p (retarget b (partnerOf c p) p c)

/-- The only member up carries every bucket (R182). -/
def carryAlone (p : Nat) (c : Chip) : Chip :=
  setF LNK_TSTAT_CARRYING p (b2n (lnkSt c (partnerOf c p)).declaredDown) (retest (forEach allBuckets (bucketGo p) c))

/-- Neither member carries buckets, keeps flits or has any to resend. -/
def dropFlits (p : Nat) (c : Chip) : Chip :=
  setF LNK_TSTAT_CARRYING p 0 (setLnkSt p { lnkSt c p with unacked := [], resend := [], moved := [] } c)

/-- The pair carries nothing: its flits and packets are dropped, packets that were coming in over it end (R254), and
remote requests end as at a link-down (R182, 07_switch_core.md R257). A member that is in L0 after that carries on. -/
def pairDown (p q : Nat) (c : Chip) : Chip :=
  let prim := primaryOf c p
  let c1 := setTrunkOut prim [] (raise .lnk p 4 (dropFlits p (dropFlits q c)))
  let c2 := deviceGone prim true (dropPair p q (ingressDown q (ingressDown p c1)))
  if memberUp c2 q && inL0 c2 q then carryAlone q c2 else c2

/-- A trunk member goes down: its credits are released (R181), and it fails over to its partner; or the pair is down, where
the partner is not in L0 or p was still resending for it (R182). -/
def memberDown (p : Nat) (c : Chip) : Chip :=
  let q := partnerOf c p
  let was := (lnkSt c q).failback || (lnkSt c q).holdRuns
  let resending := !(lnkSt c p).resend.isEmpty
  let c0 := setF LNK_TSTAT_CARRYING p 0 (forEach (List.range 5) (fun i c => setAvail p i 0 c) c)
  let c1 := withdrawWidth p (setF LNK_STAT_WIDTH p 0 (setF PRT_STAT_TWIDTH p 0 c0))
  let c2 := setLnkSt p { lnkSt c1 p with declaredDown := true, holdRuns := false, failback := false, info := none } c1
  let c3 := if was then setLnkSt q { lnkSt c2 q with holdRuns := false, failback := false } c2 else c2
  if !resending && memberUp c3 q && inL0 c3 q then failover p q (count .lnk p 7 c3) else pairDown p q c3

/-- A trunk is declared down (R174): LNK_TRUNK_DOWN, and it reads FAILED until it is back in L0; its lanes train anew. -/
def trunkDown (p : Nat) (c : Chip) : Chip :=
  if (lnkSt c p).declaredDown then c
  else lanesIdle p (memberDown p (setF LNK_STAT_STATE p 5 (raise .lnk p 3 c)))

/-! ### Link-down, from whichever side (R168, R171, R201) -/

/-- An edge link goes down; software asked for it or not. -/
def edgeDown (p : Nat) (asked : Bool) (c : Chip) : Chip := linkLost p (whenB (!asked) (raise .lnk p 2) c)

/-- The link is up, or out of L0 for a Recovery. -/
def linkUp (c : Chip) (p : Nat) : Bool := 2 ≤ linkState c p && linkState c p ≤ 4

/-- A trunk is taken down: a member that was up is declared down, and reads FAILED unless software asked (R174, R178). -/
def trunkOut (p : Nat) (asked : Bool) (c : Chip) : Chip :=
  if asked then
    let c1 := whenB (linkUp c p) (memberDown p) c
    setLnkSt p { LnkSt.idle with declaredDown := (lnkSt c1 p).declaredDown } (lanesIdle p (linkClear p c1))
  else if linkUp c p then trunkDown p c
  else if linkState c p = 5 then lanesIdle p (setLnkSt p { lnkSt c p with info := none } c)
  else setLnkSt p { LnkSt.idle with declaredDown := (lnkSt c p).declaredDown } (lanesIdle p (linkClear p c))

/-- The link of an enabled port is taken down because its port is disabled, reset or moved to another reference. -/
def takeDown (p : Nat) (asked : Bool) (c : Chip) : Chip :=
  if trunk c p then trunkOut p asked c
  else if linkState c p == 0 then c
  else if linkUp c p then edgeDown p asked c
  else xbrLinkDown p (lanesIdle p (linkClear p c))

/-- A Recovery begins: the link leaves L0 (R186; 16_faults.md R632; 12_coherence.md R410). -/
def enterRecovery (p : Nat) (c : Chip) : Chip :=
  let c1 := forEach (lanesOf c p) adaptNow
    (setF LNK_STAT_STATE p 4 (setF LNK_CTRL_RETRAIN p 0 (setF LNK_STAT_WIDTH p 0 (setF PRT_STAT_TWIDTH p 0 c))))
  if deviceFace c1 p then reachChanged (deviceGone p false c1)
  else if poolFace c1 p then metGone p c1
  else c1

/-! ### Hot-add (R208, R219 to R222) -/

/-- Hot-add ends in another result than READY (R220). -/
def failHot (p code : Nat) (c : Chip) : Chip := setHot p .failed (raise .prt p 1 (setF PRT_DEV_RESULT p code c))

/-- Step 5: the first check that fails: 2 NOT_TYPE3, 6 MLD, 3 NO_MEM; 0 for none. -/
def deviceCheck (d : DeviceInfo) : Nat :=
  if !d.type3 then 2 else if d.mld then 6 else if !d.hasMem || d.bytes == 0 then 3 else 0

/-- A device face's link is in L0: the device is checked, and Memory_Active awaited. -/
def deviceArrives (p : Nat) (d : DeviceInfo) (c : Chip) : Chip :=
  let c1 := setPrtSt p { prtSt c p with dev := some d } c
  match deviceCheck d with
  | 0 => setHot p .waitActive c1
  | code => failHot p code c1

/-- Tiles of the used range: the capacity rounded down to whole tiles of 2 MiB, or its first 8 TiB (R208). -/
def usedTiles (d : DeviceInfo) : Nat := min (d.bytes / 2097152) 4194304

/-- The port where a device with this serial number was last READY, and is no longer. -/
def lastPlace (c : Chip) (serial : Nat) : Option Nat :=
  (kvKeys c.media.serials).find? fun q => kvFind c.media.serials q == some serial && !devReady c q

/-- What the medium of a device with this serial number holds: from the port it was last READY at, or from the shelf. -/
def diskOfSerial (c : Chip) (serial : Nat) : Disk :=
  match lastPlace c serial with
  | some q => diskAt c q
  | none => kvGet Disk.empty c.media.shelf serial

/-- A medium stays with its device, which its serial number tells: another device behind the port brings its own, and the
medium of the device it replaces is kept for that device's return (log entry 106). -/
def bindMedia (p serial : Nat) (c : Chip) : Chip :=
  if kvFind c.media.serials p = some serial then c
  else
    let d := diskOfSerial c serial
    let m := c.media
    let shelf := match kvFind m.serials p with
      | some old => kvSet Disk.empty m.shelf old (diskAt c p)
      | none => m.shelf
    let left := match lastPlace c serial with
      | some q => { m with disks := kvErase m.disks q, serials := kvErase m.serials q, shelf := shelf }
      | none => { m with shelf := kvErase shelf serial }
    { c with media := { left with disks := kvSet Disk.empty left.disks p d, serials := kvPut left.serials p serial } }

/-- Step 6: the device's HDM decoder is programmed over the used range, and the device is READY. -/
def deviceReady (p : Nat) (d : DeviceInfo) (c : Chip) : Chip :=
  let s := prtSt c p
  let same := s.lastSerial == some d.serial
  let c1 := setPrtSt p { s with hot := .ready, dev := some d, lastSerial := some d.serial, pan := getF c PRT_DEV_PAN p,
                                removed := false } c
  let c2 := setF PRT_DEV_CAP_TILES p (usedTiles d) (setF PRT_DEV_CAPPED p (b2n (8796093022208 < d.bytes))
    (setF PRT_DEV_SAME p (b2n same) (setF PRT_DEV_RESULT p 1 (send (.hdmProgram p (usedTiles d)) c1))))
  let c3 := count .prt p 3 (event .prt p 0 (whenB (slotted c2 p) (setPwrInd p 1) (bindMedia p d.serial c2)))
  publishUsed (reachChanged (carReady p same d.serial d.poison c3))

/-! ### Removal (R223 to R225) -/

/-- Presence is lost. -/
def presenceLost (p : Nat) (c : Chip) : Chip :=
  let c1 := if (prtSt c p).removed then c else count .prt p 5 (raise .prt p 2 c)
  let c2 := if deviceFace c1 p then devLinkGone p 8 c1 else slotReport p false true true (answerAsked p c1)
  let c3 := stopPower p (setF PRT_SLOT_REMOVE_REQ p 0 c2)
  setPrtSt p { prtSt c3 p with removed := false } c3

/-- An evacuated device is removed (R223): no more requests, PERST_N low, power off, the indicator off. Its link goes down
with that, which software did not ask as a port reset or a disable (05_links.md R171). -/
def removeDevice (p : Nat) (c : Chip) : Chip :=
  let c1 := devLinkGone p 8 (setF PRT_SLOT_REMOVE_REQ p 0 (whenB (linkUp c p) (raise .lnk p 2) c))
  let c2 := xbrLinkDown p (lanesIdle p (linkClear p c1))
  let c3 := whenB (slotted c2 p) (stopPower p) c2
  count .prt p 4 (event .prt p 1 (setPrtSt p { prtSt c3 p with removed := true, dev := none, hot := .idle } c3))

/-! ### A port reset (R114, R197, R229, R260, R422, R450, R474, R595) -/

/-- Counter values and snapshots of a page are cleared; selects stay (21_counters.md R595). -/
def clearCounts (pg : Nat) (c : Chip) : Chip :=
  { c with cnt := { c.cnt with ctr := c.cnt.ctr.map fun e =>
      if e.1 / 16 = pg then (e.1, { e.2 with val := 0, snap := 0 }) else e } }

/-- Lane registers that a port reset clears: all but PD, CLKMODE, POL, CDR_BW and the pattern and margin registers
(04_lanes.md R154). That PHY_LANE_BERR and PHY_LANE_BCNT are no pattern registers, and are cleared, is a DESIGN CHOICE
(log entry 94): R154 does not list them. -/
def clearedLaneFields : List Fld :=
  [PHY_LANE_CTRL_LB, PHY_LANE_CTRL_LBRATE, PHY_LANE_CTRL_FREEZE, PHY_LANE_STAT_LBACT, PHY_LANE_STAT_RATE,
   PHY_LANE_STAT_SIGDET, PHY_LANE_STAT_CDR_LOCK, PHY_LANE_STAT_CDR_LOST, PHY_LANE_STAT_POL_INV, PHY_LANE_STAT_PRE_TX,
   PHY_LANE_STAT_PRE_RX, PHY_LANE_STAT_ADAPT, PHY_LANE_STAT_REV, PHY_LANE_STAT_LOGICAL, PHY_LANE_STAT_TXPRE,
   PHY_LANE_STAT_CHK_LOCK, PHY_LANE_DFE0_TAP_A, PHY_LANE_DFE0_TAP_B, PHY_LANE_DFE0_TAP_C, PHY_LANE_DFE0_TAP_D,
   PHY_LANE_DFE1_TAP_A, PHY_LANE_DFE1_TAP_B, PHY_LANE_DFE1_TAP_C, PHY_LANE_DFE1_TAP_D, PHY_LANE_DFE2_TAP_A,
   PHY_LANE_DFE2_TAP_B, PHY_LANE_DFE2_TAP_C, PHY_LANE_DFE2_TAP_D, PHY_LANE_FTAP0_POS, PHY_LANE_FTAP0_VAL,
   PHY_LANE_FTAP1_POS, PHY_LANE_FTAP1_VAL, PHY_LANE_FTAP2_POS, PHY_LANE_FTAP2_VAL, PHY_LANE_CTLE_PEAK,
   PHY_LANE_CDR_PPM, PHY_LANE_BERR_ERRORS, PHY_LANE_BCNT_BITS]

def clearLane (l : Nat) (c : Chip) : Chip :=
  let c1 := forEach clearedLaneFields (fun X c => setLane X l (rstAt X (l / 16) (l % 16)) c) c
  takePatterns l (setLaneSt l { laneSt c1 l with lb := .none, trained := false, idled := false, compared := 0 } c1)

/-- A port reset of an enabled port: its packets are dropped (07_switch_core.md R258), its link goes down, its registers clear, and a device face adds its device again
from step 4 of R219. -/
def portResetGo (p : Nat) (asked : Bool) (c : Chip) : Chip :=
  let pool := poolFace c p
  let c1 := takeDown p asked (xbrPortReset p c)
  let c2 := setF LNK_TSTAT_PEER_ID p 0 (setF LNK_TSTAT_CARRYING p 0 (setF LNK_WIDTH_GO p 0 (setF LNK_WIDTH_WITHDRAWN p 0
    (setF LNK_WIDTH_DONE p 0 (resetF LNK_WIDTH_REQ p c1)))))
  let c3 := setF PRT_STAT_X128_P p 0 (setF PRT_DEV_RESULT p 0 (setF PRT_DEV_SAME p 0 (setF PRT_DEV_CAP_TILES p 0 c2)))
  let c4 := forEach (lanesOf c3 p) clearLane c3
  let c5 := forEach [PK.lnk, PK.prt, PK.slt, PK.shpP] (fun k c => clearCounts (pageOf k p) c) c4
  if pool then
    let c6 := { c5 with txns := c5.txns.filter fun t => !(t.port == p && t.stage == .shaper && hostKind t.kind) }
    let c7 := forEach (tenanciesOf c6 p) (fun t c => setTenSt t { tenSt c t with queue := [] } c) c6
    settle (metGone p (departFace p true (drainWhere 7 (fun e => e.port == p) (shedSlate p c7))))
  else retrainStep p c5

end Sys2Proof.Machine
end

