-- ==== Sys2Proof/Machine/Car.lean ====
section
/-!
DEFINITION. The commands of media care: binding a device page, health polls, passes, the care ring, mends, rescans and
evacuations (11_media_care.md R360 to R388).
-/
namespace Sys2Proof.Machine

/-- CAR's pages have started, and its timers run. -/
def carRuns (c : Chip) : Bool := pageStarted c .carC 0 && tmbRuns c

/-- The page's device is READY and answers. -/
def carReads (c : Chip) (d : Nat) : Bool :=
  isF c CAR_DEV_CFG_EN d && devReady c (carPort c d) && inL0 c (carPort c d)

/-! ### Binding (R360) -/

/-- The code that a write of EN = 1 ends with: 1 BOUND, 2 NOT_DEVICE, 3 TAKEN, 4 READY. -/
def bindCode (c : Chip) (d : Nat) : Nat :=
  let p := carPort c d
  if !persIs c p 2 then 2
  else if (carPages c).any fun e => e != d && carPort c e == p then 3
  else if devReady c p then 4
  else 1

/-- A page forgets its device. -/
def forgetPage (d : Nat) (c : Chip) : Chip :=
  let c1 := setF CAR_DEV_STAT_HOLD d 0 (setF CAR_DEV_STAT_TWSTALE d 0 (setF CAR_DEV_STAT_TVALID d 0
    (setF CAR_DEV_STAT_STATE d 0 c)))
  { c1 with car := { c1.car with lostWait := without c1.car.lostWait d, wasReady := without c1.car.wasReady d,
                                 newDevice := without c1.car.newDevice d, agePrev := kvErase c1.car.agePrev d } }

def carBind (d : Nat) (en : Bool) (c : Chip) : Chip :=
  if en then
    if isF c CAR_DEV_CFG_EN d then c
    else
      let k := bindCode c d
      setF CAR_DEV_CFG_CSTAT d k (whenB (k == 1) (fun c => setF CAR_DEV_CFG_EN d 1 (takeSettings d c)) c)
  else if !isF c CAR_DEV_CFG_EN d || devReady c (carPort c d) then c
  else reachChanged (forgetPage d (setF CAR_DEV_CFG_CSTAT d 0 (setF CAR_DEV_CFG_EN d 0 c)))

def execCarDevBind (pa : Path) (d : CarePage) (en : Bool) (s : State) : Out3 :=
  .next (onChip s (reachReg pa .carD d 0x040 (carBind d en)))

/-! ### Health (R366, R367, R375) -/

/-- The health status that a poll found is new. -/
def healthNew (c : Chip) (d : Nat) (r : HealthReport) : Bool :=
  getF c CAR_DEV_STAT_MAINT d != b2n r.maint || getF c CAR_DEV_STAT_DEGRADED d != b2n r.degraded ||
    getF c CAR_DEV_STAT_REPLACE d != b2n r.replace || getF c CAR_DEV_STAT_LIFE d != r.life

def effHealthPoll (d : Nat) (r : HealthReport) (c : Chip) : Chip :=
  if carRuns c && carReads c d then
    let c1 := whenB (healthNew c d r) (event .carD d 0) c
    let c2 := setF CAR_DEV_STAT_MAINT d (b2n r.maint) (setF CAR_DEV_STAT_DEGRADED d (b2n r.degraded)
      (setF CAR_DEV_STAT_REPLACE d (b2n r.replace) (setF CAR_DEV_STAT_LIFE d r.life
        (setF CAR_DEV_STAT_TVALID d 1 (setF CAR_DEV_STAT_TEMP d r.temp.toNat c1)))))
    let tiles := r.defectTiles.filter fun t => t < getF c2 PRT_DEV_CAP_TILES (carPort c2 d)
    evalState d (advanceAge d r.secs (forEach tiles (fun t c => carDefect (locWord (carPort c d) t) c) c2))
  else c

def execHealthPoll (d : CarePage) (r : HealthReport) (s : State) : Out3 := .next (onChip s (effHealthPoll d r))

/-- A health command does not complete: the fallback temperature counts (R366). -/
def effHealthFail (d secs : Nat) (c : Chip) : Chip :=
  if carRuns c && isF c CAR_DEV_CFG_EN d && devReady c (carPort c d) then
    let c1 := setF CAR_DEV_STAT_TVALID d 0 (setF CAR_DEV_STAT_TEMP d (2 * careF c CAR_DEV_THR_TDEF d) (raise .carD d 0 c))
    evalState d (advanceAge d secs c1)
  else c

def execCarHealthFail (d : CarePage) (secs : Nat) (s : State) : Out3 := .next (onChip s (effHealthFail d secs))

/-! ### The pass over a record (R369, R373, R376, R381) -/

/-- E of R373. -/
def endurance (c : Chip) (d : Nat) : Nat := careF c CAR_DEV_WEAR_ENDUR d * 32768000

/-- Device age at the start of the previous pass. -/
def prevAge (c : Chip) (d : Nat) : Nat :=
  (kvFind c.car.agePrev d).getD (regionOf c (carPort c d)).age

/-- Step 1: a pool tile that has arrived by a move. -/
def arrived (c : Chip) (d : Nat) (x : CareRec) (tile : Nat) (slot : Bool) (flips : Nat) : CareRec :=
  if x.tile == some tile && x.slot == slot && x.flips == flips then x
  else { x with tile := some tile, slot := slot, flips := flips, stamp := prevAge c d / 256 % 2 ^ 24,
                wear := if isDense c d then satAdd 32 x.wear 32768 else x.wear }

/-- Step 3: pending charges and defects. -/
def charged (c : Chip) (w : Nat) (x : CareRec) : CareRec :=
  { x with wear := satAdd 32 x.wear (pendingWear c w), defects := min 15 (x.defects + kvGet 0 c.car.defects w) }

def dropPending (w : Nat) (c : Chip) : Chip :=
  { c with car := { c.car with wear := c.car.wear.filter (fun x => x.1 != w), defects := kvErase c.car.defects w } }

/-- Equivalent hours since the tile was last fully written (R376). -/
def usedHours (c : Chip) (d : Nat) (x : CareRec) : Nat :=
  (getF c CAR_DEV_AGE_AGE d / 256 + 2 ^ 24 - x.stamp % 2 ^ 24) % 2 ^ 24

def retires (c : Chip) (d : Nat) (x : CareRec) : Bool :=
  (isDense c d && endurance c d * careF c CAR_DEV_WEAR_RETIRE_PCT d ≤ 100 * x.wear) ||
    careF c CAR_DEV_WEAR_DEF_MAX d ≤ x.defects

def levels (c : Chip) (d : Nat) (x : CareRec) : Bool :=
  isDense c d && x.wear * 100 < endurance c d * careF c CAR_DEV_WEAR_RETIRE_PCT d &&
    getF c CAR_DEV_WMEAN_MEAN d * 100 + endurance c d * careF c CAR_DEV_WEAR_WL_GAP d < x.wear * 100

def rewets (c : Chip) (d : Nat) (x : CareRec) : Bool :=
  isDense c d && careF c CAR_DEV_MEDIA_RET_H d * careF c CAR_DEV_THR_REWET_PCT d ≤ 100 * usedHours c d x

def expired (c : Chip) (d : Nat) (x : CareRec) : Bool := isDense c d && careF c CAR_DEV_MEDIA_RET_H d ≤ usedHours c d x

/-- An expired tile is reported, the first one recorded. -/
def noteExpired (tile : Nat) (c : Chip) : Chip :=
  let c1 := raise .carC 0 0 c
  if isF c1 CAR_EXP_TILE_VALID 0 then c1 else setF CAR_EXP_TILE_VALID 0 1 (setF CAR_EXP_TILE_TILE 0 tile c1)

/-- Step 4: the items that a record's state calls for. -/
def evalRecord (d : Nat) (x : CareRec) (c : Chip) : Chip :=
  match x.tile with
  | none => c
  | some t =>
    let p := carPort c d
    let post := fun (k : Nat) (b : Bool) (c : Chip) => whenB b (postItem k t x.slot p) c
    let c1 := post 1 (levels c d x) (post 2 (retires c d x) c)
    whenB (expired c d x) (noteExpired t) (post 0 (rewets c d x) c1)

/-- One record (R369 steps 1 to 5). -/
def passRecord (d t : Nat) (c : Chip) : Chip :=
  let p := carPort c d
  let w := locWord p t
  let x := recAt c p t
  let here := (locsOn c p).find? fun l => (if l.2.1 then l.2.2.loc1 else l.2.2.loc0) == w
  let x1 := match here with
    | some (tile, slot, e) => arrived c d x tile slot (e.flips % 16)
    | none => { x with tile := none, retired := x.retired || c.car.retireLeft.contains w }
  let c1 := match here with
    | some _ => c
    | none => { c with car := { c.car with retireLeft := without c.car.retireLeft w } }
  let x2 := charged c1 w x1
  writeRec d p t x2 (evalRecord d x2 (dropPending w c1))

/-- Device tiles whose record the pass may change. -/
def passTiles (c : Chip) (d : Nat) : List Nat :=
  let p := carPort c d
  let held := (locsOn c p).map fun l => locTile (if l.2.1 then l.2.2.loc1 else l.2.2.loc0)
  let known := kvKeys (regionOf c p).recs
  let pend := ((c.car.wear.map (·.1)) ++ kvKeys c.car.defects ++ c.car.retireLeft).filterMap fun w =>
    if locPort w = p then some (locTile w) else none
  sortNat ((held ++ known ++ pend).foldl addNew [])

/-- A returned device with another serial number: HOLD ends, and the region is initialised, once no entry has a location
there (R385). -/
def newDevicePass (d : Nat) (c : Chip) : Chip :=
  let p := carPort c d
  if (locsOn c p).isEmpty then
    evalState d (askInit d (setF CAR_DEV_STAT_HOLD d 0
      { c with car := { c.car with newDevice := without c.car.newDevice d } }))
  else c

/-- Twin locations of a device that came back: RESTORE posted, and TWSTALE cleared when none is left (R383). -/
def twstalePass (d : Nat) (c : Chip) : Chip :=
  if isF c CAR_DEV_STAT_TWSTALE d then
    if twinsOn c (carPort c d) then postRestore (carPort c d) c else setF CAR_DEV_STAT_TWSTALE d 0 c
  else c

/-- The pass over one device: its age is noted for the next pass's stamps. -/
def passDevice (d : Nat) (c : Chip) : Chip :=
  if !carReads c d then c
  else if c.car.newDevice.contains d then newDevicePass d c
  else if isF c CAR_DEV_STAT_HOLD d then c
  else
    let age := getF c CAR_DEV_AGE_AGE d
    let c1 := twstalePass d (forEach (passTiles c d) (passRecord d) c)
    evalState d { c1 with car := { c1.car with agePrev := kvPut c1.car.agePrev d age } }

/-- A care pass runs: with the settings as they are now (R389), over regions that are initialised. -/
def runPass (c : Chip) : Chip :=
  let c0 := initAll (forEach (carPages c) takeSettings c)
  let c1 := forEach (carPages c0) passDevice c0
  publishUsed (reachChanged { c1 with car := { c1.car with passRuns := true } })

/-- A pass may start. -/
def passMay (c : Chip) : Bool :=
  carRuns c && isF c CAR_CTRL_EN 0 && mapRunning c && careWrites c

/-- A pass reads the device tile: of a cared device's care region, or of its map region, which holds map entries (R369). -/
def passReads (c : Chip) (w : Nat) : Bool :=
  (carePageOf c (locPort w)).any (carReads c) && reservedTile c (locPort w) (locTile w)

/-- Lines that a device returns poisoned, or with an error, to the pass's reads: a defect each, which the next pass finds
(R367). -/
def passDefects (ls : List Loc) (c : Chip) : Chip := forEach ((ls.map wordOf).filter (passReads c)) carDefect c

/-- A pass starts, or is due while one runs (R369). -/
def effPassStart (poison : List Loc) (c : Chip) : Chip :=
  if passMay c then
    if c.car.passRuns then raise .carC 0 3 { c with car := { c.car with passLate := true } } else passDefects poison (runPass c)
  else c

def execCarePassStart (poison : List Loc) (s : State) : Out3 := .next (onChip s (effPassStart poison))

/-! ### The end of a pass (R369, R373, R374, R377) -/

/-- Records of a device that count for wear: neither RSVD nor RETIRED; those listed, and how many are not. -/
def wornRecs (r : CareRegion) : List (Nat × CareRec) := r.recs.filter fun x => !x.2.rsvd && !x.2.retired
def unlistedRecs (c : Chip) (p : Nat) (r : CareRegion) : Nat :=
  r.tiles - careRegionSize r.tiles - mapTilesOn c p - (r.recs.filter fun x => !x.2.rsvd).length

def meanWear (c : Chip) (p : Nat) (r : CareRegion) : Nat :=
  let n := (wornRecs r).length + unlistedRecs c p r
  ((wornRecs r).foldl (fun s x => s + x.2.wear) 0 + unlistedRecs c p r * r.wear0) / max n 1

/-- The fresh list: up to 1,008 tiles that hold nothing, least worn first, the lower tile first on a tie. -/
def freshList (c : Chip) (p : Nat) (r : CareRegion) : List Nat :=
  let lo := careRegionSize r.tiles
  let bare := ((List.range (min (r.tiles - lo) (1008 + r.recs.length))).map (lo + ·)).filter fun t =>
    (kvFind r.recs t).isNone && !reservedTile c p t
  let free := (wornRecs r).filter fun x => x.2.tile.isNone
  ((sortBy (fun x => x.2 * 4194304 + x.1) (free.map (fun x => (x.1, x.2.wear)) ++ bare.map fun t => (t, r.wear0))).take
    1008).map (·.1)

/-- The header and fresh list of a device are written. -/
def closeDevice (d : Nat) (c : Chip) : Chip :=
  let p := carPort c d
  if carReads c d && !isF c CAR_DEV_STAT_HOLD d then
    let r := regionOf c p
    setF CAR_DEV_WMEAN_MEAN d (meanWear c p r)
      (setRegion p { r with age := getF c CAR_DEV_AGE_AGE d, passes := r.passes + 1, fresh := freshList c p r } c)
  else c

/-- Margins of a device's tiles: hours of its retention left, with its present temperature's exponent; below 0 where a tile
is past its retention. -/
def marginsOf (c : Chip) (d : Nat) : List Margin :=
  if isDense c d && carReads c d then
    (regionOf c (carPort c d)).recs.filterMap fun x => x.2.tile.map fun t =>
      { tile := t, left := (careF c CAR_DEV_MEDIA_RET_H d : Int) - (usedHours c d x.2 : Int),
        num := -careExpNum c d, den := careExpDen c d }
  else []

/-- The smallest margin, the first of several. -/
def minMargin (l : List Margin) : Option Margin :=
  l.foldl (fun b m => match b with
    | none => some m
    | some x => if marginLess m x then some m else some x) none

/-- CAR_MARGIN, truncated, and its tile: the smallest; a negative one's value is open (log entry 43). -/
def setMargin (c : Chip) : Chip :=
  match minMargin ((carPages c).foldl (fun l d => l ++ marginsOf c d) []) with
  | some m =>
    let c1 := if m.left < 0 then takeDraw (setF CAR_MARGIN_H 0 (drawn c) c)
              else setF CAR_MARGIN_H 0 (min (scaledFloor m.left.toNat 1 m.num m.den) (2 ^ 32 - 1)) c
    setF CAR_MARGIN_TILE_VALID 0 1 (setF CAR_MARGIN_TILE_TILE 0 m.tile c1)
  | none => setF CAR_MARGIN_TILE_VALID 0 0 (setF CAR_MARGIN_TILE_TILE 0 0 (setF CAR_MARGIN_H 0 (2 ^ 32 - 1) c))

/-- A pass ends once its items are posted and CAR may write headers and fresh lists (R93, R378); one that was due starts
(R369). -/
def effPassDone (durS : Nat) (poison : List Loc) (c : Chip) : Chip :=
  if c.car.passRuns && c.car.posting.isEmpty && careWrites c then
    let late := c.car.passLate
    let c1 := setMargin (forEach (carPages c) closeDevice c)
    let c2 := event .carC 0 0 (count .carC 0 5 (wrapF CAR_PASSNO_N 0 1 (setF CAR_PASS_T_T 0 (min durS (2 ^ 32 - 1)) c1)))
    let c3 := { c2 with car := { c2.car with passRuns := false, passLate := false } }
    whenB (late && passMay c3) (fun c => passDefects poison (runPass c)) c3
  else c

def execCarPassDone (durS : Nat) (poison : List Loc) (s : State) : Out3 := .next (onChip s (effPassDone durS poison))

/-! ### The care ring (R372) -/

/-- The word that a read of CAR_RING returns. -/
def careWord (i : CareItem) : Nat := 2 ^ 31 + i.kind * 2 ^ 28 + b2n i.slot * 2 ^ 27 + i.port

/-- REASON of the move that an item asks for. -/
def careReason (kind : Nat) : Nat :=
  match kind with
  | 0 => 2 | 1 => 3 | 2 => 4 | 3 => 5 | 4 => 6 | _ => 2

/-- Devices that a care move must not go to: for EVACUATE and RESTORE its own, and for a twin the other location's. -/
def careAvoid (c : Chip) (i : CareItem) : List Nat :=
  let e := entryOf c i.tile
  (if i.kind = 3 ∨ i.kind = 4 then [i.port] else []) ++
    (if e.twin then [locPort (if i.slot then e.loc0 else e.loc1)] else [])

/-- The pan a care move goes to: the present one if it has a device, else another eligible one (R372). -/
def carePan (c : Chip) (i : CareItem) : Option Nat :=
  let e := entryOf c i.tile
  let here := locPan c (if i.slot then e.loc1 else e.loc0)
  let pans := (eligible c i.tile).filter (· == here) ++ (eligible c i.tile).filter (· != here)
  pans.find? fun n => (bestDevice c n .care (careAvoid c i)).isSome

/-- The firmware's choice fits: a WEAR move goes to a tile of the device's fresh list. -/
def careFits (c : Chip) (i : CareItem) (l : Loc) : Bool :=
  match carePan c i with
  | some n => takesLoc c n .care (careAvoid c i) (wordOf l) &&
      (i.kind != 1 || (regionOf c l.port).fresh.contains l.dtile.val)
  | none => false

/-- The prefects act on a care item; one whose tile has changed its state since it was posted they discard (R372). B differs from A, so that a RESTORE replaces its location (09_tile_map.md R636). -/
def careItem (i : CareItem) (ch : PlaceChoice) (c : Chip) : Chip :=
  if i.kind = 5 then issueCmd 5 i.tile 0 0 false ch.cw c
  else if (entryOf c i.tile).state != i.state then c
  else if careFits c i ch.a then
    issueMove i.tile (wordOf ch.a) (b2n (wordOf ch.a == 0)) (careReason i.kind) i.slot ch.cw
      (whenB (ifaceFree c (1 + formOf i.tile) && prefectsRun c) (count .mrk 0 7) c)
  else c

/-- A location to evacuate has no destination: the prefects abort the evacuation (R387). -/
def noSpace (i : CareItem) (c : Chip) : Chip :=
  match carePageOf c i.port with
  | some d => if prefectsRun c && i.kind == 3 && (carePan c i).isNone && getF c CAR_DEV_EVAC_STATUS d == 1 then
      evacFail d 3 c else c
  | none => c

def effCareRead (pa : Path) (ch : Option PlaceChoice) (c : Chip) : Chip :=
  match c.car.ring with
  | [] => send (.pathRead pa 0) c
  | i :: rest =>
    let c1 := feedRing { c with car := { c.car with ring := rest } }
    let c2 := send (.pathRead pa (careWord i)) (setF CAR_RING_TILE_TILE 0 i.tile c1)
    publishUsed (match ch with
      | some x => careItem i x c2
      | none => noSpace i c2)

def execCarRingRead (pa : Path) (choice : Option PlaceChoice) (s : State) : Out3 :=
  .next (onChip s (reachReg pa .carC 0 0x060 (effCareRead pa choice)))

/-! ### Mends (R380) -/

/-- A queued mend may run: its tile is at rest, and both locations are reachable. -/
def mendMay (c : Chip) (m : MendReq) : Bool :=
  let e := entryOf c (tileOfLine m.line)
  e.twin && e.state == 1 && locReach c true e.loc0 && locReach c true e.loc1 && !lineLocked c m.line &&
    !(c.txns.any fun t => t.line == m.line && !t.legs.isEmpty)

/-- The mend's read of its line at y, and, of good data, the full-line write at x. -/
def sendMend (x y l : Nat) (good : DevStatus) (d : Line) (c : Chip) : Chip :=
  let c1 := send (.devRd (locPort y) c.nextTxn (locTile y) l) { c with nextTxn := c.nextTxn + 2 }
  if good = .ok then send (.devWr (locPort x) (c.nextTxn + 1) (locTile x) l fullMask d false) c1 else c1

/-- The mend of the first line that may be mended: read at the good location and written at the bad one. EN = 0 stops mends
once the running pass has ended (R389). -/
def effMend (good : DevStatus) (d : Line) (writeOk : Bool) (c : Chip) : Chip :=
  if carRuns c && (isF c CAR_CTRL_EN 0 || c.car.passRuns) && careWrites c then
    match c.car.mends.find? (mendMay c) with
    | none => c
    | some m =>
      let e := entryOf c (tileOfLine m.line)
      let x := if m.bad then e.loc1 else e.loc0
      let y := if m.bad then e.loc0 else e.loc1
      let c1 := sendMend x y (lineInTile m.line) good d { c with car := { c.car with mends := dropFirst (· == m) c.car.mends } }
      if good = .ok then
        let c2 := chargeTile x 1 c1
        match carePageOf c2 (locPort x) with
        | some d => whenB writeOk (count .carD d 4) c2
        | none => c2
      else carDefect y c1
  else c

def execMend (good : DevStatus) (data : Line) (writeOk : Bool) (s : State) : Out3 :=
  .next (onChip s (effMend good data writeOk))

/-! ### Rescans and limits (R383, R384, R386, R387) -/

def effTwstale (d : Nat) (c : Chip) : Chip :=
  if carRuns c && isF c CAR_DEV_STAT_TWSTALE d && !twinsOn c (carPort c d) then
    reachChanged (evalState d (setF CAR_DEV_STAT_TWSTALE d 0 c))
  else c

def execTwstaleRescan (d : CarePage) (s : State) : Out3 := .next (onChip s (effTwstale d))

def effLostWait (d : Nat) (c : Chip) : Chip :=
  if carRuns c && c.car.lostWait.contains d && !devReady c (carPort c d) then
    postLost (carPort c d) (raise .carC 0 1 { c with car := { c.car with lostWait := without c.car.lostWait d } })
  else c

def execLostWaitExpiry (d : CarePage) (s : State) : Out3 := .next (onChip s (effLostWait d))

/-- No entry has a location on the device, and no pending move has DEST there (R386 step 4). -/
def evacClear (c : Chip) (d : Nat) : Bool :=
  let p := carPort c d
  (locsOn c p).isEmpty && !(listedTiles c).any fun t =>
    isMoving (entryOf c t) && !noCopy c t && locPort (entryOf c t).dest == p

/-- The evacuation ends DONE, and PRT completes the removal. -/
def evacDone (d : Nat) (c : Chip) : Chip :=
  let c1 := count .carC 0 9 (setF CAR_DEV_EVAC_LEFT_LEFT d 0 (setF CAR_DEV_EVAC_STATUS d 2 c))
  removeDevice (carPort c1 d) (evalState d (event .carD d 1 c1))

def evacLook (d : Nat) (c : Chip) : Chip :=
  if getF c CAR_DEV_EVAC_STATUS d != 1 then c
  else if evacClear c d then evacDone d c
  else evacScan d c

def execEvacRescan (d : CarePage) (s : State) : Out3 :=
  .next (onChip s fun c => if carRuns c then evacLook d c else c)

def effEvacTimeout (d : Nat) (c : Chip) : Chip :=
  if carRuns c && getF c CAR_DEV_EVAC_STATUS d == 1 then evacFail d 4 c else c

def execEvacTimeout (d : CarePage) (s : State) : Out3 := .next (onChip s (effEvacTimeout d))

/-- A write of ABORT: NO_SPACE for code 3, else CANCELLED. -/
def abortEvac (d code : Nat) (c : Chip) : Chip :=
  if getF c CAR_DEV_EVAC_STATUS d = 1 then evacFail d (if code = 3 then 3 else 7) c else c

def execEvacAbort (pa : Path) (d : CarePage) (code : Fin 8) (s : State) : Out3 :=
  .next (onChip s (reachReg pa .carD d 0x064 (abortEvac d code)))

end Sys2Proof.Machine
end

