-- ==== Sys2Proof/Machine/Slp.lean ====
section
/-!
DEFINITION. The commands of slot power (17_slot_power.md R510 to R527). Every channel's logic runs from VAUX.
-/
namespace Sys2Proof.Machine

/-- A channel event has its effect while the VAUX domain is out of reset. -/
def onVaux (f : Chip → Chip) (c : Chip) : Chip := if c.pwr.vauxUp then f c else c

/-! ### Requests (R510, R514) -/

def slpEnable (n : Nat) (en : Bool) (c : Chip) : Chip :=
  if en then tryHold n (setF SLP_CFG_EN n 1 c) else gateOff n 0 (setF SLP_CFG_EN n 0 c)

def execSlpCfgEn (pa : Path) (n : Chan) (en : Bool) (s : State) : Out3 :=
  .next (onChip s (reachReg pa .slp n 0x040 (slpEnable n en)))

/-- A software write of REQ, ignored while an enabled slotted port names the channel. -/
def softReq (n : Nat) (req : Bool) (c : Chip) : Chip := if (portOfChan c n).isSome then c else setReq n req c

/-- The naming port's own request. -/
def portReq (n : Nat) (req : Bool) (c : Chip) : Chip :=
  match portOfChan c n with
  | some p => slotRequest p req c
  | none => c

def execSlpReqWrite (src : Option Path) (n : Chan) (req : Bool) (s : State) : Out3 :=
  .next (onChip s (match src with
    | some pa => reachReg pa .slp n 0x050 (softReq n req)
    | none => onVaux (portReq n req)))

/-! ### Presence (R511 to R513) -/

/-- The port behind the slot learns that presence is qualified: step 1 of hot-add (06_ports.md R219). -/
def portPresent (n : Nat) (c : Chip) : Chip :=
  match portOfChan c n with
  | some p =>
    if deviceFacing c p && (prtSt c p).hot == .idle &&
        (isF c PRT_SLOT_PWR_REQ p || (isF c PRT_SLOT_AUTO p && !boundFace c p)) then startPower p c else c
  | none => c

/-- The sideband chain is broken: the channels keep their present state (02_package_pins.md R78). -/
def chainBroken (c : Chip) : Bool := isF c BRG_SBC_STAT_BROKEN 0

def effQualified (n : Nat) (c : Chip) : Chip :=
  if rawPresent c n && !isF c SLP_STAT_PRESENT n && !chainBroken c then
    let c1 := tryHold n (count .slp n 6 (event .slp n 2 (setF SLP_STAT_PRESENT n 1 c)))
    portPresent n (match portOfChan c1 n with
      | some p => slotReport p false true false c1
      | none => c1)
  else c

def execPresenceQualified (n : Chan) (s : State) : Out3 := .next (onChip s (onVaux (effQualified n)))

/-- A removal: the gate goes off whatever REQ holds, and the port behind the slot loses its device. -/
def effRemoval (n : Nat) (c : Chip) : Chip :=
  if !rawPresent c n && isF c SLP_STAT_PRESENT n && !chainBroken c then
    let c1 := setF SLP_STAT_RETRY n 0 (gateOff n 0 c)
    let c2 := count .slp n 5 (event .slp n 2 (setF SLP_STAT_PRESENT n 0 c1))
    match portOfChan c2 n with
    | some p => if deviceFacing c2 p then presenceLost p c2 else c2
    | none => c2
  else c

def execPresenceRemoval (n : Chan) (s : State) : Out3 := .next (onChip s (onVaux (effRemoval n)))

/-! ### The state machine (R514 to R519) -/

/-- Entry to RAMP, with the settings as they are then (R523). -/
def enterRamp (n : Nat) (c : Chip) : Chip :=
  let c1 := setChan n 2 { c with slp := { c.slp with lastRamp := some c.slp.aux } }
  setSlpSt n { slpSt c1 n with rampRuns := true, faultRuns := false, railLow := false, gov := getF c1 SLP_CFG_GOV n } c1

def effRampAdmit (n : Nat) (c : Chip) : Chip :=
  if admitted c n then count .slp n 2 (enterRamp n c) else c

def execRampAdmit (n : Chan) (s : State) : Out3 := .next (onChip s (onVaux (effRampAdmit n)))

/-- The gate stands at least GOV - 0.5 V above the rail: in RAMP, the channel enters QUALIFY. -/
def effGateFull (n vgs : Nat) (c : Chip) : Chip :=
  let c1 := if gateDriven c n then setF SLP_GATE_VGS n vgs c else c
  if chanState c1 n = 2 ∧ 1000 * (slpSt c1 n).gov ≤ vgs + 500 then
    let c2 := setF SLP_STAT_GATEFULL n 1 (setChan n 3 c1)
    setSlpSt n { slpSt c2 n with rampRuns := false } c2
  else c1

def execGateFull (n : Chan) (vgs : Fin 65536) (s : State) : Out3 := .next (onChip s (onVaux (effGateFull n vgs)))

/-- The qualify time has passed with gate-full, rail-good and no limit. -/
def effPgQualified (n : Nat) (c : Chip) : Chip :=
  if chanState c n = 3 ∧ (slpSt c n).railLow = false then setPg n true (setChan n 4 c) else c

def execPgQualified (n : Chan) (s : State) : Out3 := .next (onChip s (onVaux (effPgQualified n)))

/-- The shunt reaches VLIM: the fault timer runs. -/
def effLimitOnset (n isns : Nat) (c : Chip) : Chip :=
  let c1 := senseShunt n isns c
  let st := chanState c1 n
  if 2 ≤ st ∧ st ≤ 4 ∧ limitLevel c1 n ≤ isns then
    let c2 := setF SLP_STAT_LIMIT n 1 (setF SLP_STAT_GATEFULL n 0 (setChan n 5 c1))
    setSlpSt n { slpSt c2 n with faultRuns := true, rampRuns := false, vlim := getF c2 SLP_CFG_VLIM n } c2
  else c1

def execLimitOnset (n : Chan) (isns : Fin 65536) (s : State) : Out3 :=
  .next (onChip s (onVaux (effLimitOnset n isns)))

/-- The limit ends, below VLIM as its onset took it: back to ON if PG is 1, with PG 0 if rail-good does not hold, or else to RAMP. -/
def effLimitEnd (n isns : Nat) (good : Bool) (c : Chip) : Chip :=
  let c1 := senseShunt n isns c
  if chanState c1 n = 5 ∧ isns < 100 * (slpSt c1 n).vlim then
    let c2 := setF SLP_STAT_LIMIT n 0 c1
    if isF c2 SLP_STAT_PG n then
      let c3 := setF SLP_STAT_GATEFULL n 1 (setChan n 4 c2)
      whenB (!good) (setPg n false) (setSlpSt n { slpSt c3 n with faultRuns := false, railLow := !good } c3)
    else enterRamp n c2
  else c1

def execLimitEnd (n : Chan) (isns : Fin 65536) (railGood : Bool) (s : State) : Out3 :=
  .next (onChip s (onVaux (effLimitEnd n isns railGood)))

def effFaultTimer (n : Nat) (c : Chip) : Chip :=
  if chanState c n = 5 ∧ (slpSt c n).faultRuns = true then trip n 1 c else c

def execFaultTimerExpiry (n : Chan) (s : State) : Out3 := .next (onChip s (onVaux (effFaultTimer n)))

def effRampTimeout (n : Nat) (c : Chip) : Chip := if chanState c n = 2 then trip n 3 c else c

def execRampTimeout (n : Chan) (s : State) : Out3 := .next (onChip s (onVaux (effRampTimeout n)))

def effFastTrip (n isns : Nat) (c : Chip) : Chip :=
  let c1 := senseShunt n isns c
  if gateDriven c1 n && 3 * limitLevel c1 n ≤ isns then trip n 2 c1 else c1

def execFastTrip (n : Chan) (isns : Fin 65536) (s : State) : Out3 :=
  .next (onChip s (onVaux (effFastTrip n isns)))

/-- The cooldown ends: COOL goes to HOLD, and RETRY counts the retry that starts. -/
def effCooldownEnd (n : Nat) (c : Chip) : Chip :=
  if (slpSt c n).coolRuns then
    let c1 := setF SLP_COOL_LEFT_MS n 0 (setSlpSt n { slpSt c n with coolRuns := false } c)
    if chanState c1 n = 6 then
      count .slp n 4 (setChan n 1 (setF SLP_STAT_RETRY n (min 7 (getF c1 SLP_STAT_RETRY n + 1)) c1))
    else c1
  else c

def execCooldownEnd (n : Chan) (s : State) : Out3 := .next (onChip s (onVaux (effCooldownEnd n)))

/-! ### HV_IN (R520), in steps of 10 mV: sensed in any order with the other supplies (03_power_start.md R90) -/

def setHv (cv : Nat) (ok : Bool) (c : Chip) : Chip :=
  let c1 := setF PWR_HVSENSE_HV_IN 0 cv c
  { c1 with slp := { c1.slp with hvOk := ok } }

def effHvValid (cv : Nat) (c : Chip) : Chip :=
  if 1030 < cv then setHv cv true c else setHv cv c.slp.hvOk c

def execHvInValid (cv : Fin 4096) (s : State) : Out3 := .next (onChip s (effHvValid cv))

/-- At a loss every driven channel enters HOLD, and every enabled channel raises SLP_HV_LOW. -/
def effHvLost (cv : Nat) (c : Chip) : Chip :=
  if cv < 1000 ∧ c.slp.hvOk = true then
    forEach allChans (fun n c =>
      whenB (isF c SLP_CFG_EN n) (raise .slp n 3) (whenB (gateDriven c n) (gateOff n 1) c)) (setHv cv false c)
  else setHv cv c.slp.hvOk c

def execHvInLost (cv : Fin 4096) (s : State) : Out3 := .next (onChip s (effHvLost cv))

/-! ### The rail (R517, R521, R522, R525) -/

/-- Rail-good ends: in ON PG drops without a trip; in QUALIFY the qualify time starts again when it returns; in LIMIT it
is not evaluated. -/
def effRailEnd (n srail : Nat) (c : Chip) : Chip :=
  let c1 := senseRail n srail c
  if srail < warnLevel c1 n then
    let c2 := setSlpSt n { slpSt c1 n with railLow := true } c1
    if chanState c1 n = 4 ∧ isF c1 SLP_STAT_PG n = true then
      setPg n false (count .slp n 7 (raise .slp n 2 c2))
    else if chanState c1 n = 5 then c1
    else c2
  else c1

def execRailGoodEnd (n : Chan) (srail : Fin 65536) (s : State) : Out3 :=
  .next (onChip s (onVaux (effRailEnd n srail)))

def effRailReturn (n srail : Nat) (c : Chip) : Chip :=
  let c1 := senseRail n srail c
  if goodLevel c1 n < srail ∧ chanState c1 n ≠ 5 then
    let c2 := setSlpSt n { slpSt c1 n with railLow := false } c1
    if chanState c2 n = 4 then setPg n true c2 else c2
  else c1

def execRailGoodReturn (n : Chan) (srail : Fin 65536) (s : State) : Out3 :=
  .next (onChip s (onVaux (effRailReturn n srail)))

def effRetryClear (n : Nat) (c : Chip) : Chip := if isF c SLP_STAT_PG n then setF SLP_STAT_RETRY n 0 c else c

def execRetryClear (n : Chan) (s : State) : Out3 := .next (onChip s (onVaux (effRetryClear n)))

def effFetShort (n srail : Nat) (c : Chip) : Chip :=
  let c1 := senseRail n srail c
  if !gateDriven c1 n && warnLevel c1 n < srail then raise .slp n 4 c1 else c1

def execSlpFetShort (n : Chan) (srail : Fin 65536) (s : State) : Out3 :=
  .next (onChip s (onVaux (effFetShort n srail)))

def peakClr (n : Nat) (c : Chip) : Chip := setF SLP_PEAK_PEAK n (getF c SLP_SENSE_ISNS n) c

def execSlpPeakClr (pa : Path) (n : Chan) (s : State) : Out3 :=
  .next (onChip s (reachReg pa .slp n 0x06C (peakClr n)))

end Sys2Proof.Machine
end

