-- ==== Sys2Proof/Machine/Prt.lean ====
section
/-!
DEFINITION. The commands of ports: enabling and disabling, hot-add, removal, protocol errors and Slot Control
(06_ports.md R199 to R226).
-/
namespace Sys2Proof.Machine

/-! ### Enabling (R199, R200, R216) -/

def widthOk (w : Nat) : Bool := [1, 2, 4, 8, 16].contains w

/-- Class of a personality: 0 host-facing, 1 device-facing, 2 inter-switch; and its limit and code. -/
def persClass (k : Nat) : Nat := if k ≤ 1 then 0 else if k ≤ 3 then 1 else 2
def classLimit (k : Nat) : Nat × Nat :=
  match k with
  | 0 => (256, 4) | 1 => (512, 5) | _ => (64, 6)

/-- Enabled ports of a class. -/
def classCount (c : Chip) (k : Nat) : Nat := ((enabledPorts c).filter fun q => persClass (pers c q) == k).length

/-- A chain bit index under R216: not connected, or below N - 8. -/
def chainIndexOk (c : Chip) (i : Nat) : Bool := i == 1023 || i + 8 < 8 * getF c BRG_SBC_CFG_LEN 0

def slotMapOk (c : Chip) (p : Nat) : Bool :=
  chainIndexOk c (getF c PRT_SLOT_IN_BTN p) && chainIndexOk c (getF c PRT_SLOT_IN_PRSNT p) &&
    chainIndexOk c (getF c PRT_SLOT_OUT_PERST p) && chainIndexOk c (getF c PRT_SLOT_OUT_PWR_LED p) &&
    chainIndexOk c (getF c PRT_SLOT_OUT_ATTN_LED p) &&
    !(slotted c p && (enabledPorts c).any fun q => q != p && slotted c q && slotChan c q == slotChan c p)

/-- CFG_STATUS of an enable: 1 ENABLED, or the first reason to refuse it. -/
def enableCode (c : Chip) (p : Nat) : Nat :=
  let w := portWidth c p
  let l := classLimit (persClass (pers c p))
  if 5 ≤ pers c p then 9
  else if !widthOk w || p % w != 0 then 2
  else if (enabledPorts c).any fun q => q < p + w && p < q + portWidth c q then 3
  else if l.1 ≤ classCount c (persClass (pers c p)) then l.2
  else if !slotMapOk c p then 8
  else 1

/-- A device-facing port starts its slot, or its hot-add, at its enable (R219, R221). That its power indicator blinks where
it adopts a channel that is powered is a DESIGN CHOICE (log entry 115): R221 does not name the indicator. -/
def enableSlot (p : Nat) (c : Chip) : Chip :=
  if !deviceFacing c p then c
  else if !slotted c p then whenB (deviceFace c p) (setHot p .waitLink) c
  else
    let n := slotChan c p
    if isF c SLP_CTRL_REQ n then
      setPwrInd p 2 (setPerst p false (setHot p (if slotPg c p then .waitPerst else .waitPower)
        (setF PRT_SLOT_PWR_REQ p 1 c)))
    else if slotPresent c p && (isF c PRT_SLOT_PWR_REQ p || (isF c PRT_SLOT_AUTO p && !boundFace c p)) then
      startPower p c
    else c

/-- A lane joins or leaves an enabled port: what is held of PD, generator and checker takes effect when it leaves (04_lanes.md
R140, R149). -/
def laneJoins (l : Nat) (c : Chip) : Chip := takePatterns l (setLane PHY_LANE_STAT_PDACT l 0 c)

def laneLeaves (l : Nat) (c : Chip) : Chip := takePower l c

/-- A configuration is refused (R199, R228). -/
def refusePort (p code : Nat) (c : Chip) : Chip :=
  count .prt p 2 (raise .prt p 4 (setF PRT_STAT_CFG_STATUS p code c))

def enablePort (p : Nat) (c : Chip) : Chip :=
  if portOn c p then setF PRT_STAT_CFG_STATUS p 1 c
  else
    let code := enableCode c p
    if code = 1 then
      let c1 := setF PRT_CFG_EN p 1 (setF PRT_STAT_CFG_STATUS p 1 (linkClear p c))
      let c2 := { c1 with xbr := { c1.xbr with laneAt := kvPut c1.xbr.laneAt p (getF c1 XBR_ALLOT_LANE 0) } }
      retest (enableSlot p (forEach (lanesOf c2 p) laneJoins c2))
    else refusePort p code c

def execPortEnable (pa : Path) (p : Port) (s : State) : Out3 :=
  .next (onChip s (reachReg pa .prt p 0x040 (enablePort p)))

/-! ### Disabling (R201, R202) -/

def disablePort (p : Nat) (c : Chip) : Chip :=
  if !portOn c p then setF PRT_STAT_CFG_STATUS p 0 c
  else
    let c1 := takeDown p true c
    let c2 := setF PRT_CFG_EN p 0 (setF PRT_STAT_CFG_STATUS p 0 (setF PRT_DEV_RESULT p 0 (linkClear p c1)))
    let c3 := { c2 with xbr := { c2.xbr with laneAt := kvErase c2.xbr.laneAt p } }
    let c4 := setPrtSt p { prtSt c3 p with hot := .idle, perstHigh := false, dev := none } c3
    retest (forEach (lanesOf c4 p) laneLeaves c4)

def execPortDisable (pa : Path) (p : Port) (s : State) : Out3 :=
  .next (onChip s (reachReg pa .prt p 0x040 (disablePort p)))

/-! ### Hot-add (R219, R220) -/

def effPerstRelease (p : Nat) (c : Chip) : Chip :=
  if deviceFacing c p && slotted c p && (prtSt c p).hot == .waitPerst && slotPg c p && tmbRuns c then
    setPerst p true (setHot p .waitLink c)
  else c

def execPerstRelease (p : Port) (s : State) : Out3 := .next (onChip s (effPerstRelease p))

def effLinkTimeout (p : Nat) (c : Chip) : Chip :=
  if deviceFace c p && (prtSt c p).hot == .waitLink && !inL0 c p && tmbRuns c then failHot p 7 c else c

def execHotaddLinkTimeout (p : Port) (s : State) : Out3 := .next (onChip s (effLinkTimeout p))

def effMemoryActive (p : Nat) (d : DeviceInfo) (c : Chip) : Chip :=
  if deviceFace c p && (prtSt c p).hot == .waitActive && inL0 c p then
    if usedTiles d < 64 then failHot p 5 c else deviceReady p d c
  else c

def execMemoryActive (p : Port) (dev : DeviceInfo) (s : State) : Out3 := .next (onChip s (effMemoryActive p dev))

def effActiveTimeout (p : Nat) (c : Chip) : Chip :=
  if deviceFace c p && (prtSt c p).hot == .waitActive && tmbRuns c then failHot p 4 c else c

def execDeviceActiveTimeout (p : Port) (s : State) : Out3 := .next (onChip s (effActiveTimeout p))

/-! ### Removal (R223) -/

/-- The attention button is pressed: its bit of the published image is 1. No event comes of a discarded frame
(02_package_pins.md R78). -/
def effButton (p : Nat) (c : Chip) : Chip :=
  if slotted c p && getF c PRT_SLOT_IN_BTN p != 1023 && chainIn c (getF c PRT_SLOT_IN_BTN p) && !chainBroken c then
    if deviceFace c p then event .prt p 2 c else slotReport p true false false c
  else c

def execAttentionButton (p : Port) (s : State) : Out3 := .next (onChip s (effButton p))

/-- A write of REMOVE_REQ = 1 on a device face asks CAR to evacuate; presence that is lost wins over it (R226). A device
that no page cares for has nothing to evacuate once no tile lies on it; until then the evacuation fails. -/
def removeReq (p : Nat) (c : Chip) : Chip :=
  if !deviceFace c p || isF c PRT_SLOT_REMOVE_REQ p || (slotted c p && !slotPresent c p) then c
  else match carePageOf c p with
    | none => if holdsMapCopy c p || !(locsOn c p).isEmpty then c else removeDevice p c
    | some d =>
      let c1 := setF PRT_SLOT_REMOVE_REQ p 1 c
      if holdsMapCopy c1 p || !evacClear c1 d then evacStart d c1 else evacDone d c1

def execRemoveReq (pa : Path) (p : Port) (s : State) : Out3 :=
  .next (onChip s (reachReg pa .prt p 0x050 (removeReq p)))

/-! ### Protocol errors and Slot Control (R212, R218) -/

def effProto (p : Nat) (nonPosted : Bool) (tag : Nat) (c : Chip) : Chip :=
  if poolFace c p && inL0 c p then
    whenB nonPosted (send (.host p tag .ur)) (count .prt p 7 (raise .prt p 0 c))
  else c

def execPrtProtoErr (p : Port) (nonPosted : Bool) (tag : Nat) (s : State) : Out3 :=
  .next (onChip s (effProto p nonPosted tag))

/-- An indicator as the host sets it: 0 off, 1 on, 2 blink; 3 sets nothing. -/
def setInd (X : Fld) (p v : Nat) (c : Chip) : Chip := if v < 3 then setF X p v c else c

def effSlotControl (p : Nat) (off : Bool) (attn ind : Nat) (c : Chip) : Chip :=
  if boundFace c p && slotted c p then
    let c1 := if getF c PRT_SLOT_PWR_REQ p = b2n !off then c else slotRequest p (!off) c
    let c1 := setPrtSt p { prtSt c1 p with removed := off } c1
    setInd PRT_SLOT_ATTN p attn (setInd PRT_SLOT_PWR_IND p ind c1)
  else c

def execSlotControlWrite (p : Port) (pwrOff : Bool) (attn pwrInd : Fin 4) (s : State) : Out3 :=
  .next (onChip s (effSlotControl p pwrOff attn pwrInd))

end Sys2Proof.Machine
end

