-- ==== Sys2Proof/Machine/Phy.lean ====
section
/-!
DEFINITION. Lanes: adaptation, clock recovery, references, power-down, loopbacks, patterns and margining (04_lanes.md R119
to R153), with their commands.
-/
namespace Sys2Proof.Machine

/-! ### Taps (R124, R126, R128) -/

def tapFlds : List Fld :=
  [PHY_LANE_DFE0_TAP_A, PHY_LANE_DFE0_TAP_B, PHY_LANE_DFE0_TAP_C, PHY_LANE_DFE0_TAP_D, PHY_LANE_DFE1_TAP_A,
   PHY_LANE_DFE1_TAP_B, PHY_LANE_DFE1_TAP_C, PHY_LANE_DFE1_TAP_D, PHY_LANE_DFE2_TAP_A, PHY_LANE_DFE2_TAP_B,
   PHY_LANE_DFE2_TAP_C, PHY_LANE_DFE2_TAP_D]

def fposFlds : List Fld := [PHY_LANE_FTAP0_POS, PHY_LANE_FTAP1_POS, PHY_LANE_FTAP2_POS]
def fvalFlds : List Fld := [PHY_LANE_FTAP0_VAL, PHY_LANE_FTAP1_VAL, PHY_LANE_FTAP2_VAL]

def resetLane (X : Fld) (l : Nat) (c : Chip) : Chip := setLane X l (rstAt X (l / 16) (l % 16)) c

/-- Every tap, floating tap and the CTLE at its reset value. -/
def resetAdapt (l : Nat) (c : Chip) : Chip :=
  forEach (tapFlds ++ fposFlds ++ fvalFlds ++ [PHY_LANE_CTLE_PEAK]) (fun X c => resetLane X l c) c

/-- The positions of three floating taps are distinct and in range. -/
def posOk (l : List Nat) : Bool := l.length == 3 && l.all (fun p => 13 ≤ p && p ≤ 76) && (l.foldl addNew []).length == 3

/-- The taps and the CTLE as initial adaptation found them (R126): at NRZ rates of 8 GT/s and below the floating taps are
off and only taps 1 to 6 are used. -/
def takeTaps (l rate : Nat) (a : LaneAdapt) (c : Chip) : Chip :=
  let c1 := setLane PHY_LANE_CTLE_PEAK l a.peak (resetAdapt l c)
  let n := if rate ≤ 2 then 6 else 12
  let c2 := forEach ((tapFlds.zip a.taps).take n) (fun x c => setLane x.1 l x.2.toNat c) c1
  if rate ≤ 2 || !posOk (a.ftaps.map (·.1.val)) then c2
  else forEach ((fposFlds.zip fvalFlds).zip a.ftaps) (fun x c =>
    setLane x.1.1 l x.2.1 (setLane x.1.2 l x.2.2.toNat c)) c2

/-- What initial adaptation leaves: the taps, but on a frozen lane (R128), the preset in use, reported as 0 to 10 or 15,
and the incoming frequency (R154). -/
def takeAdapt (l rate : Nat) (a : LaneAdapt) (c : Chip) : Chip :=
  setLane PHY_LANE_STAT_TXPRE l (if 11 ≤ a.txpre.val && a.txpre.val ≤ 14 then 15 else a.txpre.val)
    (setLane PHY_LANE_CDR_PPM l a.ppm.toNat
      (if getLane c PHY_LANE_CTRL_FREEZE l = 0 then takeTaps l rate a c else c))

/-- What an adaptation that no command reports finds: the parts of one free value. -/
def drawnAdapt (v : Nat) : LaneAdapt :=
  { taps := (List.range 12).map fun k => BitVec.ofNat 8 (v / 256 ^ k)
    ftaps := (List.range 3).map fun k => (⟨v / 2 ^ (96 + 16 * k) % 128, Nat.mod_lt _ (by decide)⟩, BitVec.ofNat 8 (v / 2 ^ (104 + 16 * k)))
    peak := ⟨v / 2 ^ 144 % 32, Nat.mod_lt _ (by decide)⟩, txpre := ⟨v / 2 ^ 149 % 16, Nat.mod_lt _ (by decide)⟩
    ppm := BitVec.ofNat 16 (v / 2 ^ 153) }

/-- A signed code of w bits moved by one step, within its range. -/
def stepCode (w v : Nat) (up : Bool) : Nat :=
  let x := toInt w v
  if up then (if x < 2 ^ (w - 1) - 1 then ofInt w (x + 1) else v)
  else (if -(2 ^ (w - 1) : Int) < x then ofInt w (x - 1) else v)

/-- The lane is in tracking: its link is in L0, L0p does not idle it, and it is not frozen (R126 to R128). -/
def tracking (c : Chip) (l : Nat) : Bool := getLane c PHY_LANE_STAT_ADAPT l == 2

/-- Tracking moves the CTLE (0), a fixed tap (1 to 12) or a floating tap (13 to 15) by one code (R126). -/
def effTracking (l tap : Nat) (up : Bool) (c : Chip) : Chip :=
  if tracking c l then
    if tap = 0 then
      let v := getLane c PHY_LANE_CTLE_PEAK l
      setLane PHY_LANE_CTLE_PEAK l (if up then min 31 (v + 1) else v - 1) c
    else if getLane c PHY_LANE_STAT_RATE l ≤ 2 ∧ 6 < tap then c
    else match (tapFlds ++ fvalFlds)[tap - 1]? with
      | some X => setLane X l (stepCode 8 (getLane c X l) up) c
      | none => c
  else c

def execTrackingUpdate (l : Lane) (tap : Fin 16) (up : Bool) (s : State) : Out3 :=
  .next (onChip s (effTracking l tap up))

/-- A floating tap's position, if no other floating tap holds it (R126, R154). -/
def movePos (l i pos : Nat) (c : Chip) : Chip :=
  match fposFlds[i]? with
  | some X =>
    if 13 ≤ pos && pos ≤ 76 && (fposFlds.filter (· != X)).all (fun Y => getLane c Y l != pos) then setLane X l pos c
    else c
  | none => c

def effReeval (l i pos : Nat) (c : Chip) : Chip :=
  if tracking c l && 2 < getLane c PHY_LANE_STAT_RATE l then movePos l i pos c else c

def execFloatingTapReeval (l : Lane) (i : Fin 3) (pos : Fin 128) (s : State) : Out3 :=
  .next (onChip s (effReeval l i pos))

/-- The CTLE or a fixed tap stands at the end of its range (R130). -/
def saturated (c : Chip) (l : Nat) : Bool :=
  getLane c PHY_LANE_CTLE_PEAK l == 0 || getLane c PHY_LANE_CTLE_PEAK l == 31 ||
    tapFlds.any fun X => getLane c X l == 127 || getLane c X l == 128

def effSat (l : Nat) (c : Chip) : Chip :=
  if tracking c l && saturated c l then raise .phyG (laneGroup l) 1 (count .phyG (laneGroup l) 3 c) else c

def execPhyAdaptSat (l : Lane) (s : State) : Out3 := .next (onChip s (effSat l))

/-- FREEZE holds or resumes adaptation, in either phase (R128). -/
def freezeLane (l : Nat) (on : Bool) (c : Chip) : Chip := adaptNow l (setLane PHY_LANE_CTRL_FREEZE l (b2n on) c)

def execLaneFreeze (pa : Path) (l : Lane) (on : Bool) (s : State) : Out3 :=
  .next (onChip s (reachReg pa .phyG (laneGroup l) (laneOff l 0) (freezeLane l on)))

/-- PD takes effect while the lane belongs to no enabled port, and is held on one that does (R140). -/
def powerLane (l : Nat) (on : Bool) (c : Chip) : Chip :=
  let c1 := setLane PHY_LANE_CTRL_PD l (b2n on) c
  if (portOfLane c1 l).isSome then c1 else takePower l c1

def execLanePowerDown (pa : Path) (l : Lane) (on : Bool) (s : State) : Out3 :=
  .next (onChip s (reachReg pa .phyG (laneGroup l) (laneOff l 0) (powerLane l on)))

/-! ### Clock recovery and references (R133 to R135, R68) -/

/-- A lane loses lock; the link of the enabled port that holds it leaves L0 (05_links.md R170, R172). -/
def effCdrLoss (l : Nat) (c : Chip) : Chip :=
  if (laneSt c l).trained && getLane c PHY_LANE_STAT_CDR_LOCK l == 1 then
    let c1 := raise .phyG (laneGroup l) 0 (count .phyG (laneGroup l) 2
      (setLane PHY_LANE_STAT_CDR_LOST l 1 (setLane PHY_LANE_STAT_CDR_LOCK l 0 c)))
    match portOfLane c1 l with
    | some p => whenB (inL0 c1 p) (enterRecovery p) c1
    | none => c1
  else c

def execPhyCdrLoss (l : Lane) (s : State) : Out3 := .next (onChip s (effCdrLoss l))

/-- The lane's loop locks again: on a lane of a link, with its clock and its lands (R133; 02_package_pins.md R88). -/
def effCdrRelock (l : Nat) (c : Chip) : Chip :=
  if (laneSt c l).trained && tileOk c (tileOfLane l) && !c.tap.controlling then setLane PHY_LANE_STAT_CDR_LOCK l 1 c
  else c

def execCdrRelock (l : Lane) (s : State) : Out3 := .next (onChip s (effCdrRelock l))

/-- Enabled ports whose lanes lie on a tile. -/
def tilePorts (c : Chip) (k : Nat) : List Nat := (enabledPorts c).filter fun p => tileOfLane p == k

/-- Every lane of the tile is out of training: its links leave L0, and what they trained is void. -/
def tileOut (k : Nat) (c : Chip) : Chip :=
  forEach (tilePorts c k) (fun p c =>
    let c1 := forEach (lanesOf c p) (fun l c => setLane PHY_LANE_STAT_CDR_LOCK l 0 c) c
    if inL0 c1 p then enterRecovery p c1
    else if linkState c1 p = 4 then c1
    else setLnkSt p { lnkSt c1 p with info := none } (forEach (lanesOf c1 p) idleLane c1)) c

def setPllLost (k : Nat) (on : Bool) (c : Chip) : Chip :=
  { c with phy := { c.phy with pllLost :=
      if on then c.phy.pllLost ||| (1#8 <<< k) else c.phy.pllLost &&& ~~~(1#8 <<< k) } }

/-- A started tile finds its selected reference absent (02_package_pins.md R68): PHY_REFCLK_LOSS. -/
def reportRef (k : Nat) (c : Chip) : Chip :=
  if pageStarted c .phyT k && refGone c k then tileOut k (raise .phyT k 0 c) else c

/-- The input REFCLKk is absent: every tile that takes its reference from it loses it. -/
def effRefLoss (k : Nat) (c : Chip) : Chip :=
  if c.phy.absent.getLsbD k then c
  else
    let c1 := { c with phy := { c.phy with absent := c.phy.absent ||| (1#8 <<< k) } }
    forEach ((List.range 8).filter fun j => refOf c1 j == k) reportRef c1

def execPhyRefclkLoss (k : SerTile) (s : State) : Out3 := .next (onChip s (effRefLoss k))

/-- The input REFCLKk is back; TMB resumes with REFCLK0 (22_register_map.md R609). -/
def effRefReturn (k : Nat) (c : Chip) : Chip :=
  let c1 := { c with phy := { c.phy with absent := c.phy.absent &&& ~~~(1#8 <<< k) } }
  if k = 0 ∧ c1.tmb.started && c1.tmb.stalled then event .tmb 0 0 { c1 with tmb := { c1.tmb with stalled := false } }
  else c1

def execPhyRefclkReturn (k : SerTile) (s : State) : Out3 := .next (onChip s (effRefReturn k))

/-- A PLL that loses lock with its reference present (R154). -/
def effPllUnlock (k : Nat) (c : Chip) : Chip :=
  if pageStarted c .phyT k && tileOk c k then tileOut k (raise .phyT k 1 (setPllLost k true c)) else c

def execPhyPllUnlock (k : SerTile) (s : State) : Out3 := .next (onChip s (effPllUnlock k))

def effPllRelock (k : Nat) (c : Chip) : Chip := if refGone c k then c else setPllLost k false c

def execPhyPllRelock (k : SerTile) (s : State) : Out3 := .next (onChip s (effPllRelock k))

/-- The reference's offset from REFCLK0 is measured, except on ST0 and where REFCLK0 itself is used (R135). -/
def effRefPpm (k ppm : Nat) (c : Chip) : Chip :=
  if k = 0 ∨ isF c PHY_ST_CTRL_REFSEL k = true ∨ pageStarted c .phyT k = false then c
  else
    let c1 := setF PHY_ST_STAT_REF_PPM k ppm c
    whenB (decide (300 < (toInt 16 ppm).natAbs)) (raise .phyT k 2) c1

def execPhyRefPpm (k : SerTile) (ppm : BitVec 16) (s : State) : Out3 := .next (onChip s (effRefPpm k ppm.toNat))

/-- A change of REFSEL takes the links of the tile's enabled ports down (R134); it is ignored on ST0. A selected input
that is absent is reported at once. That the PLL locks on the new reference at once is a DESIGN CHOICE (log entry 96):
the spec gives no time for it. REF_PPM of a tile on REFCLK0 reads 0. -/
def selectRef (k : Nat) (sel : Bool) (c : Chip) : Chip :=
  if k = 0 ∨ isF c PHY_ST_CTRL_REFSEL k = sel then c
  else
    let c1 := whenB sel (setF PHY_ST_STAT_REF_PPM k 0) (setPllLost k false (setF PHY_ST_CTRL_REFSEL k (b2n sel) c))
    reportRef k (forEach (tilePorts c1 k) (fun p c => takeDown p false c) c1)

def execRefselWrite (pa : Path) (k : SerTile) (sel : Bool) (s : State) : Out3 :=
  .next (onChip s (reachReg pa .phyT k 0x040 (selectRef k sel)))

/-! ### Loopbacks (R141 to R146) -/

def setLb (l : Nat) (p : LbPhase) (c : Chip) : Chip := setLaneSt l { laneSt c l with lb := p } c

/-- The loop is closed: NES and FE have run initial adaptation and locked, and the generator and checker run (step 4 of
R143). -/
def closeLoop (l : Nat) (a : Option LaneAdapt) (c : Chip) : Chip :=
  let c1 := match a with
    | some a => setLane PHY_LANE_STAT_CDR_LOCK l 1 (takeAdapt l (getLane c PHY_LANE_STAT_RATE l) a c)
    | none => c
  takePatterns l (setLb l .closed (setLane PHY_LANE_STAT_LBACT l 1 c1))

/-- A lane as steps 1 of R143 and R144 leave it: not trained, adaptation reset, no lock and no precoding, its
transmitter in electrical idle. That the taps of a frozen lane are reset too is a DESIGN CHOICE (log entry 113): R128
holds them, R143 and R144 reset them, and neither names the other. -/
def bareLane (l : Nat) (c : Chip) : Chip :=
  let c1 := setLane PHY_LANE_STAT_PRE_TX l 0 (setLane PHY_LANE_STAT_PRE_RX l 0 (setLane PHY_LANE_STAT_LBACT l 0
    (setLane PHY_LANE_STAT_CDR_LOCK l 0 (setLane PHY_LANE_STAT_SIGDET l 0 (adaptAs l 0 (resetAdapt l c))))))
  takePatterns l (setLaneSt l { laneSt c1 l with lb := .none, trained := false, idled := false } c1)

/-- A non-zero LB takes the lane from its port and closes the chosen loopback, at LBRATE or the cap of its lane group
where that is lower (R120); far-end waits for signal (R143, R145), and a lane that is powered down closes none (R140). -/
def enterLoop (l lb : Nat) (a : LaneAdapt) (c : Chip) : Chip :=
  if lb = 0 ∨ 3 < lb then c
  else
    let c1 := setLane PHY_LANE_CTRL_LB l lb c
    let c2 := match portOfLane c1 l with
      | some p => takeDown p false c1
      | none => c1
    let rate := min (getLane c2 PHY_LANE_CTRL_LBRATE l) (getF c2 PHY_LG_CTRL_RATECAP (laneGroup l))
    let c3 := setLane PHY_LANE_STAT_RATE l rate (bareLane l c2)
    if !lanePowered c3 l then setLb l .off c3
    else if lb = 3 then setLb l .waitSignal c3
    else closeLoop l (if lb = 1 then some a else none) c3

def execLoopbackEnter (pa : Path) (l : Lane) (lb : Fin 8) (adapt : LaneAdapt) (s : State) : Out3 :=
  .next (onChip s (reachReg pa .phyG (laneGroup l) (laneOff l 0) (enterLoop l lb adapt)))

/-- Signal is detected on a far-end lane that waits for it: the loop closes, and the transmitter retransmits. -/
def effFeSignal (l : Nat) (a : LaneAdapt) (c : Chip) : Chip :=
  if (laneSt c l).lb = .waitSignal ∧ lanePowered c l = true ∧ c.tap.controlling = false then
    closeLoop l (some a) (setLane PHY_LANE_STAT_SIGDET l 1 c)
  else c

def execLoopbackFeSignal (l : Lane) (adapt : LaneAdapt) (s : State) : Out3 := .next (onChip s (effFeSignal l adapt))

/-- LB = 0 ends the loopback: the transmitter is idle, adaptation reset, and the lane returns to its port, which may train
on it (R144). -/
def exitLoop (l : Nat) (c : Chip) : Chip :=
  if getLane c PHY_LANE_CTRL_LB l = 0 then c else bareLane l (setLane PHY_LANE_CTRL_LB l 0 c)

def execLoopbackExit (pa : Path) (l : Lane) (s : State) : Out3 :=
  .next (onChip s (reachReg pa .phyG (laneGroup l) (laneOff l 0) (exitLoop l)))

/-- Lanes of a port that no loopback set by register holds. -/
def freeLanes (c : Chip) (p : Nat) : List Nat := (lanesOf c p).filter fun l => getLane c PHY_LANE_CTRL_LB l == 0

/-- The port is in loopback as PCIe follower. -/
def following (c : Chip) (p : Nat) : Bool := (lanesOf c p).any fun l => (laneSt c l).lb == .follower

/-- The partner asks for PCIe loopback from Configuration or Recovery, or ends it (R142). A link that was up goes down
(05_links.md R168), and the follower trains again from Detect. -/
def effFollower (p : Nat) (enter : Bool) (c : Chip) : Chip :=
  if enter then
    if portOn c p && !trunk c p && !c.tap.controlling && (linkState c p ≤ 1 || linkState c p == 4) &&
        isF c PHY_LG_CTRL_FOLLOW (laneGroup p) then
      let c1 := takeDown p false c
      forEach (freeLanes c1 p) (fun l c => setLb l .follower (setLane PHY_LANE_STAT_LBACT l 1 c))
        (setLnkSt p { lnkSt c1 p with info := none } (setF LNK_STAT_STATE p 1 c1))
    else c
  else if following c p then setF LNK_STAT_STATE p 0 (lanesIdle p c)
  else c

def execLoopbackFollower (p : Port) (enter : Bool) (s : State) : Out3 := .next (onChip s (effFollower p enter))

/-! ### Patterns (R147 to R150) -/

def genEnable (l : Nat) (on : Bool) (c : Chip) : Chip := takePatterns l (setLane PHY_LANE_PAT_GEN_EN l (b2n on) c)

def execGeneratorEnable (pa : Path) (l : Lane) (on : Bool) (s : State) : Out3 :=
  .next (onChip s (reachReg pa .phyG (laneGroup l) (laneOff l 0x28) (genEnable l on)))

/-- Both counts at 0. -/
def clearBits (l : Nat) (c : Chip) : Chip :=
  setLaneSt l { laneSt c l with compared := 0 } (setLane PHY_LANE_BERR_ERRORS l 0 (setLane PHY_LANE_BCNT_BITS l 0 c))

/-- CHK_EN from 0 to 1 clears the counts (R150). -/
def chkEnable (l : Nat) (on : Bool) (c : Chip) : Chip :=
  takePatterns l (setLane PHY_LANE_PAT_CHK_EN l (b2n on)
    (whenB (on && getLane c PHY_LANE_PAT_CHK_EN l == 0) (clearBits l) c))

def execCheckerEnable (pa : Path) (l : Lane) (on : Bool) (s : State) : Out3 :=
  .next (onChip s (reachReg pa .phyG (laneGroup l) (laneOff l 0x28) (chkEnable l on)))

/-- What the lane's checker receives reaches it: its own transmitter's data in a near-end loopback, else what the lands
bring (R141; 02_package_pins.md R88). -/
def checkerHears (c : Chip) (l : Nat) : Bool :=
  !c.tap.controlling || getLane c PHY_LANE_CTRL_LB l == 1 || getLane c PHY_LANE_CTRL_LB l == 2

/-- 128 bits were free of error (R150). -/
def effChkLock (l : Nat) (c : Chip) : Chip :=
  if (laneSt c l).chkOn && patternLocks c l && lanePowered c l && checkerHears c l then
    setLane PHY_LANE_STAT_CHK_LOCK l 1 c
  else c

def execCheckerLock (l : Lane) (s : State) : Out3 := .next (onChip s (effChkLock l))

/-- The locked checker counts bits compared and bits in error. -/
def countBits (l bits errors : Nat) (c : Chip) : Chip :=
  let n := (laneSt c l).compared + bits
  setLane PHY_LANE_BERR_ERRORS l (satAdd 32 (getLane c PHY_LANE_BERR_ERRORS l) errors)
    (setLane PHY_LANE_BCNT_BITS l (satAdd 32 (getLane c PHY_LANE_BCNT_BITS l) (n / 2 ^ 20))
      (setLaneSt l { laneSt c l with compared := n % 2 ^ 20 } c))

/-- The locked checker has compared `clean` bits without error and then 4,096 bits with some in error: it counts them,
and with 1,024 or more it loses lock (R150). -/
def effChkLoss (l clean errors : Nat) (c : Chip) : Chip :=
  if getLane c PHY_LANE_STAT_CHK_LOCK l = 1 then
    let c1 := countBits l (clean + 4096) errors c
    if 1024 ≤ errors then
      raise .phyG (laneGroup l) 2 (count .phyG (laneGroup l) 4 (setLane PHY_LANE_STAT_CHK_LOCK l 0 c1))
    else c1
  else c

def execPhyChkLoss (l : Lane) (clean : Nat) (errors : Fin 4097) (s : State) : Out3 :=
  .next (onChip s (effChkLoss l clean errors))

/-! ### Margining (R151 to R153) -/

def setSampler (l : Nat) (m : Option MarginRun) (c : Chip) : Chip := setLaneSt l { laneSt c l with margin := m } c

/-- The eye that a measurement compares: EYE is ignored at NRZ rates. -/
def eyeAt (c : Chip) (l eye : Nat) : Option Nat := if isPam4 (getLane c PHY_LANE_STAT_RATE l) then some eye else none

/-- The measurement that PHY_LANE_MARGIN asks for. -/
def registerMargin (c : Chip) (l : Nat) : MarginRun :=
  { pcie := false, eye := eyeAt c l (getLane c PHY_LANE_MARGIN_EYE l), dwell := getLane c PHY_LANE_MARGIN_DWELL l
    toff := toInt 8 (getLane c PHY_LANE_MARGIN_TOFF l), voff := toInt 8 (getLane c PHY_LANE_MARGIN_VOFF l) }

/-- Bits that a measurement compares (R151). -/
def marginBits (m : MarginRun) : Nat := 2 ^ (20 + m.dwell)

/-- GO starts a measurement, or is refused while one runs. -/
def marginStart (l : Nat) (c : Chip) : Chip :=
  if (laneSt c l).margin.isSome then count .phyG (laneGroup l) 6 (setLane PHY_LANE_MRES_REFUSED l 1 c)
  else
    let c1 := setLane PHY_LANE_MARGIN_GO l 1 (setLane PHY_LANE_MRES_DONE l 0 (setLane PHY_LANE_MRES_REFUSED l 0 c))
    count .phyG (laneGroup l) 5 (setSampler l (some (registerMargin c1 l)) c1)

def execMarginGo (pa : Path) (l : Lane) (s : State) : Out3 :=
  .next (onChip s (reachReg pa .phyG (laneGroup l) (laneOff l 0x3C) (marginStart l)))

/-- The running measurement ends with so many disagreeing bits: a register's leaves its result, a PCIe command's goes to
the partner. -/
def effMarginDone (l errs : Nat) (c : Chip) : Chip :=
  match (laneSt c l).margin with
  | none => c
  | some m =>
    let c1 := setSampler l none c
    if m.pcie then send (.marginResult l errs) c1
    else setLane PHY_LANE_MARGIN_GO l 0 (setLane PHY_LANE_MRES_DONE l 1
      (setLane PHY_LANE_MRES_ERRORS l (min (min errs (marginBits m)) (2 ^ 30 - 1)) c1))

def execMarginDone (l : Lane) (errs : Nat) (s : State) : Out3 := .next (onChip s (effMarginDone l errs))

/-- The measurement that a PCIe command asks for: 32 timing steps to 0.5 UI, or 64 voltage steps to 160 mV, on each side
(R152). The spec gives it no dwell; it uses the register's reset value. -/
def pcieMargin (c : Chip) (l : Nat) (off : MarginStep) (eye : Nat) : MarginRun :=
  let x : Int × Int := match off with
    | .timing late n => (if late then n.val else -(n.val : Int), 0)
    | .voltage up n => (0, if up then n.val else -(n.val : Int))
  { pcie := true, eye := eyeAt c l eye, dwell := 0, toff := x.1, voff := x.2 }

/-- A PCIe margining command for a lane of a host-facing or device-facing port. That GO stays 0 and DONE stays as it is for
its measurement is a DESIGN CHOICE (log entry 114): R154 names the measurement of GO alone. -/
def effPcieMargin (l : Nat) (off : MarginStep) (eye : Nat) (c : Chip) : Chip :=
  match portOfLane c l with
  | some p =>
    if trunk c p || !inL0 c p then c
    else if (laneSt c l).margin.isSome then send (.margin l true) (count .phyG (laneGroup l) 6 c)
    else send (.margin l false) (count .phyG (laneGroup l) 5 (setSampler l (some (pcieMargin c l off eye)) c))
  | none => c

def execPcieMarginCommand (l : Lane) (off : MarginStep) (eye : Fin 3) (s : State) : Out3 :=
  .next (onChip s (effPcieMargin l off eye))

end Sys2Proof.Machine
end

