-- ==== Sys2Proof/Machine/Lnk.lean ====
section
/-!
DEFINITION. The commands of links: training, flits, acknowledgement and replay, credits, Recovery and link-down, trunk
pairs, width changes and the marks channel (05_links.md R155 to R197; 06_ports.md R630).
-/
namespace Sys2Proof.Machine

/-! ### Training (R630, R155, R175, R177; 04_lanes.md R119 to R139; 06_ports.md R213 to R215) -/

/-- The part sends X128: RATECAP is 6, and X128_EN is 1 but on a trunk (R213). -/
def sendsX128 (c : Chip) (p : Nat) : Bool :=
  getF c PHY_LG_CTRL_RATECAP (laneGroup p) == 6 && (trunk c p || isF c PRT_CFG_X128_EN p)

/-- Both ends advertise 128 GT/s: over CXL where both sent X128; over PCIe without an alternate protocol, on a bridge or
pass-through face, where both reach it (R214). -/
def offers128 (c : Chip) (p : Nat) (i : TrainInfo) : Bool :=
  i.rate == 6 && i.flit && getF c PHY_LG_CTRL_RATECAP (laneGroup p) == 6 &&
    (if i.altProto then sendsX128 c p && i.x128P else pers c p == 1 || pers c p == 3)

/-- The rate at which training settles, from the rate the partner reaches (R120, R155, R211, R214, R215). -/
def settledRate (c : Chip) (p : Nat) (i : TrainInfo) : Nat :=
  let cap := min i.rate.val (getF c PHY_LG_CTRL_RATECAP (laneGroup p))
  if offers128 c p i && !i.eqFail128 then 6 else min cap (if i.flit then 5 else 4)

/-- Both ends advertised 128 GT/s and equalization failed there (R215). -/
def fellBack (c : Chip) (p : Nat) (i : TrainInfo) : Bool := offers128 c p i && i.eqFail128

/-- The port corrects a reversal itself (R138): on a trunk the end with the higher fabric switch ID does. -/
def reverses (c : Chip) (p : Nat) (i : TrainInfo) : Bool :=
  i.reversed && 2 ≤ portWidth c p && !(trunk c p && getF c BND_FSID_FSID 0 < i.peerId.val)

/-- Lanes used at width w: the lowest, or the highest of a reversed port. -/
def usedLanes (c : Chip) (p w : Nat) (rev : Bool) : List Nat :=
  (List.range w).map fun k => if rev then p + portWidth c p - w + k else p + k

def trainable (c : Chip) (p : Nat) (i : TrainInfo) : Bool :=
  [1, 2, 4, 8, 16].contains i.width.val && i.width.val ≤ portWidth c p &&
    (usedLanes c p i.width.val (reverses c p i)).all (laneUsable c)

/-- The precoding request of a lane, from the tap 1 that it holds (R124). -/
def wantsPrecode (c : Chip) (p l : Nat) : Bool :=
  match getF c PHY_LG_CTRL_PRECODE (laneGroup p) with
  | 0 => decide (64 < (toInt 8 (getLane c PHY_LANE_DFE0_TAP_A l)).natAbs)
  | 1 => true
  | _ => false

/-- Detected or forced polarity (R136). -/
def polarity (c : Chip) (l : Nat) (inverted : Bool) : Bool :=
  match getLane c PHY_LANE_CTRL_POL l with
  | 1 => false | 2 => true | _ => inverted

def emptyAdapt : LaneAdapt := { taps := [], ftaps := [], peak := 0, txpre := 0, ppm := 0 }

/-- One lane after training at a rate. -/
def trainLane (p rate : Nat) (rev : Bool) (i : TrainInfo) (l : Nat) (c : Chip) : Chip :=
  let k := l - p
  let a := (i.lanes[k]?).getD emptyAdapt
  let pam := decide (5 ≤ rate)
  let c2 := setLane PHY_LANE_STAT_RATE l rate (setLane PHY_LANE_STAT_SIGDET l 1 (setLane PHY_LANE_STAT_CDR_LOCK l 1
    (adaptAs l 1 (takeAdapt l rate a c))))
  let c3 := setLane PHY_LANE_STAT_POL_INV l (b2n (polarity c2 l (i.inverted.getLsbD k)))
    (setLane PHY_LANE_STAT_PRE_TX l (b2n (pam && i.partnerPrecode.getLsbD k))
      (setLane PHY_LANE_STAT_PRE_RX l (b2n (pam && wantsPrecode c2 p l)) c2))
  setLaneSt l { laneSt c3 l with trained := true }
    (setLane PHY_LANE_STAT_REV l (b2n rev) (setLane PHY_LANE_STAT_LOGICAL l (if rev then portWidth c3 p - 1 - k else k) c3))

/-- Why a trunk may not enter L0: 3 LNK_TRUNK_DOWN, 6 LNK_TRUNK_ID_CLASH, 0 nothing (R155, R175, R177; 08_binding.md
R278). That a trunk which settles below 64 GT/s reports LNK_TRUNK_DOWN alone, whatever else bars it, is a DESIGN CHOICE
(log entry 116): each rule names its own report, and none orders them. -/
def trunkBar (c : Chip) (p rate : Nat) (i : TrainInfo) : Nat :=
  let fsid := getF c BND_FSID_FSID 0
  if !trunk c p then 0
  else if rate < 5 || !i.flit then 3
  else if fsid == 0 || fsid == i.peerId.val || !pairedOk c p then 6
  else 0

/-- An enabled port trains from Detect, in the clocking mode of its lowest lane (04_lanes.md R131). -/
def train (p : Nat) (i : TrainInfo) (c : Chip) : Chip :=
  let role := if trunk c p then some (isF c LNK_TRUNK_PRIMARY p, getF c LNK_TRUNK_PARTNER p) else none
  let c0 := send (.modifiedTs p (sendsX128 c p)) (setPrtSt p { prtSt c p with clk := getLane c PHY_LANE_CTRL_CLKMODE p } c)
  let c1 := lanesIdle p (setLnkSt p { lnkSt c0 p with info := none, role := role }
    (if linkState c0 p = 5 then c0 else setF LNK_STAT_STATE p 1 c0))
  if !trainable c1 p i then c1
  else
    let rate := settledRate c1 p i
    let rev := reverses c1 p i
    let c2 := setF PRT_STAT_X128_P p (b2n (i.altProto && i.x128P)) c1
    let c3 := whenB (fellBack c2 p i) (fun c => count .prt p 6 (raise .prt p 3 c)) c2
    let c4 := forEach (usedLanes c3 p i.width.val rev) (trainLane p rate rev i) c3
    match trunkBar c4 p rate i with
    | 0 => setLnkSt p { lnkSt c4 p with info := some { i with rate := ⟨rate % 7, Nat.mod_lt _ (by decide)⟩ } } c4
    | b => raise .lnk p b c4

def effTrain (p : Nat) (i : TrainInfo) (c : Chip) : Chip :=
  let s := linkState c p
  if portOn c p && (s == 0 || s == 1 || s == 5 || s == 6) && mayTrain c p && !c.tap.controlling && !following c p then
    train p i c
  else c

def execLinkTrain (p : Port) (info : TrainInfo) (s : State) : Out3 := .next (onChip s (effTrain p info))

/-! ### Entry to L0 -/

/-- Packets and waiting writes that came over a link before it starts again are owed no credits of the new start
(R165). -/
def setRepaid (p : Nat) (c : Chip) : Chip :=
  let c1 := setPkts (c.xbr.pkts.map fun k => if k.ingress = p then { k with repaid := true } else k) c
  { c1 with txns := c1.txns.map fun t => if t.port = p then { t with owes := false } else t }

/-- Credits of a link that enters L0: what the partner advertises to send with, and ADV in force (R163 to R167). -/
def startCredits (p : Nat) (i : TrainInfo) (c : Chip) : Chip :=
  let c1 := forEach (List.range 5) (fun k c => setAvail p k ((i.credits[k]?).getD 0).val c) c
  setRepaid p (setLnkSt p { lnkSt c1 p with
    used := [0, 0, 0, 0, 0], freed := [0, 0, 0, 0, 0], told := [0, 0, 0, 0, 0], lastRet := [0, 0, 0, 0, 0]
    inForce := (List.range 5).map (credAdv c1 p), credRestart := false } c1)

/-- A flit of the bucket is unacknowledged on member m, or waits there to be resent (R184). -/
def bucketHeld (c : Chip) (m b : Nat) : Bool :=
  ((lnkSt c m).unacked ++ (lnkSt c m).resend).any fun f => f.bucket == b

/-- Buckets assigned to p that its partner carries. -/
def owedBuckets (c : Chip) (p : Nat) : List Nat :=
  allBuckets.filter fun b => assignedTo c (primaryOf c p) b == p && carrierOf c (primaryOf c p) b != p

/-- A trunk member is in L0 (R182, R184): alone it carries every bucket; after a failure the failback hold runs; else
the buckets assigned to it come to it as none of their flits is unacknowledged. -/
def memberBack (p : Nat) (c : Chip) : Chip :=
  let q := partnerOf c p
  let failed := (lnkSt c p).declaredDown
  let c1 := setLnkSt p { lnkSt c p with declaredDown := false } c
  if !memberUp c1 q then carryAlone p c1
  else if failed then setLnkSt p { lnkSt c1 p with holdRuns := true } c1
  else
    let c2 := retest (forEach ((owedBuckets c1 p).filter fun b => !bucketHeld c1 q b) (bucketGo p) c1)
    if (owedBuckets c2 p).isEmpty then setF LNK_TSTAT_CARRYING q 0 c2
    else setLnkSt p { lnkSt c2 p with failback := true } c2

/-- The lanes that have trained, all in use: tracking begins or resumes (04_lanes.md R126, R127). -/
def trainedLanes (c : Chip) (p : Nat) : List Nat := (lanesOf c p).filter fun l => (laneSt c l).trained
def trackLanes (p : Nat) (c : Chip) : Chip :=
  forEach (trainedLanes c p) (fun l c => adaptNow l (setLaneSt l { laneSt c l with idled := false } c)) c

/-! ### Width (R188 to R191; 04_lanes.md R127) -/

/-- The width that a request of page r gives a link: REQ, at most the trained width; below that width the link is in
L0P, and the lanes beyond it are idled, with their adaptation kept. -/
def trainedWidth (c : Chip) (p : Nat) : Nat := getF c PRT_STAT_TWIDTH p
def setWidth (p w : Nat) (c : Chip) : Chip :=
  let v := min w (trainedWidth c p)
  forEach (trainedLanes c p)
    (fun l c => adaptNow l (setLaneSt l { laneSt c l with idled := decide (v ≤ getLane c PHY_LANE_STAT_LOGICAL l) } c))
    (setF LNK_STAT_WIDTH p v (setF LNK_STAT_STATE p (if v < trainedWidth c p then 3 else 2) c))

def atWidth (c : Chip) (p w : Nat) : Bool := getF c LNK_STAT_WIDTH p == min w (trainedWidth c p)

/-- A trunk pair keeps both members at the same width: where one comes to L0 beside the other, the lesser (R191). -/
def evenPair (p : Nat) (c : Chip) : Chip :=
  let q := partnerOf c p
  if trunk c p && trunk c q && inL0 c p && inL0 c q then
    let w := min (getF c LNK_STAT_WIDTH p) (getF c LNK_STAT_WIDTH q)
    setWidth p w (setWidth q w c)
  else c

/-- The link's lanes are ready for L0: their port may train, and each lane that trained is usable with its clock
(R630; 02_package_pins.md R68, R88). -/
def readyForL0 (c : Chip) (p : Nat) : Bool :=
  portOn c p && mayTrain c p && !c.tap.controlling && (trainedLanes c p).all (laneUsable c)

/-- A link enters L0 from training. -/
def enterL0 (p : Nat) (i : TrainInfo) (dev : DeviceInfo) (c : Chip) : Chip :=
  let c1 := setF LNK_STAT_STATE p 2 (setF LNK_STAT_RATE p i.rate.val (setF LNK_STAT_WIDTH p i.width.val
    (setF LNK_STAT_FLIT p (b2n i.flit) (setF LNK_STAT_SELNAK_P p (b2n i.selnakP) (setF PRT_STAT_TWIDTH p i.width.val c)))))
  let c2 := setF LNK_SEQ_NEXT_TX p 1 (setF LNK_SEQ_ACKD p 0 (setF LNK_SEQ_LAST_RX p 0 c1))
  let c3 := send (.presents p (faceShown c2 p)) <| trackLanes p (startCredits p i (setReplays p 0 (setLnkSt p
    { lnkSt c2 p with unacked := [], sinceAck := 0, lastReplayAck := none, sinceMarks := 0 } c2)))
  if trunk c3 p then pump p (evenPair p (memberBack p (setF LNK_TSTAT_PEER_ID p i.peerId.val c3)))
  else if deviceFace c3 p then
    let h := (prtSt c3 p).hot
    if h == .waitLink || (h == .failed && getF c3 PRT_DEV_RESULT p == 7) then deviceArrives p dev c3 else c3
  else if passFace c3 p then
    whenB (slotted c3 p) (slotReport p false false true) (setPrtSt p { prtSt c3 p with dev := some dev } c3)
  else c3

/-- A link returns to L0 from Recovery; a trunk whose partner is down carries every bucket (R182). -/
def returnL0 (p : Nat) (i : TrainInfo) (c : Chip) : Chip :=
  let c1 := trackLanes p (setF LNK_STAT_STATE p 2 (setF LNK_STAT_WIDTH p i.width.val (setF PRT_STAT_TWIDTH p i.width.val c)))
  let c2 := whenB (lnkSt c1 p).credRestart (startCredits p i) c1
  if trunk c2 p then pump p (evenPair p (if memberUp c2 (partnerOf c2 p) then c2 else carryAlone p c2))
  else if deviceFace c2 p then reachChanged c2 else c2

def effL0 (p : Nat) (dev : DeviceInfo) (c : Chip) : Chip :=
  match (lnkSt c p).info with
  | none => c
  | some i =>
    if !readyForL0 c p then c
    else if linkState c p = 1 ∨ linkState c p = 5 then enterL0 p i dev c
    else if linkState c p = 4 then returnL0 p i c
    else c

def execLinkL0 (p : Port) (dev : DeviceInfo) (s : State) : Out3 := .next (onChip s (effL0 p dev))

/-! ### Receiving flits (R157 to R159, R162 to R166) -/

def selectiveNak (c : Chip) (p : Nat) : Bool := isF c LNK_CTRL_SELNAK p && isF c LNK_STAT_SELNAK_P p
def expectedSeq (c : Chip) (p : Nat) : Nat := (getF c LNK_SEQ_LAST_RX p + 1) % 1024
def askReplay (p : Nat) (c : Chip) : Chip := send (.nak p (expectedSeq c p) (selectiveNak c p)) c

/-- A cumulative credit return is taken (R165). That it leaves AVAIL at 4,095 where the field can hold no more is a DESIGN
CHOICE (log entry 100): R165 does not say. -/
def takeReturn (p k v : Nat) (c : Chip) : Chip :=
  let x := lnkSt c p
  let d := (v + 4096 - nth x.lastRet k % 4096) % 4096
  setAvail p k (min 4095 (avail c p k + d)) (setLnkSt p { x with lastRet := mapAt x.lastRet k (fun _ => v) } c)

/-- The credit return fields of a flit, one for each class; what waited for credits goes. -/
def takeReturns (p : Nat) (rs : List (Fin 4096)) (c : Chip) : Chip :=
  pump p (forEach (List.range 5) (fun k c => match rs[k]? with
    | some v => takeReturn p k v.val c
    | none => c) c)

/-- The message exceeds the credits advertised (R163, R164, R166). -/
def overCredits (c : Chip) (p : Nat) (m : FlitMsg) : Bool :=
  let x := lnkSt c p
  let n := flitNeeds c p m
  (List.range 5).any fun k => nth n k != 0 && nth x.inForce k + nth x.told k < nth x.used k + nth n k

def useCredits (p : Nat) (m : FlitMsg) (c : Chip) : Chip :=
  let x := lnkSt c p
  setLnkSt p { x with used := sumBy x.used (flitNeeds c p m) } c

/-- An Ack for the last accepted number leaves. -/
def ackNow (p : Nat) (c : Chip) : Chip :=
  send (.ack p (getF c LNK_SEQ_LAST_RX p)) (setLnkSt p { lnkSt c p with sinceAck := 0 } c)

/-- The expected flit advances the accepted number; the eighth since the last Ack sends one (R159). -/
def advanceRx (p : Nat) (c : Chip) : Chip :=
  let n := (lnkSt c p).sinceAck + 1
  whenB (8 ≤ n) (ackNow p) (wrapF LNK_SEQ_LAST_RX p 1 (setLnkSt p { lnkSt c p with sinceAck := n } c))

/-- The expected flit's message is accepted, or discarded for want of credits, with a Recovery (R166). `ok` is what
accepting means. -/
def acceptMsg (p : Nat) (m : FlitMsg) (ok : Chip → Chip) (c : Chip) : Chip :=
  let c1 := advanceRx p c
  if overCredits c p m then
    enterRecovery p (raise .lnk p 5 (setLnkSt p { lnkSt c1 p with credRestart := true } c1))
  else ok (useCredits p m c1)

/-- A flit whose CRC passes, by its number (R157): the expected one is taken. -/
def numbered (p seq : Nat) (take : Chip → Chip) (c : Chip) : Chip :=
  let d := flitDist (expectedSeq c p) seq
  if d = 0 then take c
  else if 512 ≤ d then ackNow p (count .lnk p 5 c)
  else askReplay p (count .lnk p 3 c)

/-- A flit by the outcome of its check (R157). -/
def checked (p : Nat) (k : FlitCheck) (good : Chip → Chip) (c : Chip) : Chip :=
  match flitOutcome c p k with
  | .clean => good c
  | .corrected => good (count .lnk p 2 c)
  | .uncorrectable => askReplay p (count .lnk p 3 (raise .lnk p 0 c))

def goodFlit (p : Nat) (f : FlitRx) (c : Chip) : Chip :=
  match f.msg with
  | none => takeReturns p f.rets c
  | some m => numbered p f.seq.val (fun c => acceptMsg p m id (takeReturns p f.rets c)) c

def effFlit (p : Nat) (f : FlitRx) (c : Chip) : Chip := if inL0 c p then checked p f.check (goodFlit p f) c else c

def execFlitReceive (p : Port) (f : FlitRx) (s : State) : Out3 := .next (onChip s (effFlit p f))

/-! ### Acknowledgement and replay (R158 to R161, R169, R173) -/

/-- The replay count exceeds its limit: an edge link retrains once, a trunk goes down. A link that is in Recovery already
enters none again (R187). -/
def overLimit (p : Nat) (c : Chip) : Chip :=
  if trunk c p then trunkDown p c
  else if isF c LNK_STAT_RETRAIN_SPENT p then c
  else
    let c1 := setLnkSt p { lnkSt c p with ackedSinceRetrain := 0 } (raise .lnk p 1 c)
    whenB (linkState c p != 4) (enterRecovery p) (setF LNK_STAT_RETRAIN_SPENT p 1 c1)

/-- The replay count after one more replay (R161). -/
def replaysAfter (c : Chip) (p : Nat) : Nat :=
  let x := lnkSt c p
  if x.lastReplayAck.all (· == getF c LNK_SEQ_ACKD p) then x.replays + 1 else x.replays

/-- A replay counts, and its count may exceed the limit. -/
def noteReplay (p n : Nat) (c : Chip) : Chip :=
  let c1 := setReplays p n (setLnkSt p { lnkSt c p with lastReplayAck := some (getF c LNK_SEQ_ACKD p) } (count .lnk p 4 c))
  if getF c1 LNK_CTRL_REPLAY_LIMIT p < n then overLimit p c1 else c1

/-- A Nak: every unacknowledged flit from the requested number is sent again, and the replay counts. -/
def nak (p seq : Nat) (c : Chip) : Chip :=
  if (replayList c p seq).isEmpty then c else noteReplay p (replaysAfter c p) (replayFrom p seq c)

/-- A Nak that would exceed the limit of an edge link just as the partner takes it into Recovery sets RETRAIN_SPENT all
the same (R187). -/
def effNak (p seq : Nat) (c : Chip) : Chip :=
  if inL0 c p then nak p seq c
  else if linkState c p == 4 && !trunk c p && !(replayList c p seq).isEmpty &&
      getF c LNK_CTRL_REPLAY_LIMIT p < replaysAfter c p then
    noteReplay p (replaysAfter c p) c
  else c

def execNakReceive (p : Port) (seq : Fin 1024) (s : State) : Out3 := .next (onChip s (effNak p seq))

def effAckSend (p : Nat) (c : Chip) : Chip :=
  if inL0 c p && (lnkSt c p).sinceAck != 0 then ackNow p c else c

def execAckSend (p : Port) (s : State) : Out3 := .next (onChip s (effAckSend p))

/-- An Ack that advances the acknowledged number. -/
def ackTo (p seq : Nat) (c : Chip) : Chip :=
  let x := lnkSt c p
  let kept := x.unacked.filter fun f => f.seq != seq && flitDist seq f.seq < 512
  let n := x.unacked.length - kept.length
  let a := if isF c LNK_STAT_RETRAIN_SPENT p then x.ackedSinceRetrain + n else x.ackedSinceRetrain
  pump p (setReplays p 0 (setF LNK_SEQ_ACKD p seq (setLnkSt p { x with unacked := kept, ackedSinceRetrain := a } c)))

def effAck (p seq : Nat) (c : Chip) : Chip :=
  let d := flitDist (getF c LNK_SEQ_ACKD p) seq
  if inL0 c p && d != 0 && d < flitDist (getF c LNK_SEQ_ACKD p) (getF c LNK_SEQ_NEXT_TX p) then ackTo p seq c else c

def execAckReceive (p : Port) (seq : Fin 1024) (s : State) : Out3 := .next (onChip s (effAck p seq))

/-- Freed credits of a class, or of the posted headers of an edge link (4; R164), are reported: the total since the link
entered L0, modulo 4,096 (R165). -/
def effCreditReturn (p cls : Nat) (c : Chip) : Chip :=
  let x := lnkSt c p
  if inL0 c p && nth x.freed cls != nth x.told cls then
    send (.credit p cls (nth x.freed cls % 4096)) (setLnkSt p { x with told := mapAt x.told cls (fun _ => nth x.freed cls) } c)
  else c

def execCreditReturnSend (p : Port) (cls : Fin 5) (s : State) : Out3 := .next (onChip s (effCreditReturn p cls))

/-- RETRAIN_SPENT clears; a replay count that still exceeds the limit takes the retrain then (R169). -/
def effSpentClear (p : Nat) (c : Chip) : Chip :=
  if isF c LNK_STAT_RETRAIN_SPENT p && 65536 ≤ (lnkSt c p).ackedSinceRetrain then
    let c1 := setF LNK_STAT_RETRAIN_SPENT p 0 c
    if getF c1 LNK_CTRL_REPLAY_LIMIT p < (lnkSt c1 p).replays then overLimit p c1 else c1
  else c

def execRetrainSpentClear (p : Port) (s : State) : Out3 := .next (onChip s (effSpentClear p))

/-! ### Recovery and link-down (R168 to R174, R186, R187, R196) -/

def effRecovery (p : Nat) (c : Chip) : Chip := if portOn c p && inL0 c p then enterRecovery p c else c

def execLinkRecovery (p : Port) (s : State) : Out3 := .next (onChip s (effRecovery p))

/-- RETRAIN = 1 requests a Recovery, which begins from L0. That a write while the link is in no L0 requests nothing is a
DESIGN CHOICE (log entry 101): R196 does not say. -/
def retrainWrite (p : Nat) (c : Chip) : Chip := if portOn c p && inL0 c p then setF LNK_CTRL_RETRAIN p 1 c else c

def execLnkRetrain (pa : Path) (p : Port) (s : State) : Out3 :=
  .next (onChip s (reachReg pa .lnk p 0x040 (retrainWrite p)))

/-- The edge down rule's own cases (R168). -/
def downHolds (c : Chip) (p : Nat) (cause : DownCause) : Bool :=
  match cause with
  | .recoveryFailed => linkState c p == 4
  | .replayLimit => (inL0 c p || linkState c p == 4) && isF c LNK_STAT_RETRAIN_SPENT p &&
      getF c LNK_CTRL_REPLAY_LIMIT p < (lnkSt c p).replays

def effLinkDown (p : Nat) (cause : DownCause) (c : Chip) : Chip :=
  if portOn c p && !trunk c p && downHolds c p cause then edgeDown p false c else c

def execLinkDown (p : Port) (cause : DownCause) (s : State) : Out3 := .next (onChip s (effLinkDown p cause))

/-- The partner of an edge link requests Hot Reset, which is also a port reset, or Disable (R168, R171). -/
def effPartner (p : Nat) (hot : Bool) (c : Chip) : Chip :=
  if portOn c p && !trunk c p && (inL0 c p || linkState c p == 4) then
    if hot then portResetGo p false c else setF LNK_STAT_STATE p 6 (takeDown p false c)
  else c

def execPartnerHotReset (p : Port) (hot : Bool) (s : State) : Out3 := .next (onChip s (effPartner p hot))

def effLockTmr (p : Nat) (c : Chip) : Chip :=
  if trunk c p && linkState c p == 4 && tmbRuns c then trunkDown p c else c

def execTrunkLockTmrExpiry (p : Port) (s : State) : Out3 := .next (onChip s (effLockTmr p))

/-! ### Failover and failback (R178 to R185) -/

/-- A failover resend flit whose turn it is: a member still held up is declared down at once (step 4 of R179); the message is
discarded, and its credits are freed, at or below the frozen number of the failed member, else accepted (step 5). -/
def resendTaken (p q orig : Nat) (m : FlitMsg) (c : Chip) : Chip :=
  let c1 := if memberUp c q then trunkDown q c else c
  acceptMsg p m (fun c =>
    if flitDist orig (getF c LNK_SEQ_LAST_RX q) < 512 then count .lnk p 5 (freeNeeds p (flitNeeds c p m) c) else c) c1

/-- The peer's flits of the failed member arrive on the survivor p. -/
def goodResend (p : Nat) (f : FlitRx) (orig : Nat) (c : Chip) : Chip :=
  match f.msg with
  | none => takeReturns p f.rets c
  | some m => numbered p f.seq.val (fun c => resendTaken p (partnerOf c p) orig m (takeReturns p f.rets c)) c

def effResend (p : Nat) (f : FlitRx) (orig : Nat) (c : Chip) : Chip :=
  if trunk c p && inL0 c p then checked p f.check (goodResend p f orig) c else c

def execFailoverResendReceive (p : Port) (f : FlitRx) (orig : Fin 1024) (s : State) : Out3 :=
  .next (onChip s (effResend p f orig))

/-- The last bucket of a failback has moved: LNK_TRUNK_UP, and the partner no longer carries for p. -/
def failbackEnds (p : Nat) (c : Chip) : Chip :=
  if (lnkSt c p).failback && (owedBuckets c p).isEmpty then
    event .lnk p 0 (setF LNK_TSTAT_CARRYING (partnerOf c p) 0 (setLnkSt p { lnkSt c p with failback := false } c))
  else c

def effHoldExpiry (p : Nat) (c : Chip) : Chip :=
  if trunk c p && inL0 c p && (lnkSt c p).holdRuns && tmbRuns c then
    failbackEnds p (setLnkSt p { lnkSt c p with holdRuns := false, failback := true } c)
  else c

def execFailbackHoldExpiry (p : Port) (s : State) : Out3 := .next (onChip s (effHoldExpiry p))

/-- Bucket b moves to p, the member it is assigned to. -/
def effBucketMove (p b : Nat) (c : Chip) : Chip :=
  let q := partnerOf c p
  if memberUp c p && inL0 c p && !(lnkSt c p).holdRuns && memberUp c q && (owedBuckets c p).contains b && !bucketHeld c q b then
    failbackEnds p (retest (bucketGo p b c))
  else c

def execBucketMove (p : Port) (b : Fin 256) (s : State) : Out3 := .next (onChip s (effBucketMove p b))

/-- SPLIT is stored (15_mode_matrix.md R480); on the page of a pair's primary, buckets stay where they are until each may
move (R185), and a failback that has none left to move ends (R184). -/
def splitWrite (p v : Nat) (c : Chip) : Chip :=
  if 256 < v then c
  else if trunk c p && isPrimary c p then
    let was := allBuckets.map fun b => (b, carrierOf c p b)
    failbackEnds p (failbackEnds (partnerOf c p)
      (forEach was (fun x c => setCarrier p x.1 x.2 c) (setF LNK_PAIR_SPLIT p v c)))
  else setF LNK_PAIR_SPLIT p v c

def execPairSplitWrite (pa : Path) (p : Port) (split : Fin 512) (s : State) : Out3 :=
  .next (onChip s (reachReg pa .lnk p 0x054 (splitWrite p split)))

/-! ### Width changes (R188 to R191) -/

/-- The partner's request wins over ours: that of the lower fabric switch ID on a trunk, as the L0p rules give it on an edge
link. -/
def peerWins (c : Chip) (p : Nat) (w : WidthPeer) : Bool :=
  if trunk c p then getF c LNK_TSTAT_PEER_ID p < getF c BND_FSID_FSID 0 else w.wins

/-- The change that page r asked, or that won over it, and that has not completed: its width. -/
def widthAsked (c : Chip) (r : Nat) : Option Nat :=
  if isF c LNK_WIDTH_GO r then some (getF c LNK_WIDTH_REQ r) else (lnkSt c r).peerWidth

/-- Ports whose changes are one: both members of a pair. -/
def widthPages (c : Chip) (p : Nat) : List Nat := if trunk c p then [p, partnerOf c p] else [p]

/-- GO starts the change to REQ, or ends withdrawn where the partner's request wins, whose change then runs. That GO is
ignored while the link is in no L0, or a change of the link or its pair runs, is a DESIGN CHOICE (log entry 101): R196
does not say. -/
def widthGo (p : Nat) (peer : Option WidthPeer) (c : Chip) : Chip :=
  if !inL0 c p || (widthPages c p).any (fun r => (widthAsked c r).isSome) then c
  else
    let c1 := setF LNK_WIDTH_DONE p 0 (setF LNK_WIDTH_WITHDRAWN p 0 c)
    match peer.filter (peerWins c p) with
    | some w => setLnkSt p { lnkSt c1 p with peerWidth := some w.width } (setF LNK_WIDTH_WITHDRAWN p 1 c1)
    | none => setF LNK_WIDTH_GO p 1 c1

def execWidthChangeGo (pa : Path) (p : Port) (peer : Option WidthPeer) (s : State) : Out3 :=
  .next (onChip s (reachReg pa .lnk p 0x05C (widthGo p peer)))

/-- The change of page r has completed: DONE says so of its own request. -/
def widthEnds (r : Nat) (c : Chip) : Chip :=
  setLnkSt r { lnkSt c r with peerWidth := none }
    (if isF c LNK_WIDTH_GO r then setF LNK_WIDTH_DONE r 1 (setF LNK_WIDTH_GO r 0 c) else c)

/-- The change completes on link p: on an edge link it ends; a pair changes member by member, the primary first. -/
def effWidthDone (p : Nat) (c : Chip) : Chip :=
  if !inL0 c p then c
  else match (widthPages c p).find? (fun r => (widthAsked c r).isSome) with
    | none => c
    | some r =>
      let w := (widthAsked c r).getD 0
      let q := partnerOf c p
      if !trunk c p then widthEnds r (setWidth p w c)
      else if isPrimary c p then
        let c1 := setWidth p w c
        if inL0 c1 q && !atWidth c1 q w then c1 else widthEnds r c1
      else if inL0 c q && !atWidth c q w then c
      else widthEnds r (setWidth p w c)

def execWidthChangeDone (p : Port) (s : State) : Out3 := .next (onChip s (effWidthDone p))

/-! ### The marks channel (R192 to R195) -/

def marksOn (c : Chip) (prim : Nat) : List MarkWait := kvGet [] c.lnk.marks prim
def setMarks (prim : Nat) (l : List MarkWait) (c : Chip) : Chip :=
  { c with lnk := { c.lnk with marks := kvSet [] c.lnk.marks prim l } }

/-- A free flit slot of a trunk: no sequenced flit waits for it. -/
def slotFree (c : Chip) (p : Nat) : Bool :=
  !(c.xbr.pkts.any fun k => !k.multicast && egressOf k == p && eligiblePkt c k)

/-- A marks flit leaves: one in at most 2^SHARE of the flits sent, of which `nops` carried no message (R192). -/
def effMarksSend (p nops : Nat) (c : Chip) : Chip :=
  let prim := primaryOf c p
  let l := (marksOn c prim).take 28
  let x := lnkSt c p
  if trunk c p && inL0 c p && isF c LNK_MKCH_EN p && slotFree c p && !l.isEmpty &&
      2 ^ getF c LNK_MKCH_SHARE p ≤ x.sinceMarks + nops + 1 then
    send (.marksFlit p l) (countN .lnk p 8 none l.length
      (setMarks prim ((marksOn c prim).drop 28) (setLnkSt p { x with sinceMarks := 0 } c)))
  else c

def execMarksFlitSend (p : Port) (nops : Nat) (s : State) : Out3 := .next (onChip s (effMarksSend p nops))

/-- A record's deltas reach its tile's marks, whose entry is fetched if need be, with the orphans found at the fetch
(09_tile_map.md R307, R311). That a record for a tile beyond the
configured pool is passed over is a DESIGN CHOICE (log entry 102): R194 does not say. -/
def takeMark (r : MarkRec) (c : Chip) : Chip :=
  if (r.rd.val = 0 ∧ r.wr.val = 0) ∨ poolTiles c ≤ r.tile.val then c
  else match mapLookup c r.tile.val with
    | none => markTile r.tile.val r.rd.val r.wr.val (fetchFor r.tile.val r.reads c)
    | some _ => if mapRunning c then markTile r.tile.val r.rd.val r.wr.val c else c

/-- The records of a good marks flit are counted, but for padding, and taken (R193). -/
def goodMarks (p : Nat) (recs : List MarkRec) (c : Chip) : Chip :=
  countN .lnk p 9 none (recs.filter fun r => r.rd.val != 0 || r.wr.val != 0).length (forEach recs takeMark c)

/-- A marks flit is received (R157, R194): nothing is asked back of one that is lost. -/
def effMarksReceive (p : Nat) (k : FlitCheck) (recs : List MarkRec) (c : Chip) : Chip :=
  if trunk c p && inL0 c p then
    match flitOutcome c p k with
    | .clean => goodMarks p recs c
    | .corrected => goodMarks p recs (count .lnk p 2 c)
    | .uncorrectable => count .lnk p 3 (raise .lnk p 0 c)
  else c

def execMarksFlitReceive (p : Port) (check : FlitCheck) (recs : List MarkRec) (s : State) : Out3 :=
  if wellFormed (.marksFlitReceive p check recs) then .next (onChip s (effMarksReceive p check recs))
  else .refused .illFormed

/-- The oldest record held for the pair has waited longer than AGE: it counts on the page of the member that the command
names, a DESIGN CHOICE (log entry 99). -/
def effMarkAge (p : Nat) (c : Chip) : Chip :=
  let prim := primaryOf c p
  if trunk c p && !(marksOn c prim).isEmpty && tmbRuns c then count .lnk p 10 (setMarks prim ((marksOn c prim).drop 1) c)
  else c

def execMarksRecordAgeDrop (p : Port) (s : State) : Out3 := .next (onChip s (effMarkAge p))

end Sys2Proof.Machine
end

