-- ==== Sys2Proof/Machine/Mgt.lean ====
section
/-!
DEFINITION. Management cores and the interrupt controller (18_mgmt_interrupts.md R528 to R542), with their commands.
-/
namespace Sys2Proof.Machine

/-! ### Pending and active bits, configuration -/

def bitOfIds (c : Chip) (X : Fld) (id : Nat) : Bool := bit (getFi c X 0 (id / 32)) (id % 32)
def isPending (c : Chip) (id : Nat) : Bool := bitOfIds c MGT_PEND_PEND id
def isActive (c : Chip) (id : Nat) : Bool := bitOfIds c MGT_ACT_ACT id

def setPending (id : Nat) (v : Bool) (c : Chip) : Chip :=
  let w := getFi c MGT_PEND_PEND 0 (id / 32)
  setFi MGT_PEND_PEND 0 (id / 32) (if v then setBit w (id % 32) else clearBit w (id % 32)) c

def setActive (id : Nat) (v : Bool) (c : Chip) : Chip :=
  let w := getFi c MGT_ACT_ACT 0 (id / 32)
  setFi MGT_ACT_ACT 0 (id / 32) (if v then setBit w (id % 32) else clearBit w (id % 32)) c

def prioFld (j : Nat) : Fld :=
  match j with
  | 0 => MGT_ID_B0_PRIO | 1 => MGT_ID_B1_PRIO | 2 => MGT_ID_B2_PRIO | _ => MGT_ID_B3_PRIO
def maskFld (j : Nat) : Fld :=
  match j with
  | 0 => MGT_ID_B0_MASK | 1 => MGT_ID_B1_MASK | 2 => MGT_ID_B2_MASK | _ => MGT_ID_B3_MASK

def irqPrio (c : Chip) (id : Nat) : Nat := getFi c (prioFld (id % 4)) (id / 1024) (id % 1024 / 4)
def irqMask (c : Chip) (id : Nat) : Nat := getFi c (maskFld (id % 4)) (id / 1024) (id % 1024 / 4)

/-- IDs that have a configuration byte which a write may set (R538). -/
def irqSettable (id : Nat) : Bool := (1 ≤ id && id < 1472) || (3968 ≤ id && id ≤ 4094)

/-! ### Sources (R532, R538) -/

/-- Pages of a kind whose enabled events are pending. -/
def eventPages (c : Chip) (k : PK) : List Nat :=
  (listedPages c (PG_EVT_PEND k)).filter fun n => Nat.land (getF c (PG_EVT_PEND k) n) (getF c (PG_EVT_EN k) n) != 0

/-- Instances of a block with an enabled event pending. -/
def eventInsts (c : Chip) (b : Nat) : List Nat :=
  (allPK.filter fun k => blockOf k == b).flatMap fun k => (eventPages c k).map (instOf k)

/-- Whether an ID is a level source that is asserted: FLT's three severities on IDs 129 to 131, GLB's events on ID 1,
else the events of instances i, i + 64, ... of its block. -/
def asserted (c : Chip) (id : Nat) : Bool :=
  if id = 0 ∨ 1472 ≤ id then false
  else if 128 ≤ id ∧ id < 192 then
    if id = 128 then (eventInsts c 2).contains 0
    else if id ≤ 131 then bit (Nat.land (getF c FLT_PEND_SEV 0) (getF c FLT_IRQ_EN_SEV 0)) (id - 129)
    else false
  else if id < 64 then id == 1 && (eventInsts c 0).contains 0
  else (eventInsts c (id / 64)).any fun n => n % 64 == id % 64

/-! ### Eligibility and notification (R533, R536, R539) -/

/-- IDs whose pending bit is 1, in rising order. -/
def pendingIds (c : Chip) : List Nat :=
  (List.range 128).flatMap fun m =>
    let w := getFi c MGT_PEND_PEND 0 m
    if w = 0 then [] else ((List.range 32).filter (bit w)).map (32 * m + ·)

def irqEligible (c : Chip) (core id : Nat) : Bool :=
  isPending c id && !isActive c id && bit (irqMask c id) core && getF c MGT_THRESH_T core < irqPrio c id

def eligibleIds (c : Chip) (core : Nat) : List Nat := (pendingIds c).filter (irqEligible c core)

def notified (c : Chip) (core : Nat) : Bool := !(eligibleIds c core).isEmpty

/-- MGT_CORE_STAT.STATE: 0 RESET, 1 RUN, 2 SLEEP, 3 HALT. -/
def coreState (c : Chip) (core : Nat) : Nat := getF c MGT_CORE_STAT_STATE core

/-- A core's wake latch sets, and wakes it (R539). -/
def wake (core : Nat) (c : Chip) : Chip :=
  let c1 := setF MGT_CORE_STAT_WAKE core 1 c
  if coreState c1 core = 2 then countMgt core 6 (setF MGT_CORE_STAT_STATE core 1 c1) else c1

/-- After a change, each core for which an ID has become eligible is notified of it. -/
def notify (before c : Chip) : Chip :=
  forEach [0, 1, 2, 3] (fun k c =>
    if (eligibleIds c k).any (fun id => !irqEligible before k id) then wake k c else c) c

/-- A change to pending, active or configuration bits, with the notifications it makes. -/
def withNotify (f : Chip → Chip) (c : Chip) : Chip := notify c (f c)

/-! ### Completion (R531, R535) -/

def heldIds (c : Chip) (core : Nat) : List Nat :=
  (kvKeys c.mgt.claimer).filter fun id => kvFind c.mgt.claimer id == some core && isActive c id

/-- The active bit clears; a level source that is asserted then pends again. -/
def complete (id : Nat) (c : Chip) : Chip :=
  let c1 := setActive id false { c with mgt := { c.mgt with claimer := kvErase c.mgt.claimer id } }
  if asserted c1 id then setPending id true c1 else c1

/-! ### Cores (R529 to R531) -/

/-- The verified image is there for MC0 to MC3 to run. -/
def coresReleased (c : Chip) : Bool := isF c SEC_STAT_MGT_OK 0

/-- A core enters reset: every ID that it holds active is completed. -/
def coreEnterReset (core : Nat) (c : Chip) : Chip :=
  withNotify (fun c => forEach (heldIds c core) complete c) (setF MGT_CORE_STAT_STATE core 0 c)

/-- A core restarts from the verified image, or halts without one. -/
def coreRun (core : Nat) (c : Chip) : Chip :=
  setF MGT_CORE_STAT_STATE core (if coresReleased c then (if isF c MGT_CORE_CTRL_RST core then 0 else 1) else 3) c

def setWdt (core : Nat) (on : Bool) (c : Chip) : Chip :=
  { c with mgt := { c.mgt with wdt := if on then c.mgt.wdt ||| (1#4 <<< core) else c.mgt.wdt &&& ~~~(1#4 <<< core) } }

/-- A restart by the watchdog or by a memory error. -/
def coreRestart (core : Nat) (c : Chip) : Chip :=
  event .mgtC 0 0 (bumpF MGT_CORE_STAT_RESTARTS core 1 (coreRun core (coreEnterReset core c)))

/-- RST = 1 holds the core in reset; RST = 0 restarts a held core. The watchdog keeps its period, and runs while the core
does (R530). -/
def rstWrite (core : Nat) (rst : Bool) (c : Chip) : Chip :=
  let was := isF c MGT_CORE_CTRL_RST core
  let c1 := setF MGT_CORE_CTRL_RST core (b2n rst) c
  if rst == was then c1
  else if rst then (if coresReleased c1 then coreEnterReset core c1 else c1)
  else coreRun core c1

def execCoreResetWrite (pa : Path) (c : Core) (rst : Bool) (s : State) : Out3 :=
  .next (onChip s (reachReg pa .mgtCore c 0x040 (rstWrite c rst)))

/-- A kick restarts the watchdog with the period then set; period 0 leaves it off. -/
def kick (core : Nat) (c : Chip) : Chip := setWdt core (getF c MGT_CORE_CTRL_WDT core != 0) c

def execWatchdogKick (pa : Path) (c : Core) (s : State) : Out3 :=
  .next (onChip s (reachReg pa .mgtCore c 0x044 (kick c)))

/-- The core runs or sleeps. -/
def coreUp (c : Chip) (core : Nat) : Bool := c.pwr.vauxUp && (coreState c core == 1 || coreState c core == 2)

def effWdt (core : Nat) (c : Chip) : Chip :=
  if coreUp c core && c.mgt.wdt.getLsbD core then coreRestart core (raise .mgtCore core 0 c) else c

def execWatchdogExpiry (c : Core) (s : State) : Out3 := .next (onChip s (effWdt c))

def effCoreUe (core : Nat) (c : Chip) : Chip :=
  if coreUp c core then coreRestart core (raise .mgtCore core 2 c) else c

def execMgtMemUe (c : Core) (s : State) : Out3 := .next (onChip s (effCoreUe c))

/-- A running core whose wake latch is clear sleeps; the latch wins (R540). -/
def effSleep (core : Nat) (c : Chip) : Chip :=
  if coreState c core = 1 ∧ isF c MGT_CORE_STAT_WAKE core = false then setF MGT_CORE_STAT_STATE core 2 c else c

def execCoreEnterSleep (c : Core) (s : State) : Out3 := .next (onChip s (effSleep c))

/-! ### Setting, claiming, completing (R532 to R537) -/

def effLevel (id : Nat) (c : Chip) : Chip :=
  if c.pwr.vauxUp && asserted c id && !isPending c id && !isActive c id then withNotify (setPending id true) c else c

def execLevelSourceAssert (id : IrqId) (s : State) : Out3 := .next (onChip s (effLevel id))

def swi (id : Nat) (c : Chip) : Chip :=
  if 3968 ≤ id ∧ id ≤ 4094 then withNotify (setPending id true) (count .mgtC 0 5 c) else c

def execMgtSwi (pa : Path) (id : IrqId) (s : State) : Out3 := .next (onChip s (reachReg pa .mgtC 0 0x040 (swi id)))

/-- The eligible ID of highest priority, the lowest among equals. -/
def claimPick (c : Chip) (core : Nat) : Option Nat := minBy (fun id => (7 - irqPrio c id) * 4096 + id) (eligibleIds c core)

/-- What a claim returns, and the part after it. A core for which another ID is eligible stays notified, so that its latch
sets again (R533, R536, R540). -/
def claim (core : Nat) (c : Chip) : Nat × Chip :=
  let latch := isF c MGT_CORE_STAT_WAKE core
  let c1 := setF MGT_CORE_STAT_WAKE core 0 c
  match claimPick c1 core with
  | some id =>
    let c2 := setActive id true (setPending id false
      { c1 with mgt := { c1.mgt with claimer := kvPut c1.mgt.claimer id core } })
    (id, countMgt core 2 (whenB (notified c2 core) (setF MGT_CORE_STAT_WAKE core 1) c2))
  | none => if latch then (4095, countMgt core 4 (bumpF MGT_SPUR_N core 1 c1)) else (0, c1)

/-- A read of MGT_CLAIM by the core itself. -/
def effClaim (core : Nat) (c : Chip) : Chip :=
  if coreUp c core then
    let r := claim core c
    send (.pathRead .core r.1) r.2
  else c

def execMgtClaim (c : Core) (s : State) : Out3 := .next (onChip s (effClaim c))

/-- A write of MGT_COMP by a core. -/
def comp (core id : Nat) (c : Chip) : Chip :=
  if isActive c id ∧ kvFind c.mgt.claimer id = some core then countMgt core 3 (withNotify (complete id) c)
  else raise .mgtC 0 0 c

def effComp (core id : Nat) (c : Chip) : Chip := if coreUp c core then comp core id c else c

def execMgtComp (c : Core) (id : IrqId) (s : State) : Out3 := .next (onChip s (effComp c id))

/-- One byte of a configuration word. -/
def irqByte (word j v : Nat) (c : Chip) : Chip :=
  if irqSettable (4 * word + j) then
    setFi (prioFld j) (word / 256) (word % 256) (bits v (8 * j + 4) 3)
      (setFi (maskFld j) (word / 256) (word % 256) (bits v (8 * j) 4) c)
  else c

/-- A configuration word sets the bytes of four IDs (R541). -/
def irqWord (word v : Nat) (c : Chip) : Chip := withNotify (fun c => forEach [0, 1, 2, 3] (fun j c => irqByte word j v c) c) c

def execIrqConfigWrite (pa : Path) (word : Fin 1024) (v : Word) (s : State) : Out3 :=
  .next (onChip s (reachReg pa .mgtCfg (word.val / 256) (0x100 + 4 * (word.val % 256)) (irqWord word v.toNat)))

/-- MGT_THRESH of a core. -/
def threshWrite (core v : Nat) (c : Chip) : Chip := withNotify (setF MGT_THRESH_T core v) c

/-- The summary of an ID (R538): instances (ID mod 64) + 64 k with an enabled event pending. -/
def irqSummary (c : Chip) (id : Nat) : Nat :=
  if id = 0 ∨ 1472 ≤ id ∨ (129 ≤ id ∧ id < 192) ∨ (2 ≤ id ∧ id < 64) then 0
  else
    let i := if id = 1 then 0 else id % 64
    ((eventInsts c (id / 64)).filter fun n => n % 64 == i).foldl (fun v n => setBit v (n / 64)) 0

end Sys2Proof.Machine
end

