-- ==== Sys2Proof/Machine/Sec.lean ====
section
/-!
DEFINITION. Security: images and their checks, secure boot, updates, rollback protection, SPDM, Link IDE, and the restart
of prefect forms (20_security.md R565 to R582), with their commands. A slot is named by its type (true: prefect) and by
its place (true: slot B).
-/
namespace Sys2Proof.Machine

/-! ### Slots and fuses (R567 to R570) -/

def slotOf (c : Chip) (pfx b : Bool) : ImgSlot :=
  match pfx, b with
  | false, false => c.sec.mgtA | false, true => c.sec.mgtB | true, false => c.sec.pfxA | true, true => c.sec.pfxB

def setSlot (pfx b : Bool) (x : ImgSlot) (c : Chip) : Chip :=
  { c with sec := match pfx, b with
    | false, false => { c.sec with mgtA := x } | false, true => { c.sec with mgtB := x }
    | true, false => { c.sec with pfxA := x } | true, true => { c.sec with pfxB := x } }

def slotWords (c : Chip) (pfx b : Bool) : List Nat :=
  (slotOf c pfx b).words.getD (Config.bootImage (2 * b2n pfx + b2n b))

/-- The active slot of a type. -/
def activeSlot (c : Chip) (pfx : Bool) : Bool :=
  if pfx then c.sec.pfxSlot.getD Config.bootPfxSlot else c.sec.mgtSlot.getD Config.bootMgtSlot

def markActive (pfx b : Bool) (c : Chip) : Chip :=
  { c with sec := if pfx then { c.sec with pfxSlot := some b } else { c.sec with mgtSlot := some b } }

/-- The minimum SVN of a type as its fuses hold it, and as SEC treats it: 64 where the fuses cannot be read (R566). -/
def fusedMin (c : Chip) (pfx : Bool) : Nat :=
  if pfx then c.sec.pfxMin.getD (Config.fusedPfxMin % 65) else c.sec.mgtMin.getD (Config.fusedMgtMin % 65)
def minSvn (c : Chip) (pfx : Bool) : Nat := if c.sec.fuseUe then 64 else fusedMin c pfx

/-- Revoked key slots. -/
def revokedKeys (c : Chip) : Nat := Nat.lor (Config.fusedKeyRev % 16) c.sec.revoked

/-! ### The image format (R567) -/

def imgWord (l : List Nat) (i : Nat) : Nat := (l[i]?).getD 0
def imgKeySlot (l : List Nat) : Nat := bits (imgWord l 1) 8 8
def imgSvn (l : List Nat) : Nat := bits (imgWord l 1) 16 16

/-- n bytes of an image from a byte offset on, both multiples of 4; a word holds its bytes lowest first (00_scope.md R6). -/
def imgBytes (l : List Nat) (off n : Nat) : List Nat :=
  ((l.drop (off / 4)).take (n / 4)).flatMap fun w => (List.range 4).map fun i => w / 256 ^ i % 256

/-- The digest of the header over the body, the signing key, x then y, and the signature, r then s. -/
def imgDigest (l : List Nat) : Nat := beNat (imgBytes l 0x010 48)
def imgKey (l : List Nat) : List Nat := imgBytes l 0x040 96
def imgSig (l : List Nat) : List Nat := imgBytes l 0x0A0 96

/-- The body, which follows the header of 4 KiB, for its length. -/
def imgBody (l : List Nat) : List Nat := imgBytes l 4096 (imgWord l 3)

/-- The signing key has the fused hash of its slot. -/
def keyMatches (l : List Nat) : Bool := sha384 (imgKey l) == Config.fusedKeyHash (imgKeySlot l) % 2 ^ 384

/-- The signature over the header before it verifies. -/
def signatureOk (l : List Nat) : Bool :=
  ecdsaOk (beNat ((imgKey l).take 48)) (beNat ((imgKey l).drop 48)) (sha384 (imgBytes l 0 0x0A0))
    (beNat ((imgSig l).take 48)) (beNat ((imgSig l).drop 48))

/-- The body has the digest of the header. -/
def bodyHashOk (l : List Nat) : Bool := sha384 (imgBody l) == imgDigest l

/-- Magic, type and body length are as R567 requires, and the type is the slot's. -/
def formatOk (pfx : Bool) (l : List Nat) : Bool :=
  imgWord l 0 == 0x494C5648 && bits (imgWord l 1) 0 8 == b2n pfx && imgWord l 3 % 4096 == 0 &&
    imgWord l 3 ≤ 8388608 - 4096

/-- STATUS of a verification: 1 OK, else the first check that fails (R568). -/
def verifyCode (c : Chip) (pfx b : Bool) : Nat :=
  let l := slotWords c pfx b
  if !formatOk pfx l then 3
  else if 3 < imgKeySlot l || !keyMatches l then 4
  else if bit (revokedKeys c) (imgKeySlot l) then 5
  else if !signatureOk l then 6
  else if (slotOf c pfx b).spoiled || !bodyHashOk l then 7
  else if imgSvn l < minSvn c pfx then 8
  else 1

/-- One verification, counted. -/
def verify (pfx b : Bool) (c : Chip) : Nat × Chip := (verifyCode c pfx b, count .sec 0 2 c)

/-! ### Secure boot (R569) -/

/-- The image of a type that boots: the active slot's, or the other's, which is then marked active. -/
def bootType (pfx : Bool) (c : Chip) : Bool × Chip :=
  let a := activeSlot c pfx
  let r := verify pfx a c
  if r.1 = 1 then (true, r.2)
  else
    let q := verify pfx (!a) r.2
    if q.1 = 1 then (true, raise .sec 0 0 (markActive pfx (!a) q.2))
    else
      let f := getF q.2 SEC_STAT_FAILED 0
      (false, raise .sec 0 1 (setF SEC_STAT_FAILED 0 (setBit f (b2n pfx)) q.2))

/-- Every core restarts. -/
def runCores (c : Chip) : Chip := forEach [0, 1, 2, 3] coreRun c

/-- The digest of a type's active image, header and body. -/
def imageDigest (c : Chip) (pfx : Bool) : Nat :=
  let l := slotWords c pfx (activeSlot c pfx)
  sha384 (imgBytes l 0 (4096 + imgWord l 3))

/-- The digest of the fused minima and key revocations. -/
def fuseDigest (c : Chip) : Nat := sha384 (Config.measuredBytes 4 [minSvn c false, minSvn c true, revokedKeys c])

/-- Measurement blocks 1 to 5, SHA-384 digests (R576). -/
def measured (c : Chip) : List Nat :=
  [Config.romDigest, imageDigest c false, imageDigest c true, fuseDigest c,
   sha384 (Config.measuredBytes 5 [getF c SEC_CLOSE_MGR_BLOCKS 0, getF c SEC_CLOSE_BRG_BLOCKS 0, getF c SEC_SEAL_BRG 0,
     getF c SEC_SEAL_MGR 0, b2n c.pwr.testHold])]

/-- SEC derives the Alias key over measurements 1, 2 and 4; without readable fuses it derives none (R565, R566). -/
def deriveAlias (c : Chip) : Chip :=
  let a := if c.sec.fuseUe then none else some (aliasSeed Config.romDigest (imageDigest c false) (fuseDigest c))
  { c with sec := { c.sec with aliasOf := a } }

/-- SEC verifies the management image and releases MC0 to MC3; the Alias key is derived once for each cold reset. -/
def bootMgt (c : Chip) : Chip :=
  let r := bootType false c
  let c1 := runCores (setF SEC_STAT_MGT_OK 0 (b2n r.1) r.2)
  whenB c1.sec.aliasOf.isNone deriveAlias c1

/-- SEC verifies the prefect image, and the forms load it. -/
def bootPfx (c : Chip) : Chip :=
  let r := bootType true c
  setF SEC_STAT_PFX_OK 0 (b2n r.1) r.2

/-! ### Updates (R570 to R573) -/

/-- A command ends with a status, and SEC_UPD_DONE. -/
def updEnd (st : Nat) (c : Chip) : Chip := event .sec 0 0 (setF SEC_UPD_CTRL_STATUS 0 st (setF SEC_UPD_CTRL_GO 0 0 c))

/-- A command of SEC_UPD_CTRL: OP and TYPE are set; one that finds another running ends with BUSY. -/
def updCommand (op : Nat) (pfx : Bool) (f : Chip → Chip) (c : Chip) : Chip :=
  if isF c SEC_UPD_CTRL_GO 0 then setF SEC_UPD_CTRL_STATUS 0 2 c
  else f (setF SEC_UPD_CTRL_TYPE 0 (b2n pfx) (setF SEC_UPD_CTRL_OP 0 op c))

/-- The update that is open, if any, before its VERIFY. -/
def setOpen (o : Option Bool) (c : Chip) : Chip :=
  { c with sec := { c.sec with open_ := o, checked := false, verified := false } }

/-- VERIFY has run on the open slot, with or without success: no more words are taken (R571 step 2). -/
def setChecked (ok : Bool) (c : Chip) : Chip := { c with sec := { c.sec with checked := true, verified := ok } }

/-- BEGIN erases the inactive slot and opens it. -/
def updBegin (pfx : Bool) (c : Chip) : Chip :=
  let b := !activeSlot c pfx
  updEnd 1 (setF SEC_UPD_LEN_BYTES 0 0 (setOpen (some pfx) (setSlot pfx b { words := some [], spoiled := false } c)))

def updAt (pa : Path) (op : Nat) (pfx : Bool) (f : Chip → Chip) (s : State) : Out3 :=
  .next (onChip s (reachReg pa .sec 0 0x04C (updCommand op pfx f)))

def execSecUpdBegin (pa : Path) (prefect : Bool) (s : State) : Out3 := updAt pa 1 prefect (updBegin prefect) s

/-- A word appended to the open slot; one beyond 8 MiB ends the update with TOO_LONG. -/
def appendWord (pfx : Bool) (w : Nat) (c : Chip) : Chip :=
  let b := !activeSlot c pfx
  let l := slotWords c pfx b
  if 2097152 ≤ l.length then updEnd 10 (setOpen none (setSlot pfx b { words := some l, spoiled := true } c))
  else setF SEC_UPD_LEN_BYTES 0 (4 * (l.length + 1)) (setSlot pfx b { words := some (l ++ [w]), spoiled := false } c)

/-- A word outside step 2 of an update is ignored: before BEGIN, and once VERIFY has run. -/
def updData (w : Nat) (c : Chip) : Chip :=
  match c.sec.open_ with
  | none => c
  | some pfx => if c.sec.checked then c else appendWord pfx w c

def execSecUpdData (pa : Path) (w : Word) (s : State) : Out3 :=
  .next (onChip s (reachReg pa .sec 0 0x050 (updData w.toNat)))

/-- VERIFY checks the open slot. -/
def updVerify (pfx : Bool) (c : Chip) : Chip :=
  if c.sec.open_ = some pfx then
    let r := verify pfx (!activeSlot c pfx) c
    updEnd r.1 (setChecked (r.1 == 1) r.2)
  else updEnd 9 c

def execSecUpdVerify (pa : Path) (prefect : Bool) (s : State) : Out3 := updAt pa 2 prefect (updVerify prefect) s

/-- The type no longer counts as failed once a verified image of it runs. -/
def clearFailed (pfx : Bool) (c : Chip) : Chip :=
  setF SEC_STAT_FAILED 0 (clearBit (getF c SEC_STAT_FAILED 0) (b2n pfx)) c

/-- A management image is activated: MC0 to MC3 enter reset together and restart from it, and SEC derives the Alias key
again (R572). -/
def activateMgt (c : Chip) : Chip :=
  let c1 := setF SEC_STAT_MGT_OK 0 1 (clearFailed false (forEach [0, 1, 2, 3] coreEnterReset c))
  event .sec 0 1 (updEnd 1 (deriveAlias (runCores c1)))

/-- ACTIVATE marks the verified slot active; a prefect image is then loaded while PFXLOAD is 1, and the candidate
records of the running term are lost. -/
def updActivate (pfx : Bool) (c : Chip) : Chip :=
  if c.sec.open_ = some pfx ∧ c.sec.verified = true then
    let c1 := setOpen none (markActive pfx (!activeSlot c pfx) c)
    if pfx then
      setF SEC_UPD_CTRL_GO 0 1 (setF SEC_STAT_PFXLOAD 0 1 { c1 with mrk := { c1.mrk with rings := [] } })
    else activateMgt c1
  else updEnd 9 c

def execSecUpdActivate (pa : Path) (prefect : Bool) (s : State) : Out3 := updAt pa 3 prefect (updActivate prefect) s

/-- A form's map command still runs: it waits for ring room or for a limit of R338. -/
def formCommandRuns (c : Chip) : Bool :=
  c.rak.waiting.any (fun w => w.1 != 0) ||
    c.map.waiting.any fun w => match w with
      | .command f _ => f != 0
      | _ => false

/-- Every form holds the new image, with its memories cleared, and PFXLOAD clears. -/
def effActivationLoad (c : Chip) : Chip :=
  if isF c SEC_STAT_PFXLOAD 0 && !formCommandRuns c then
    event .sec 0 1 (updEnd 1 (clearFailed true (initAll (setF SEC_STAT_PFX_OK 0 1 (setF SEC_STAT_PFXLOAD 0 0
      (formsForget (fun _ => true) c))))))
  else c

def execPrefectActivationLoad (s : State) : Out3 := .next (onChip s effActivationLoad)

/-- COMMIT_SVN raises the fused minimum of a type to the SVN of its active image, within the 64 fuses; the Alias key
changes where the minimum does (R565, R570). -/
def commitSvn (pfx : Bool) (c : Chip) : Chip :=
  let v := max (fusedMin c pfx) (min 64 (imgSvn (slotWords c pfx (activeSlot c pfx))))
  if v = fusedMin c pfx then updEnd 1 c
  else updEnd 1 (deriveAlias { c with sec := if pfx then { c.sec with pfxMin := some v } else { c.sec with mgtMin := some v } })

def execSecCommitSvn (pa : Path) (prefect : Bool) (s : State) : Out3 := updAt pa 4 prefect (commitSvn prefect) s

/-- Key slots are revoked for good; a write that names the key slot of an active image is ignored. -/
def keyrev (slots : Nat) (c : Chip) : Chip :=
  let used := fun pfx => bit slots (imgKeySlot (slotWords c pfx (activeSlot c pfx)))
  if used false || used true then c else { c with sec := { c.sec with revoked := Nat.lor c.sec.revoked slots } }

def execSecKeyrev (pa : Path) (slots : Fin 16) (s : State) : Out3 :=
  .next (onChip s (reachReg pa .sec 0 0x048 (keyrev slots.val)))

/-! ### SPDM (R575, R576) -/

/-- The responder is there: BRG over MCTP, or the DOE mailbox of a host-facing port whose link is up. -/
def spdmThere (c : Chip) (via : SpdmVia) : Bool :=
  match via with
  | .mctp => brgReaches c
  | .doe p => hostFacing c p && inL0 c p

def sessionKey (via : SpdmVia) : Nat :=
  match via with
  | .mctp => 1024
  | .doe p => p.val

def sessionsOf (c : Chip) (via : SpdmVia) : Nat := kvGet 0 c.sec.sessions (sessionKey via)

/-- An SPDM request: answered 1 to 4 with signed data, or 0 with an error. -/
def spdm (via : SpdmVia) (what : Nat) (own : List Nat) (ok : Bool) (c : Chip) : Chip :=
  if spdmThere c via then
    let c1 := count .sec 0 3 c
    if ok && !c.sec.fuseUe then send (.spdm via what (Config.spdmData what (c.sec.aliasOf.getD 0) own (measured c))) c1
    else send (.spdm via 0 []) c1
  else c

def execSpdmGetCertificate (via : SpdmVia) (s : State) : Out3 := .next (onChip s (spdm via 1 [] true))

def execSpdmChallenge (via : SpdmVia) (nonce : BitVec 256) (s : State) : Out3 :=
  .next (onChip s (spdm via 2 [nonce.toNat] true))

def execSpdmGetMeasurements (via : SpdmVia) (nonce : BitVec 256) (s : State) : Out3 :=
  .next (onChip s (spdm via 3 [nonce.toNat] true))

/-- KEY_EXCHANGE opens a session, of at most two on the responder. -/
def keyExchange (via : SpdmVia) (x : Nat) (c : Chip) : Chip :=
  let room := sessionsOf c via < 2
  let c1 := spdm via 4 [x] room c
  if spdmThere c via && room && !c.sec.fuseUe then
    count .sec 0 4 { c1 with sec := { c1.sec with sessions := kvSet 0 c1.sec.sessions (sessionKey via) (sessionsOf c via + 1) } }
  else c1

def execSpdmKeyExchange (via : SpdmVia) (exchange : Nat) (s : State) : Out3 := .next (onChip s (keyExchange via exchange))

/-! ### Link IDE (R577, R578) -/

def ideOf (c : Chip) (p : Nat) : IdeSt := kvGet IdeSt.idle c.sec.ide p
def setIde (p : Nat) (x : IdeSt) (c : Chip) : Chip :=
  { c with sec := { c.sec with ide := kvSet IdeSt.idle c.sec.ide p x } }

/-- Both directions run: PRT_STAT.IDE_ON. -/
def ideShows (p : Nat) (c : Chip) : Chip :=
  let x := ideOf c p
  setF PRT_STAT_IDE_ON p (b2n (x.txGo.isSome && x.rxGo.isSome)) c

/-- An IDE_KM request on the port's DOE session, answered 1 to 4, or with 0 where it is refused. -/
def ideKm (p what : Nat) (f : IdeSt → Option IdeSt) (c : Chip) : Chip :=
  if hostFacing c p && inL0 c p then
    let c1 := count .sec 0 5 c
    if kvGet 0 c.sec.sessions p = 0 then send (.ideKm p 0) c1
    else match f (ideOf c p) with
      | some x => send (.ideKm p what) (ideShows p (setIde p x c1))
      | none => send (.ideKm p 0) c1
  else c

def execIdeKmQuery (p : Port) (s : State) : Out3 := .next (onChip s (ideKm p 1 fun x => some x))

def progKey (tx : Bool) (set : Nat) (key : BitVec 256) (x : IdeSt) : IdeSt :=
  if tx then { x with txKey := kvPut x.txKey set key } else { x with rxKey := kvPut x.rxKey set key }

def execIdeKmKeyProg (p : Port) (tx : Bool) (set : Fin 2) (key : BitVec 256) (s : State) : Out3 :=
  .next (onChip s (ideKm p 2 fun x => some (progKey tx set.val key x)))

/-- A key set runs in one direction, once a key of it is programmed. -/
def setGo (tx : Bool) (set : Nat) (x : IdeSt) : Option IdeSt :=
  if (kvFind (if tx then x.txKey else x.rxKey) set).isSome then
    some (if tx then { x with txGo := some set } else { x with rxGo := some set })
  else none

def execIdeKmKSetGo (p : Port) (tx : Bool) (set : Fin 2) (s : State) : Out3 :=
  .next (onChip s (ideKm p 3 (setGo tx set.val)))

/-- A key set stops, and its key is gone. -/
def setStop (tx : Bool) (set : Nat) (x : IdeSt) : IdeSt :=
  if tx then { x with txKey := kvErase x.txKey set, txGo := if x.txGo = some set then none else x.txGo }
  else { x with rxKey := kvErase x.rxKey set, rxGo := if x.rxGo = some set then none else x.rxGo }

def execIdeKmKSetStop (p : Port) (tx : Bool) (set : Fin 2) (s : State) : Out3 :=
  .next (onChip s (ideKm p 4 fun x => some (setStop tx set.val x)))

/-- An integrity failure: the stream is insecure, and the first port is recorded. -/
def effIdeFail (p : Nat) (c : Chip) : Chip :=
  if isF c PRT_STAT_IDE_ON p then
    let c1 := ideShows p (setIde p { ideOf c p with txGo := none, rxGo := none } c)
    raise .sec 0 2 (if isF c1 SEC_IDE_ERR_VALID 0 then c1 else setF SEC_IDE_ERR_VALID 0 1 (setF SEC_IDE_ERR_PORT 0 p c1))
  else c

def execSecIdeFail (p : Port) (s : State) : Out3 := .next (onChip s (effIdeFail p))

/-! ### Prefect forms (R574) -/

/-- A form with the image running fails: it restarts with its memories cleared. -/
def formFails (f b : Nat) (c : Chip) : Chip :=
  if isF c SEC_STAT_PFX_OK 0 && pageStarted c .pfxF f then
    count .pfxF f 4 (raise .pfxF f b (formsForget (· == f) c))
  else c

def execPfxFormHang (f : Grp) (s : State) : Out3 := .next (onChip s (formFails f 2))

def execPfxMemUe (f : Grp) (s : State) : Out3 := .next (onChip s (formFails f 1))

end Sys2Proof.Machine
end

