-- ==== Sys2Proof/Machine/Mem.lean ====
section
/-!
DEFINITION. The addressed memory of the block: the tenancies' record buffers TEN_REC, 1,024 bytes each
(14_tenancy_qos.md R468, R469), as one sparse memory of bytes; an unlisted byte reads 0 (R474).
-/
namespace Sys2Proof.Machine

/-- Addresses strictly rising from a bound, and no byte listed that an unlisted address reads as (0). -/
def cellsFrom : Nat → List Host.Cell → Bool
  | _, [] => true
  | lo, (a, b) :: r => decide (lo ≤ a) && (decide (b ≠ 0) && cellsFrom (a + 1) r)

/-- The canonical form of a memory. -/
def Memory.wf (m : List Host.Cell) : Bool := cellsFrom 0 m

/-- The byte at an address. -/
def readByte : List Host.Cell → Nat → Byte
  | [], _ => 0
  | (a, b) :: r, x => if x = a then b else readByte r x

/-- A byte put at an address; a byte of 0 is not listed. -/
def writeByte : List Host.Cell → Nat → Byte → List Host.Cell
  | [], x, v => if v = 0 then [] else [(x, v)]
  | (a, b) :: r, x, v =>
    if x < a then (if v = 0 then (a, b) :: r else (x, v) :: (a, b) :: r)
    else if x = a then (if v = 0 then r else (a, v) :: r)
    else (a, b) :: writeByte r x v

/-- Bytes put at rising addresses. -/
def writeBytes (m : List Host.Cell) (x : Nat) : List Byte → List Host.Cell
  | [] => m
  | v :: vs => writeBytes (writeByte m x v) (x + 1) vs

/-- n bytes from an address on. -/
def readBytes (m : List Host.Cell) (x : Nat) : Nat → List Byte
  | 0 => []
  | n + 1 => readByte m x :: readBytes m (x + 1) n

/-- A number as n bytes, lowest first (00_scope.md R6). -/
def leBytes : Nat → Nat → List Byte
  | 0, _ => []
  | n + 1, v => BitVec.ofNat 8 v :: leBytes n (v / 256)

/-- Bytes, lowest first, as a number. -/
def leNat : List Byte → Nat
  | [] => 0
  | b :: r => b.toNat + 256 * leNat r

/-- Number of n bytes at an address. -/
def readLe (m : List Host.Cell) (x n : Nat) : Nat := leNat (readBytes m x n)

/-- One bit of the reflected CRC-32 of R468. -/
def crcBit (v : BitVec 32) : BitVec 32 :=
  if v.getLsbD 0 then (v >>> 1) ^^^ 0xEDB88320#32 else v >>> 1

def crcBits : Nat → BitVec 32 → BitVec 32
  | 0, v => v
  | n + 1, v => crcBits n (crcBit v)

/-- CRC-32, polynomial 0x04C1_1DB7 bit-reflected, initial value and final XOR 0xFFFF_FFFF (R468). -/
def crc32 (l : List Byte) : BitVec 32 :=
  (l.foldl (fun v b => crcBits 8 (v ^^^ b.setWidth 32)) 0xFFFFFFFF#32) ^^^ 0xFFFFFFFF#32

/-- Address of byte `off` of a tenancy's record buffer. -/
def recAddr (t off : Nat) : Nat := t * 1024 + off

/-- Where the buffer of tenancy t is cleared: no byte of it listed. -/
def clearRec (m : List Host.Cell) (t : Nat) : List Host.Cell := m.filter fun e => !(e.1 / 1024 == t)

end Sys2Proof.Machine
end

