-- ==== Sys2Proof/Machine/Slt.lean ====
section
/-!
DEFINITION. The commands of the slates: waiting writes, drains, bells, lost lines and the slate registers
(13_ordering.md R430 to R449).
-/
namespace Sys2Proof.Machine

def execSlateWaitResume (p : Port) (s : State) : Out3 := .next (onChip s fun c => settle (ingressNext p c))

/-- An OPEN entry reaches its age limit (R431). -/
def effAgeDrain (p l ecc : Nat) (c : Chip) : Chip :=
  match openOn c p l with
  | some e => if tmbRuns c then settle (withEntryEcc ecc e (drainEntry 0 e) c) else c
  | none => c

def execSlateAgeDrain (p : Port) (line : PLine) (ecc : Fin 4) (s : State) : Out3 :=
  .next (onChip s (effAgeDrain p line ecc))

/-- A drain write has ended: its entry is freed, or its line lost (R433, R441). -/
def effDrainComplete (p l ecc : Nat) (c : Chip) : Chip :=
  match endedDrain c p l with
  | some (e, t) =>
    if ecc ≤ 1 then settle (withEntryEcc ecc e (endDrain t e) c)
    else settle (withEntryEcc ecc e id (dropTxn t.id c))
  | none => c

def execSlateDrainComplete (p : Port) (line : PLine) (ecc : Fin 4) (s : State) : Out3 :=
  .next (onChip s (effDrainComplete p line ecc))

/-! ### Bells -/

/-- The control page admits an access (14_tenancy_qos.md R453). -/
def pageAdmits (c : Chip) (p t : Nat) (pasid : Option Nat) : Bool :=
  tenPort c t == p && tenState c t != 0 && pasidIn c t pasid

/-- A refused control-page access is counted and raises TEN_PAGE_DENIED (R453). -/
def pageDenied (t : Nat) (c : Chip) : Chip := event .ten t 2 (count .ten t 10 c)

/-- A bell is decided: it covers every entry of its tenancy, and makes the OPEN ones DRAINING (R436). -/
def ringBell (x : Nat) (b : Bell) (c : Chip) : Chip :=
  let es := c.slt.entries.filter fun e => e.ten == x
  let s := tenSt c x
  drainIds 3 ((es.filter fun e => !e.draining).map (·.id))
    (setTenSt x { s with bells := s.bells ++ [{ b with covers := es.map (·.id) }] } c)

/-- A bell that nothing keeps open, and that no earlier bell holds back, completes at once (R436). -/
def bellNow (x : Nat) (c : Chip) : Chip := if (tenSt c x).bells.length = 1 then bellFinish x c else c

def effBell (p t : Nat) (pasid : Option Nat) (eight : Bool) (tag : Nat) (c : Chip) : Chip :=
  if !carriesMem c p then c
  else if !pageAdmits c p t pasid then send (.host p tag .ur) (ioCredits p false (pageDenied t c))
  else
    let b : Bell := { port := p, tag := tag, eight := eight, gen := tenGen c t, covers := [], internal := false,
                      limit := false, lostLink := false }
    ioCredits p false (bellNow t (settle (ringBell t b (count .slt p 5 c))))

def execBell (p : Port) (t : Ten) (pasid : Option (Fin 1048576)) (eight : Bool) (tag : Nat) (s : State) : Out3 :=
  .next (onChip s (effBell p t (pasid.map (·.val)) eight tag))

def execBellComplete (t : Ten) (s : State) : Out3 := .next (onChip s (bellFinish t))

/-- A covered entry at the limit: one whose write has completed is visible, any other is lost (R438, R448). -/
def limitEntry (i : Nat) (c : Chip) : Chip :=
  match slateEntry c i with
  | none => c
  | some e => match endedDrain c e.port e.line with
    | some (d, t) => if d.id = i then endDrain t e c else declareLost 3 e c
    | none => declareLost 3 e c

/-- A covered write has neither become visible nor failed: its drain has not ended (R438). -/
def unended (c : Chip) (i : Nat) : Bool :=
  match slateEntry c i with
  | some e => !(endedDrain c e.port e.line).any fun d => d.1.id == i
  | none => false

/-- Bell k of a tenancy, when its limit expires: it shows LIMIT if a covered write is then lost by it (R438, R448). -/
def bellAtLimit (x k : Nat) (b : Bell) (c : Chip) : Chip :=
  let s := tenSt c x
  setTenSt x { s with bells := mapAt s.bells k fun b1 => { b1 with limit := b.covers.any (unended c) } } c

/-- TEN_BELL_LIMIT expires for open bell k of the tenancy, counted from the oldest, as the field stood when that bell was
decided; the bell completes, and every earlier bell with it, as each covers no more than this one (R436, R438). -/
def effBellLimit (x k : Nat) (c : Chip) : Chip :=
  match (tenSt c x).bells[k]? with
  | none => c
  | some b =>
    if b.covers.isEmpty || !tmbRuns c then c
    else forEach (List.range (k + 1)) (fun _ c => bellFinish x c) (settle (forEach b.covers limitEntry (bellAtLimit x k b c)))

def execBellLimit (t : Ten) (k : Nat) (s : State) : Out3 := .next (onChip s (effBellLimit t k))

/-! ### Draining a slate, lost lines, registers -/

/-- SLT_DRAIN.GO: every entry present drains (R431). -/
def drainSlate (p : Nat) (c : Chip) : Chip :=
  let ids := (c.slt.entries.filter fun e => e.port == p).map (·.id)
  let old := kvGet [] c.slt.drainAll p
  settle (drainIds 4 ids (setF SLT_DRAIN_GO p 1
    { c with slt := { c.slt with drainAll := kvPut c.slt.drainAll p (ids.foldl addNew old) } }))

def execSltDrain (pa : Path) (p : Port) (s : State) : Out3 := .next (onChip s (reachReg pa .slt p 0x04C (drainSlate p)))

def effDrainDone (p : Nat) (c : Chip) : Chip :=
  if isF c SLT_DRAIN_GO p && (kvGet [] c.slt.drainAll p).isEmpty then
    event .slt p 1 (setF SLT_DRAIN_GO p 0 { c with slt := { c.slt with drainAll := kvErase c.slt.drainAll p } })
  else c

def execSltDrainDone (p : Port) (s : State) : Out3 := .next (onChip s (effDrainDone p))

/-- The conditions of R443 for a poison write: the tile is placed and a location reachable, no drain of the line is in
flight (R438), and no full-line write of it is under way (R448). -/
def poisonReady (c : Chip) (l : Nat) : Bool :=
  let e := entryOf c (tileOfLine l)
  !c.slt.poisoning.contains l && (e.state == 1 || e.state == 2 || e.state == 3) &&
    !(liveLocs c (tileOfLine l) e).isEmpty && mapRunning c &&
    !(c.txns.any fun t => t.line == l && (t.kind == .drain || fullLineWrite t))

def effPoisonWrite (l : Nat) (c : Chip) : Chip :=
  match c.slt.lost.find? fun x => x.1 == l with
  | some x =>
    if poisonReady c l then
      let c1 := count .slt x.2 8 { c with slt := { c.slt with poisoning := addNew c.slt.poisoning l } }
      settle (startTxn { ownTxn c1 .poison l with poison := true } homeGo c1)
    else c
  | none => c

def execLostLinePoisonWrite (line : PLine) (s : State) : Out3 := .next (onChip s (effPoisonWrite line))

def occHwClr (p : Nat) (c : Chip) : Chip := setF SLT_OCC_HW_HW p (slateShown c p) c

def execSltOccHwClr (pa : Path) (p : Port) (s : State) : Out3 :=
  .next (onChip s (reachReg pa .slt p 0x050 (occHwClr p)))

end Sys2Proof.Machine
end

