-- ==== Sys2Proof/Machine/Ten.lean ====
section
/-!
DEFINITION. The commands of tenancies: states, resets, freezes, save and restore, the control page, buckets and
shaper slots (14_tenancy_qos.md R451 to R473).
-/
namespace Sys2Proof.Machine

/-! ### Commands of TEN_CMD (R456) -/

/-- A write of TEN_CMD with GO = 1: ignored while a command runs. -/
def tenCommand (t : Nat) (f : Chip → Chip) (c : Chip) : Chip := if isF c TEN_CMD_GO t then c else f c

def notPool (c : Chip) (t : Nat) : Bool := pers c (tenPort c t) != 0

/-- STATUS of an ENABLE's further checks: 1 where all pass. -/
def enableStatus (c : Chip) (t : Nat) : Nat :=
  if notPool c t then 4
  else if pasidClash c t (tenPort c t) (getF c TEN_PASID_LO_PASID t) (getF c TEN_PASID_HI_PASID t) then 5
  else if 1024 < qSumWithout c (tenPort c t) t + qPromise c t then 6
  else 1

def enableTen (t : Nat) (c : Chip) : Chip :=
  if tenState c t != 0 then cmdRefuse t 1 3 c
  else if enableStatus c t != 1 then cmdRefuse t 1 (enableStatus c t) c
  else cmdEnd t 1 (setF TEN_STAT_STATE t 1 (cmdBegin t 1 c))

def execTenEnable (pa : Path) (t : Ten) (s : State) : Out3 :=
  .next (onChip s (reachReg pa .ten t 0x050 (tenCommand t (enableTen t))))

/-- The job stops: at once, or after the chunk that runs (10_placement.md R354). With none, its status says so from this reset
on (R353). -/
def stopJob (t : Nat) (c : Chip) : Chip :=
  let s := tenSt c t
  if !s.job.go then setTenSt t { s with job := { s.job with status := 0 } } c
  else if s.job.chunk then setTenSt t { s with job := { s.job with stopping := true } } c
  else jobEnd t 4 c

/-- Step 1 of a reset (R463). -/
def startReset (t : Nat) (self disabling : Bool) (c : Chip) : Chip :=
  let s := tenSt c t
  let c1 := setTenSt t { s with prev := tenState c t, resetting := true, disabling := disabling, selfReset := self }
    (setF TEN_STAT_STATE t 3 c)
  settle (stopJob t (drainWhere 6 (fun e => e.ten == t) (shaperFlush t true c1)))

def disableTen (t : Nat) (c : Chip) : Chip :=
  if tenState c t != 1 && tenState c t != 2 then cmdRefuse t 2 3 c
  else if tenHasWindow c t then cmdRefuse t 2 7 c
  else startReset t false true (cmdBegin t 2 c)

def execTenDisable (pa : Path) (t : Ten) (s : State) : Out3 :=
  .next (onChip s (reachReg pa .ten t 0x050 (tenCommand t (disableTen t))))

/-- The job pauses: at once, or after the chunk that runs (R466). -/
def pauseJob (t : Nat) (c : Chip) : Chip :=
  let s := tenSt c t
  if s.job.go && !s.job.chunk then setTenSt t { s with job := { s.job with paused := true } } c else c

/-- A bell of the part itself (R466). -/
def internalBell (c : Chip) (t : Nat) : Bell :=
  { port := tenPort c t, tag := 0, eight := false, gen := tenGen c t, covers := [], internal := true, limit := false,
    lostLink := false }

/-- A FREEZE is decided (R466). -/
def freezeTen (t : Nat) (c : Chip) : Chip :=
  if tenState c t != 1 then cmdRefuse t 3 3 c
  else
    let c1 := setF TEN_STAT_STATE t 2 (cmdBegin t 3 c)
    let c2 := setTenSt t { tenSt c1 t with freezing := true } c1
    settle (pauseJob t (ringBell t (internalBell c2 t) (shaperFlush t true c2)))

def execTenFreeze (pa : Path) (t : Ten) (s : State) : Out3 :=
  .next (onChip s (reachReg pa .ten t 0x050 (tenCommand t (freezeTen t))))

/-- No request of the tenancy remains between attribution and hand-off to XBR, MAP or SLT (R463 step 2). -/
def tenDrained (c : Chip) (t : Nat) : Bool :=
  !c.txns.any fun u => u.ten == some t && u.kind != .jobRd && u.kind != .jobWr &&
    (u.stage == .shaper || u.stage == .slateIngress || u.stage == .slateHold || u.stage == .devOrder)

/-- An internal bell at the front that covers nothing any more has completed. -/
def internalBellEnds (t : Nat) (c : Chip) : Chip :=
  match (tenSt c t).bells with
  | b :: _ => if b.internal then bellFinish t c else c
  | [] => c

/-- The three things that end a FREEZE (R466). -/
def freezeDone (c : Chip) (t : Nat) : Bool :=
  tenDrained c t && !((tenSt c t).bells.any fun b => b.internal) && !(tenSt c t).job.chunk

def effFreezeComplete (t : Nat) (c : Chip) : Chip :=
  let c1 := internalBellEnds t c
  if (tenSt c1 t).freezing && freezeDone c1 t then
    cmdEnd t 1 (count .ten t 7 (setTenSt t { tenSt c1 t with freezing := false } c1))
  else c1

def execTenFreezeComplete (t : Ten) (s : State) : Out3 := .next (onChip s (effFreezeComplete t))

def thawTen (t : Nat) (c : Chip) : Chip :=
  if tenState c t != 2 then cmdRefuse t 4 3 c
  else
    let s := tenSt c t
    cmdEnd t 1 (setTenSt t { s with job := { s.job with paused := false } } (setF TEN_STAT_STATE t 1 (cmdBegin t 4 c)))

def execTenThaw (pa : Path) (t : Ten) (s : State) : Out3 :=
  .next (onChip s (reachReg pa .ten t 0x050 (tenCommand t (thawTen t))))

def resetTen (t : Nat) (c : Chip) : Chip :=
  if tenState c t != 1 && tenState c t != 2 then cmdRefuse t 5 3 c
  else startReset t false false (cmdBegin t 5 c)

def execTenReset (pa : Path) (t : Ten) (s : State) : Out3 :=
  .next (onChip s (reachReg pa .ten t 0x050 (tenCommand t (resetTen t))))

/-- A write of TC_SELF.RESET = 1 (R454). -/
def selfReset (t : Nat) (c : Chip) : Chip :=
  if isF c TEN_CFG_SELFRST t && !isF c TEN_CMD_GO t && (tenState c t == 1 || tenState c t == 2) then
    startReset t true false (event .ten t 1 c)
  else count .ten t 10 c

/-- A control-page write: refused ones are discarded (R453). -/
def pageWrite (p t : Nat) (pasid : Option Nat) (f : Chip → Chip) (c : Chip) : Chip :=
  if !carriesMem c p then c
  else ioCredits p true (if pageAdmits c p t pasid then f c else pageDenied t c)

def execTcSelfReset (p : Port) (t : Ten) (pasid : Option (Fin 1048576)) (s : State) : Out3 :=
  .next (onChip s (pageWrite p t (pasid.map (·.val)) (selfReset t)))

/-- A DISABLE clears the job (R456); a chunk that runs keeps its slot until its lines have ended (10_placement.md R354). -/
def forgetJob (t : Nat) (c : Chip) : Chip :=
  let stop (e : Nat × RakSt) : Nat × RakSt := if e.2.work = RakWork.job t then (e.1, { e.2 with stopping := true }) else e
  { c with rak := { c.rak with jobs := without c.rak.jobs t, slots := c.rak.slots.map stop } }

/-- Steps 3 and 4 of a reset (R463); a DISABLE ends in OFF with the loss log and the job cleared (R456). -/
def finishReset (t : Nat) (c : Chip) : Chip :=
  let s := tenSt c t
  let s1 := { s with resetting := false, disabling := false, selfReset := false, seq := 0 }
  let s2 := if s.disabling then { s1 with log := [], ovf := 0, nlost := 0, job := Job.idle } else s1
  let c1 := setTenSt t s2 (whenB s.disabling (forgetJob t) (fillBuckets t (setF TEN_STAT_GEN t (tenGen c t + 1)
    (setF TEN_STAT_STATE t (if s.disabling then 0 else s.prev) (count .ten t 6 c)))))
  whenB (!s.selfReset) (cmdEnd t 1) c1

/-- The record buffer goes with a DISABLE (R456). -/
def resetEnds (t : Nat) (f : Chip → Chip) (s : State) : State :=
  { s with chip := finishReset t (f s.chip),
           recs := if (tenSt s.chip t).disabling then clearRec s.recs t else s.recs }

def effResetDrained (t : Nat) (s : State) : State :=
  if (tenSt s.chip t).resetting && tenDrained s.chip t then resetEnds t id s else s

def execTenResetDrained (t : Ten) (s : State) : Out3 := .next (effResetDrained t s)

/-- TEN_DRAIN.LIMIT expires with the tenancy not drained: a reset goes on with TEN_DRAIN_TIMEOUT, a FREEZE ends with
TIMEOUT and the tenancy stays FROZEN (R463, R466). -/
def effDrainTimeout (t : Nat) (s : State) : State :=
  let x := tenSt s.chip t
  if !tmbRuns s.chip then s
  else if x.resetting then (if tenDrained s.chip t then s else resetEnds t (raise .ten t 0) s)
  else if x.freezing && !freezeDone (internalBellEnds t s.chip) t then
    onChip s fun c => cmdEnd t 9 (setTenSt t { x with freezing := false } c)
  else s

def execTenDrainTimeout (t : Ten) (s : State) : Out3 := .next (effDrainTimeout t s)

def execTenCmdBadOp (pa : Path) (t : Ten) (s : State) : Out3 :=
  .next (onChip s (reachReg pa .ten t 0x050 (tenCommand t (cmdRefuse t 0 2))))

/-! ### The record (R468 to R470) -/

/-- Fields of a tenancy's record as (offset, size, value), R468's table. -/
def recordFields (c : Chip) (t : Nat) : List (Nat × Nat × Nat) :=
  let s := tenSt c t
  let j := s.job
  let on (v : Nat) : Nat := if j.paused then v else 0
  [(0x000, 4, 0x52454E54), (0x004, 2, 1), (0x006, 2, 1024), (0x008, 2, fsid c), (0x00A, 2, tenPort c t), (0x00C, 2, t),
   (0x00E, 2, tenGen c t), (0x010, 8, nowNs c), (0x018, 2, s.seq),
   (0x01A, 1, b2n (s.nlost != 0) + 2 * b2n j.paused), (0x01B, 1, min s.nlost 255), (0x01C, 4, s.ovf),
   (0x020, 4, getF c TEN_PASID_LO_PASID t), (0x024, 4, getF c TEN_PASID_HI_PASID t),
   (0x028, 8, getF c TEN_ABASE_HI_ABASE t * 2 ^ 32 + getF c TEN_ABASE_LO_ABASE t * 4096),
   (0x030, 2, getF c TEN_DRAIN_LIMIT t), (0x032, 2, getF c TEN_BELL_LIMIT_LIMIT t), (0x034, 1, getF c SHP_WEIGHT_W t),
   (0x035, 1, getF c SHP_PRATE_EN t + 2 * getF c SHP_SRATE_EN t + 4 * getF c TEN_CFG_SELFRST t),
   (0x036, 2, getF c SHP_SBURST_QMAX t), (0x038, 4, getF c SHP_PRATE_RATE t), (0x03C, 4, getF c SHP_PBURST_BURST t),
   (0x040, 4, getF c SHP_SRATE_RATE t), (0x044, 4, getF c SHP_SBURST_BURST t), (0x080, 1, on j.kind),
   (0x081, 1, j.status), (0x088, 8, on j.src), (0x090, 8, on j.dst), (0x098, 8, on j.len), (0x0A0, 8, on j.bytes),
   (0x0F8, 1, s.log.length)] ++ s.log.mapIdx fun i e => (0x100 + 8 * i, 8, lossMgmt e)

/-- Byte i of a list of fields; bytes of no field are 0. -/
def fieldByte (fs : List (Nat × Nat × Nat)) (i : Nat) : Byte :=
  match fs.find? fun f => f.1 ≤ i && i < f.1 + f.2.1 with
  | some f => BitVec.ofNat 8 (f.2.2 / 256 ^ (i - f.1))
  | none => 0

/-- The 1,024 bytes of a record, its CRC last. -/
def recordBytes (c : Chip) (t : Nat) : List Byte :=
  let body := (List.range 1020).map (fieldByte (recordFields c t))
  body ++ leBytes 4 (crc32 body).toNat

def saveTen (t : Nat) (s : State) : State :=
  if tenState s.chip t != 2 then onChip s (cmdRefuse t 6 3)
  else
    { s with chip := cmdEnd t 1 (count .ten t 8 (cmdBegin t 6 s.chip)),
             recs := writeBytes (clearRec s.recs t) (recAddr t 0) (recordBytes s.chip t) }

/-- A command of TEN_CMD that reads or writes the record buffer, reached through a path. -/
def tenRecCommand (pa : Path) (t : Nat) (f : State → State) (s : State) : State :=
  if !pathUp s.chip pa || pathClosed s.chip pa (blockOf .ten) || !pageStarted s.chip .ten t then onChip s (reachReg pa .ten t 0x050 id)
  else if isF s.chip TEN_CMD_GO t then s
  else f s

def execTenSave (pa : Path) (t : Ten) (s : State) : Out3 := .next (tenRecCommand pa t (saveTen t) s)

/-- Signature, version, length and CRC of a record (R470). -/
def recordValid (m : List Host.Cell) (t : Nat) : Bool :=
  let r (o n : Nat) : Nat := readLe m (recAddr t o) n
  r 0 4 == 0x52454E54 && r 4 2 == 1 && r 6 2 == 1024 &&
    r 0x3FC 4 == (crc32 (readBytes m (recAddr t 0) 1020)).toNat

/-- A PASID of a record: the 20 bits that the tenancy's register takes (log entry 46). -/
def recordPasid (r : Nat → Nat → Nat) (o : Nat) : Nat := bits (r o 4) 0 20

/-- STATUS of a RESTORE's checks (R470): 1 where all pass. -/
def restoreStatus (s : State) (t : Nat) : Nat :=
  let r (o n : Nat) : Nat := readLe s.recs (recAddr t o) n
  let p := tenPort s.chip t
  if !recordValid s.recs t then 8
  else if notPool s.chip t then 4
  else if pasidClash s.chip t p (recordPasid r 0x020) (recordPasid r 0x024) then 5
  else if 1024 < qSumWithout s.chip p t + (if bit (r 0x035 1) 1 then r 0x036 2 else 0) then 6
  else 1

/-- A setting taken from a record, if its field can hold it. -/
def takeFld (X : Fld) (t v : Nat) (c : Chip) : Chip := if fldTakes X v then setF X t v c else c

/-- Settings that the record lists. -/
def recordSettings (r : Nat → Nat → Nat) : List (Fld × Nat) :=
  [(TEN_PASID_LO_PASID, recordPasid r 0x020), (TEN_PASID_HI_PASID, recordPasid r 0x024), (TEN_ABASE_LO_ABASE, bits (r 0x028 8) 12 20),
   (TEN_ABASE_HI_ABASE, bits (r 0x028 8) 32 18), (TEN_DRAIN_LIMIT, r 0x030 2), (TEN_BELL_LIMIT_LIMIT, r 0x032 2),
   (SHP_WEIGHT_W, r 0x034 1), (SHP_PRATE_EN, bits (r 0x035 1) 0 1), (SHP_SRATE_EN, bits (r 0x035 1) 1 1),
   (TEN_CFG_SELFRST, bits (r 0x035 1) 2 1), (SHP_SBURST_QMAX, r 0x036 2), (SHP_PRATE_RATE, r 0x038 4),
   (SHP_PBURST_BURST, r 0x03C 4), (SHP_SRATE_RATE, r 0x040 4), (SHP_SBURST_BURST, r 0x044 4),
   (TEN_STAT_GEN, (r 0x00E 2 + 1) % 65536), (TEN_STAT_STATE, 2)]

/-- The paused job of a record. -/
def recordJob (r : Nat → Nat → Nat) : Job :=
  { Job.idle with kind := r 0x080 1, status := r 0x081 1, src := r 0x088 8, dst := r 0x090 8, len := r 0x098 8,
                  bytes := r 0x0A0 8, go := true, started := false, paused := true }

/-- Loss log, counts and job of a record. -/
def recordTenSt (r : Nat → Nat → Nat) (x : TenSt) : TenSt :=
  let y := { x with
    log := (List.range (min (r 0x0F8 1) 64)).map (fun i =>
      { line := r (0x100 + 8 * i) 8 % 2 ^ 44, cause := bits (r (0x100 + 8 * i) 8) 56 3 }),
    ovf := min (r 0x01C 4) (2 ^ 24 - 1), seq := r 0x018 2, nlost := if bit (r 0x01A 1) 0 then max 1 (r 0x01B 1) else 0 }
  if bit (r 0x01A 1) 1 then
    let j := recordJob r
    { y with job := j, jSrc := j.src, jDst := j.dst, jLen := j.len, jKind := j.kind }
  else y

/-- A restored job waits for a slot at THAW. -/
def queueJob (t : Nat) (c : Chip) : Chip :=
  if (tenSt c t).job.go then { c with rak := { c.rak with jobs := addNew c.rak.jobs t } } else c

def restoreTen (t : Nat) (s : State) : State :=
  if tenState s.chip t != 0 then onChip s (cmdRefuse t 7 3)
  else if restoreStatus s t != 1 then onChip s (cmdRefuse t 7 (restoreStatus s t))
  else
    let r (o n : Nat) : Nat := readLe s.recs (recAddr t o) n
    onChip s fun c =>
      let c1 := forEach (recordSettings r) (fun e c => takeFld e.1 t e.2 c) (cmdBegin t 7 c)
      cmdEnd t 1 (count .ten t 9 (queueJob t (setTenSt t (recordTenSt r (tenSt c1 t)) c1)))

def execTenRestore (pa : Path) (t : Ten) (s : State) : Out3 := .next (tenRecCommand pa t (restoreTen t) s)

/-! ### Tenant jobs: submission (10_placement.md R351) -/

/-- The rules of R351 on a job's kind, addresses and length. -/
def jobLegal (k src dst len : Nat) : Bool :=
  (k == 1 || k == 2) && dst % 64 == 0 && len % 64 == 0 && 64 ≤ len && len ≤ 2 ^ 30 &&
    (k == 2 || (src % 64 == 0 && !overlap src len dst len))

/-- TC_JOB_CTRL written with GO = 1: a job starts to wait, or ends at once with DENIED. -/
def submitJob (t : Nat) (c : Chip) : Chip :=
  let s := tenSt c t
  if jobLegal s.jKind s.jSrc s.jDst s.jLen then
    let j : Job := { Job.idle with kind := s.jKind, src := s.jSrc, dst := s.jDst, len := s.jLen, status := s.job.status,
                                   go := true, paused := tenState c t == 2,
                                   waitLines := (c.slt.entries.filter fun e => e.ten == t).map (·.id) }
    queueJob t (setTenSt t { s with job := j } c)
  else setTenSt t { s with job := { s.job with status := 2 } } c

/-- A write of TC_JOB_CTRL (R454). -/
def jobCtrlWrite (t v : Nat) (c : Chip) : Chip :=
  let s := tenSt c t
  if s.job.go then c
  else
    let c1 := setTenSt t { s with jKind := bits v 0 2 } c
    whenB (bit v 31) (submitJob t) c1

def execTenJobSubmit (p : Port) (t : Ten) (pasid : Option (Fin 1048576)) (kind : Fin 4) (s : State) : Out3 :=
  .next (onChip s (pageWrite p t (pasid.map (·.val)) (jobCtrlWrite t (2 ^ 31 + kind.val))))

/-! ### The control page (R453, R454) -/

/-- Low and high half of a 64-bit value. -/
def half (v : Nat) (hi : Bool) : Nat := if hi then v / 2 ^ 32 % 2 ^ 32 else v % 2 ^ 32

/-- A 32-bit word of the control page. -/
def ctlRead (c : Chip) (t o : Nat) : Nat :=
  let s := tenSt c t
  if o = 0x000 then tenGen c t * 2 ^ 16 + t
  else if o = 0x004 then tenState c t * 2 ^ 29
  else if o = 0x008 then getF c TEN_ABASE_LO_ABASE t * 4096
  else if o = 0x00C then getF c TEN_ABASE_HI_ABASE t
  else if o = 0x100 ∨ o = 0x104 then half s.jSrc (o = 0x104)
  else if o = 0x108 ∨ o = 0x10C then half s.jDst (o = 0x10C)
  else if o = 0x110 then s.jLen
  else if o = 0x114 then b2n s.job.go * 2 ^ 31 + s.jKind
  else if o = 0x118 then s.job.status * 2 ^ 28 + (s.job.bytes + 65535) / 65536
  else if o = 0x200 then s.ovf * 256 + s.log.length
  else if 0x300 ≤ o ∧ o < 0x500 then
    match s.log[(o - 0x300) / 8]? with
    | some e => half (lossHost c t e) (o % 8 == 4)
    | none => 0
  else 0

/-- A job register, discarded while a job runs or is paused (R454). -/
def jobReg (t : Nat) (f : TenSt → TenSt) (c : Chip) : Chip :=
  if (tenSt c t).job.go then c else setTenSt t (f (tenSt c t)) c

/-- A write of a 32-bit word of the control page. -/
def ctlWrite (t o v : Nat) (c : Chip) : Chip :=
  if o = 0x008 then setF TEN_ABASE_LO_ABASE t (bits v 12 20) c
  else if o = 0x00C then setF TEN_ABASE_HI_ABASE t (bits v 0 18) c
  else if o = 0x010 then whenB (bit v 0) (selfReset t) c
  else if o = 0x100 then jobReg t (fun s => { s with jSrc := s.jSrc / 2 ^ 32 * 2 ^ 32 + v }) c
  else if o = 0x104 then jobReg t (fun s => { s with jSrc := bits v 0 18 * 2 ^ 32 + s.jSrc % 2 ^ 32 }) c
  else if o = 0x108 then jobReg t (fun s => { s with jDst := s.jDst / 2 ^ 32 * 2 ^ 32 + v }) c
  else if o = 0x10C then jobReg t (fun s => { s with jDst := bits v 0 18 * 2 ^ 32 + s.jDst % 2 ^ 32 }) c
  else if o = 0x110 then jobReg t (fun s => { s with jLen := bits v 0 31 }) c
  else if o = 0x114 then jobCtrlWrite t v c
  else if o = 0x204 then clearLoss t v c
  else c

/-- The value of a control-page read of 4 or 8 bytes. -/
def ctlReadValue (c : Chip) (t o : Nat) (eight : Bool) : Nat :=
  ctlRead c t o + if eight then ctlRead c t (o + 4) * 2 ^ 32 else 0

/-- A served control-page access: the lower word first (R454). -/
def ctlServe (p t o tag : Nat) (eight : Bool) (w : Option Nat) (c : Chip) : Chip :=
  match w with
  | none => send (.host p tag (.ioData (ctlReadValue c t o eight))) c
  | some v => whenB eight (ctlWrite t (o + 4) (v / 2 ^ 32)) (ctlWrite t o (v % 2 ^ 32) c)

/-- The offsets of the bell: only a read of 4 or 8 bytes at 0x800 is one (R435). -/
def bellOffset (o : Nat) : Bool := 0x800 ≤ o && o < 0x808

/-- A naturally aligned access of 4 or 8 bytes; `whole` says that it is one of 4 or 8 bytes within its size (R454). -/
def naturally (off : Nat) (eight whole : Bool) : Bool := whole && off % (if eight then 8 else 4) == 0

/-- A CXL.io access to BAR2 of a pool face. -/
def effCtlAccess (p off : Nat) (eight whole : Bool) (w : Option Nat) (pasid : Option Nat) (tag : Nat) (c : Chip) :
    Chip :=
  let t := off / 4096
  let o := off % 4096
  let aligned := naturally off eight whole
  if !carriesMem c p then c
  else if bellOffset o && o == 0x800 && aligned && w.isNone then effBell p t pasid eight tag c
  else
    ioCredits p w.isSome
      (if !pageAdmits c p t pasid then whenB w.isNone (send (.host p tag .ur)) (pageDenied t c)
       else if !aligned || bellOffset o then whenB w.isNone (send (.host p tag .ur)) c
       else ctlServe p t o tag eight w c)

def execControlPageAccess (p : Port) (off : Fin 16777216) (eight aligned : Bool) (write : Option (BitVec 64))
    (pasid : Option (Fin 1048576)) (tag : Nat) (s : State) : Out3 :=
  .next (onChip s (effCtlAccess p off eight aligned (write.map (·.toNat)) (pasid.map (·.val)) tag))

def execTcLossClr (p : Port) (t : Ten) (pasid : Option (Fin 1048576)) (v : Word) (s : State) : Out3 :=
  .next (onChip s (pageWrite p t (pasid.map (·.val)) (clearLoss t v.toNat)))

def execTenLossClr (pa : Path) (t : Ten) (v : Word) (s : State) : Out3 :=
  .next (onChip s (reachReg pa .ten t 0x068 (clearLoss t v.toNat)))

/-! ### Buckets and shaper slots (R458, R460 to R462) -/

/-- A refill: every tenancy's bucket, and the queues of shapers that are off from now on (R462). -/
def effRefill (c : Chip) : Chip :=
  if !tmbRuns c then c
  else
    let ts := refillTens c
    settle (forEach ts (fun t c => whenB (!(tenSt c t).sEn) (shaperFlush t true) c) (forEach ts refillTen c))

def execBucketRefill (s : State) : Out3 := .next (onChip s effRefill)

def execShaperRelease (t : Ten) (s : State) : Out3 := .next (onChip s fun c => settle (shaperHead t false c))

/-- A change that promises q slots in all to tenancy t keeps the sum of its port (R461). -/
def slotsHold (c : Chip) (t q : Nat) : Bool :=
  tenState c t == 0 || qSumWithout c (tenPort c t) t + q ≤ 1024

def refuseSlots (t : Nat) (c : Chip) : Chip := setF SHP_SQ_QREFUSED t 1 c

def qmaxWrite (t q : Nat) (c : Chip) : Chip :=
  if 1024 < q then c
  else if isF c SHP_SRATE_EN t && q != getF c SHP_SBURST_QMAX t && !slotsHold c t q then refuseSlots t c
  else setF SHP_SBURST_QMAX t q c

def srateEnWrite (t : Nat) (on : Bool) (c : Chip) : Chip :=
  if on && !isF c SHP_SRATE_EN t && !slotsHold c t (getF c SHP_SBURST_QMAX t) then refuseSlots t c
  else setF SHP_SRATE_EN t (b2n on) c

def effSlotWrite (t : Nat) (q : Option Nat) (en : Option Bool) (c : Chip) : Chip :=
  let c1 := match q with
    | some v => qmaxWrite t v c
    | none => c
  match en with
  | some b => srateEnWrite t b c1
  | none => c1

def execShaperSlotWrite (pa : Path) (t : Ten) (qmax : Option (Fin 2048)) (en : Option Bool) (s : State) : Out3 :=
  .next (onChip s (reachReg pa .shpT t 0x04C (effSlotWrite t (qmax.map (·.val)) en)))

end Sys2Proof.Machine
end

