-- ==== Sys2Proof/Machine/Cnt.lean ====
section
/-!
DEFINITION. 64-bit registers over 32-bit paths, performance counters and snapshots (21_counters.md R583 to R595), the
time base, the global freeze and page locks (22_register_map.md R604 to R612), with their commands.
-/
namespace Sys2Proof.Machine

/-! ### Pages by number -/

/-- A register access to a page named by its number: an undefined page is refused (R599). -/
def reachPage (pa : Path) (pg off : Nat) (eff : PK → Nat → Chip → Chip) (c : Chip) : Chip :=
  match pageKind pg with
  | some (k, n) => reachReg pa k n off (eff k n) c
  | none =>
    if !pathUp c pa then pathAbsent pa c
    else if isWindowPage pg then reachReg pa .bnd 0 off id c else refuseAccess pa 2 (pg * 4096 + off) c

/-! ### The latch of an access path (R587, R610) -/

def latchOf (c : Chip) (pa : Path) : PathLatch :=
  match pa with
  | .mgr _ => c.tmb.mgr | .core => c.tmb.core | .bridge => c.tmb.bridge

def setLatch (pa : Path) (x : PathLatch) (c : Chip) : Chip :=
  { c with tmb := match pa with
    | .mgr _ => { c.tmb with mgr := x } | .core => { c.tmb with core := x } | .bridge => { c.tmb with bridge := x } }

/-- A low-word read latches all 64 bits: the word returned, and the part after it. -/
def readLow (pa : Path) (addr v : Nat) (c : Chip) : Nat × Chip :=
  (v % 2 ^ 32, setLatch pa { latchOf c pa with rdAddr := some addr, rdVal := v } c)

/-- A high-word read returns the latched half if the path's previous such read was the low word of the same register,
else the live half. -/
def readHigh (pa : Path) (addr live : Nat) (c : Chip) : Nat × Chip :=
  let x := latchOf c pa
  ((if x.rdAddr = some addr then x.rdVal else live) / 2 ^ 32 % 2 ^ 32, setLatch pa { x with rdAddr := none } c)

/-- A low-word write is held by the path. -/
def holdLow (pa : Path) (addr v : Nat) (c : Chip) : Chip :=
  setLatch pa { latchOf c pa with wrAddr := some addr, wrVal := v } c

/-- What a high-word write makes of 64 bits: the held low word under it, or the present one. -/
def joinHigh (c : Chip) (pa : Path) (addr present v : Nat) : Nat :=
  let x := latchOf c pa
  v * 2 ^ 32 + (if x.wrAddr = some addr then x.wrVal else present % 2 ^ 32)

def dropHeld (pa : Path) (addr : Nat) (c : Chip) : Chip :=
  let x := latchOf c pa
  if x.wrAddr = some addr then setLatch pa { x with wrAddr := none, wrVal := 0 } c else c

/-! ### The time base (R608 to R610) -/

def ofsAddr : Nat := 0xE0048
def rackAddr : Nat := 0xE0050
def nowAddr : Nat := 0xE0040

def tmbOfs (c : Chip) : Nat := getF c TMB_OFS_HI_OFS 0 * 2 ^ 32 + getF c TMB_OFS_LO_OFS 0
def rackTime (c : Chip) : Nat := (c.tmb.now + tmbOfs c) % 2 ^ 64

/-- REFCLK0 has been absent for 10 µs (R609): the tiles that take it have lost their reference before, and TMB stops. -/
def effStallTmb (c : Chip) : Chip :=
  let c1 := effRefLoss 0 c
  if tmbRuns c1 then
    raise .tmb 0 0 (bumpF TMB_STAT_STALLS 0 1 (setF TMB_STAT_STALLED 0 1
      { c1 with tmb := { c1.tmb with stalled := true } }))
  else c1

def execTmbStall (s : State) : Out3 := .next (onChip s effStallTmb)

/-- REFCLK0 is back: TMB resumes from the value at which it stopped. -/
def effResume (c : Chip) : Chip := effRefReturn 0 c

def execTmbResumed (s : State) : Out3 := .next (onChip s effResume)

def execTmbOfsLoWrite (pa : Path) (v : Word) (s : State) : Out3 :=
  .next (onChip s (reachReg pa .tmb 0 0x048 (holdLow pa ofsAddr v.toNat)))

def ofsHigh (pa : Path) (v : Nat) (c : Chip) : Chip :=
  dropHeld pa ofsAddr (setF64 TMB_OFS_LO_OFS TMB_OFS_HI_OFS 0 (joinHigh c pa ofsAddr (tmbOfs c) v) c)

def execTmbOfsHiWrite (pa : Path) (v : Word) (s : State) : Out3 :=
  .next (onChip s (reachReg pa .tmb 0 0x04C (ofsHigh pa v.toNat)))

/-- A read that a path returns. -/
def answerRead (pa : Path) (r : Nat × Chip) : Chip := send (.pathRead pa r.1) r.2

def execTmbRackLoRead (pa : Path) (s : State) : Out3 :=
  .next (onChip s (reachReg pa .tmb 0 0x050 fun c => answerRead pa (readLow pa rackAddr (rackTime c) c)))

/-! ### Selects and values (R584 to R587) -/

/-- Local event indices that a page kind provides beside 0 and 1 (R593). -/
def eventRange : PK → Nat × Nat
  | .glb => (2, 2) | .pwr => (2, 6) | .flt => (2, 4) | .sec => (2, 8) | .mgtC | .mgtCore => (2, 6)
  | .brgC | .brgPort | .brgSbc | .brgSens => (2, 9) | .slp => (2, 8) | .cnt => (2, 3) | .xbrG => (2, 9)
  | .xbrC => (10, 11) | .rolC | .rolS => (2, 12) | .map => (2, 9) | .mrk => (2, 7) | .rak => (2, 8) | .carD => (2, 4)
  | .carC => (5, 9) | .phyG => (2, 6) | .phyT => (7, 7) | .lnk => (2, 10) | .prt => (2, 8) | .bnd => (2, 6)
  | .ten => (2, 10) | .pfxF => (2, 4) | .slt => (2, 8) | .shpT => (2, 5) | .shpP => (6, 6)
  | .mgtCfg | .tmb | .pfxC => (1, 1)

/-- The select names an event of the page's block that its kind provides (R585). -/
def selectOk (k : PK) (v : Nat) : Bool :=
  let e := bits v 0 11
  let r := eventRange k
  e / 64 == blockOf k && (e % 64 ≤ 1 || (r.1 ≤ e % 64 && e % 64 ≤ r.2))

/-- EN, TVIS, QUAL and EVENT of a written word. -/
def selectBits (v : Nat) : Nat := bits v 30 2 * 2 ^ 30 + bits v 16 13 * 2 ^ 16 + bits v 0 11

def selWrite (pg i v : Nat) (k : PK) (c : Chip) : Chip :=
  if selectOk k v then setCtr pg i { ctrOf c pg i with sel := selectBits v } c else bumpF CNT_STAT_REFUSED 0 1 c

def cselOff (i : Nat) : Nat := 0xE00 + 4 * i
def cvalOff (i : Nat) : Nat := 0xF00 + 8 * i
def csnpOff (i : Nat) : Nat := 0xF80 + 8 * i
def ctrAddr (pg off : Nat) : Nat := pg * 4096 + off

def execPgCselWrite (pa : Path) (pg : PageNo) (i : Fin 16) (v : Word) (s : State) : Out3 :=
  .next (onChip s (reachPage pa pg (cselOff i) fun k _ => selWrite pg i v.toNat k))

def execPgCvalLoWrite (pa : Path) (pg : PageNo) (i : Fin 16) (v : Word) (s : State) : Out3 :=
  .next (onChip s (reachPage pa pg (cvalOff i) fun _ _ => holdLow pa (ctrAddr pg (cvalOff i)) v.toNat))

def valHigh (pa : Path) (pg i v : Nat) (c : Chip) : Chip :=
  let a := ctrAddr pg (cvalOff i)
  let x := ctrOf c pg i
  dropHeld pa a (setCtr pg i { x with val := joinHigh c pa a x.val v } c)

def execPgCvalHiWrite (pa : Path) (pg : PageNo) (i : Fin 16) (v : Word) (s : State) : Out3 :=
  .next (onChip s (reachPage pa pg (cvalOff i + 4) fun _ _ => valHigh pa pg i v.toNat))

def execPgCvalLoRead (pa : Path) (pg : PageNo) (i : Fin 16) (s : State) : Out3 :=
  .next (onChip s (reachPage pa pg (cvalOff i) fun _ _ c =>
    answerRead pa (readLow pa (ctrAddr pg (cvalOff i)) (ctrOf c pg i).val c)))

/-! ### Freezes (R588, R607) -/

/-- CNT_CTRL.FREEZE: a freeze taken is counted before it stands. -/
def cntFreeze (on : Bool) (c : Chip) : Chip :=
  let c1 := whenB (on && !isF c CNT_CTRL_FREEZE 0) (count .cnt 0 3) c
  setF CNT_CTRL_FROZEN 0 (b2n on) (setF CNT_CTRL_FREEZE 0 (b2n on) c1)

def execCntFreezeWrite (pa : Path) (on : Bool) (s : State) : Out3 := .next (onChip s (reachReg pa .cnt 0 0x040 (cntFreeze on)))

/-- GLB_FREEZE.FREEZE: when it rises every counter takes it, and GLB_FROZEN is raised. -/
def glbFreeze (on : Bool) (c : Chip) : Chip :=
  let rises := on && !isF c GLB_FREEZE_FREEZE 0
  let c1 := whenB rises (count .cnt 0 3) c
  whenB rises (event .glb 0 0) (setF GLB_FREEZE_FROZEN 0 (b2n on) (setF GLB_FREEZE_FREEZE 0 (b2n on) c1))

def execGlbFreezeWrite (pa : Path) (on : Bool) (s : State) : Out3 := .next (onChip s (reachReg pa .glb 0 0x054 (glbFreeze on)))

/-! ### Snapshots (R589, R590) -/

def ctrPageStarted (c : Chip) (pg : Nat) : Bool :=
  match pageKind pg with
  | some (k, n) => pageStarted c k n
  | none => false

/-- Every page whose block has started copies its counters; PART says that one has not. -/
def snapStart (c : Chip) : Chip :=
  let took := c.cnt.ctr.map fun e => if ctrPageStarted c (e.1 / 16) then (e.1, { e.2 with snap := e.2.val }) else e
  setF CNT_SNAP_PART 0 (b2n (!(List.range 15).all (stageDone c))) (setF CNT_SNAP_GO 0 1
    { c with cnt := { c.cnt with ctr := took, snapRuns := true, snapAt := c.tmb.now } })

/-- A snapshot is due: it starts, or waits for the one that runs. -/
def snapDue (c : Chip) : Chip :=
  if c.cnt.snapRuns then raise .cnt 0 0 { c with cnt := { c.cnt with snapOwed := true } } else snapStart c

def execCntSnapGo (pa : Path) (s : State) : Out3 := .next (onChip s (reachReg pa .cnt 0 0x044 snapDue))

def effSnapPeriod (c : Chip) : Chip :=
  if pageStarted c .cnt 0 && tmbRuns c && getF c CNT_CTRL_PERIOD 0 != 0 then snapDue c else c

def execCntSnapPeriod (s : State) : Out3 := .next (onChip s effSnapPeriod)

/-- The running snapshot ends. -/
def effSnapDone (dur : Nat) (c : Chip) : Chip :=
  if c.cnt.snapRuns then
    let c1 := setF CNT_SNAP_DUR_NS 0 dur (setF64 CNT_SNAP_TLO_TIME CNT_SNAP_THI_TIME 0 c.cnt.snapAt
      (wrapF CNT_SNAP_SEQ 0 1 (setF CNT_SNAP_GO 0 0 c)))
    let c2 := count .cnt 0 2 (event .cnt 0 0 { c1 with cnt := { c1.cnt with snapRuns := false, snapOwed := false } })
    whenB c.cnt.snapOwed snapStart c2
  else c

def execCntSnapDone (durNs : Nat) (s : State) : Out3 := .next (onChip s (effSnapDone durNs))

/-! ### The tenant window (R591) -/

/-- The 64-bit value that the window shows for a tenancy at an offset of its slot; 0 where TVIS is 0. -/
def windowValue (c : Chip) (t o : Nat) : Nat :=
  let pg := if o < 128 then pageOf .ten t else pageOf .shpT t
  let x := ctrOf c pg (o % 128 / 8)
  if cselTvis x.sel then x.val else 0

/-- A read of the counter window. -/
def effWindowRead (p off : Nat) (eight whole : Bool) (pasid : Option Nat) (tag : Nat) (c : Chip) : Chip :=
  let t := off / 256
  let v := windowValue c t (off % 256)
  if !carriesMem c p then c
  else
    ioCredits p false
      (if !pageAdmits c p t pasid then send (.host p tag .ur) (pageDenied t c)
       else if !naturally off eight whole then send (.host p tag .ur) c
       else if eight then send (.host p tag (.ioData v)) c
       else send (.host p tag (.ioData (half v (off % 8 == 4)))) c)

def execTenantCounterRead (p : Port) (off : Fin 1048576) (eight aligned : Bool) (pasid : Option (Fin 1048576)) (tag : Nat)
    (s : State) : Out3 :=
  .next (onChip s (effWindowRead p off eight aligned (pasid.map (·.val)) tag))

/-! ### Locks (R604) -/

def execPgLockWrite (pa : Path) (pg : PageNo) (s : State) : Out3 :=
  .next (onChip s (reachPage pa pg 0x00C fun k n => setF (PG_LOCK k) n 1))

end Sys2Proof.Machine
end

