-- ==== Sys2Proof/Machine/Pwr.lean ====
section
/-!
DEFINITION. Supplies, temperature, pace and the voltage loop, the staggered start, and cold, warm and port resets
(03_power_start.md R90 to R118; 00_scope.md R18), with their commands.
-/
namespace Sys2Proof.Machine

/-! ### What each reset keeps (R114) -/

/-- Device contents that no reset changes: map copies, region headers and care regions. -/
def keepMedia (old c : Chip) : Chip := { c with media := old.media }

/-- What the model itself carries on: outputs, free values, transaction numbers. -/
def keepModel (old c : Chip) : Chip := { c with sent := old.sent, draws := old.draws, nextTxn := old.nextTxn }

/-- An open update is abandoned: the slot fails verification until it is rewritten (R573). -/
def abandonUpdate (c : Chip) : Chip :=
  match c.sec.open_ with
  | none => c
  | some pfx =>
    let b := !activeSlot c pfx
    setOpen none (setSlot pfx b { words := some (slotWords c pfx b), spoiled := true } c)

/-- What SEC keeps of its typed state: slots, marks, fuses. -/
def keepSec (old c : Chip) : Chip :=
  let x := (abandonUpdate old).sec
  { c with sec := { x with ide := [], sessions := [] } }

/-- Measured levels of the PWR page, which no reset changes: PWR_TEMP, PWR_VSENSE, PWR_HVSENSE. -/
def sensedKey (k : Nat) : Bool :=
  k / 131072 == pageBase .pwr && 0x060 ≤ k % 131072 / 32 && k % 131072 / 32 < 0x070 && k % 131072 / 32 != 0x064

/-- Register fields that a warm reset keeps (R114, R612, R498, R526): RWS fields of GLB and TMB, the block registers of the
slot channels, FIRST and NEXT, PWR_RSTCAUSE's latch. -/
def keptKey (k : Nat) : Bool :=
  let pg := k / 131072
  let o := k % 131072 / 32
  sensedKey k ||
    (pg == pageBase .glb && (o == 0x050 || (0x060 ≤ o && o < 0x070))) ||
    (pg == pageBase .tmb && (o == 0x048 || o == 0x04C)) ||
    (pg == pageBase .flt && ((0x080 ≤ o && o < 0x094) || (0x0A0 ≤ o && o < 0x0B4))) ||
    (pageBase .slp ≤ pg && pg < pageBase .slp + 64 && 0x040 ≤ o && o < 0xE00)

/-- The straps are sampled (02_package_pins.md R73). -/
def sampleStraps (c : Chip) : Chip :=
  takeDraw { c with pwr := { c.pwr with maddr := Config.maddrStrap c.draws % 8 } }

/-! ### Step 1 to 3 of the start timeline (R111) -/

/-- The VAUX domain leaves reset: the cause is latched, the chain and BRG run, and SEC boots the management image. -/
def vauxStart (cause : Nat) (c : Chip) : Chip :=
  if c.pwr.vaux && !c.pwr.testHold then
    bootMgt (setF PWR_RSTCAUSE_CAUSE 0 cause
      { c with pwr := { c.pwr with vauxUp := true, chainUp := true }, flt := { c.flt with vauxAt := c.slp.aux } })
  else setF PWR_RSTCAUSE_CAUSE 0 cause c

/-- SEC derives its keys, or cannot read its fuses (20_security.md R565, R566). -/
def deriveKeys (c : Chip) : Chip :=
  if Config.fusesReadable then c else raise .sec 0 5 { c with sec := { c.sec with fuseUe := true } }

/-- A cold reset of the whole part, with a cause (R92, R18): it is over once VAUX is valid. -/
def coldReset (cause : Nat) (c : Chip) : Chip :=
  let c1 := keepSec c (keepModel c (keepMedia c
    { Chip.reset with
      fld := c.fld.filter fun e => sensedKey e.1
      phy := { Chip.reset.phy with absent := c.phy.absent }
      slp := { Chip.reset.slp with hvOk := c.slp.hvOk }
      pwr := { Chip.reset.pwr with vin := c.pwr.vin, vaux := c.pwr.vaux, thermOff := c.pwr.thermOff,
                                   testHold := Config.testen } }))
  let c2 := sampleStraps { c1 with sec := { c1.sec with fuseUe := false, aliasOf := none } }
  vauxStart cause (whenB c.pwr.vaux deriveKeys c2)

/-- A warm reset (R113, R114): the regulators stay on, and stage 0 is not repeated once it has completed. Where it has
not, VCORE waits at 0 for time 0, when stage 0 soft-starts it again (R109): a DESIGN CHOICE (log entry 97), because
R113 has VCORE return to 0.75 V in every warm reset. -/
def warmReset (cause : Nat) (c : Chip) : Chip :=
  let c1 := keepSec c (keepModel c (keepMedia c
    { Chip.reset with
      fld := c.fld.filter fun e => keptKey e.1
      tmb := { Chip.reset.tmb with now := c.tmb.now, started := c.tmb.started, stalled := c.tmb.stalled }
      phy := { Chip.reset.phy with absent := c.phy.absent }
      slp := c.slp
      tap := c.tap
      flt := { Chip.reset.flt with seq := c.flt.seq }
      cnt := { Chip.reset.cnt with ctr := c.cnt.ctr.filter fun e => e.1 / 16 == pageOf .glb 0 }
      pwr := { Chip.reset.pwr with
        vin := c.pwr.vin, vaux := c.pwr.vaux, thermOff := c.pwr.thermOff, testHold := c.pwr.testHold,
        stage0Once := c.pwr.stage0Once, vcore2 := if c.pwr.stage0Once then 1500 else 0,
        begun := if c.pwr.stage0Once then 1 else 0, done := if c.pwr.stage0Once then 1 else 0 } }))
  count .glb 0 2 (vauxStart cause (sampleStraps c1))

/-- A warm reset as a step: the record buffers are cleared too (14_tenancy_qos.md R474). -/
def warmResets (cause : Nat) (s : State) : State := { s with chip := warmReset cause s.chip, recs := [] }
def coldResets (cause : Nat) (s : State) : State := { s with chip := coldReset cause s.chip, recs := [] }

def execResetNAssert (s : State) : Out3 := .next (if s.chip.pwr.vauxUp then warmResets 3 s else s)

/-- A write of the key, decided where it reaches the page. -/
def resetWrite (pa : Path) (key : Nat) (s : State) : State :=
  if key = 0x5752 ∧ pathUp s.chip pa = true ∧ pathClosed s.chip pa 0 = false ∧ pageStarted s.chip .glb 0 = true then warmResets 4 s
  else onChip s (reachReg pa .glb 0 0x04C id)

def execGlbReset (pa : Path) (key : Fin 65536) (s : State) : Out3 := .next (resetWrite pa key.val s)

/-- A fundamental or hot reset of one port. -/
def effPortReset (p : Nat) (c : Chip) : Chip := if portOn c p then portResetGo p true c else c

def execPortReset (p : Port) (kind : PortResetKind) (s : State) : Out3 :=
  match kind with
  | .fundamental | .hot => .next (onChip s (effPortReset p))

/-! ### Supplies and warnings (R91 to R96) -/

def senseSupply (x : Supply) (mv : Nat) (c : Chip) : Chip :=
  match x with
  | .vin => setF PWR_VSENSE_VIN 0 mv c
  | .vaux => setF PWR_VSENSE_VAUX 0 mv c

def supplyOk (c : Chip) (x : Supply) : Bool :=
  match x with
  | .vin => c.pwr.vin
  | .vaux => c.pwr.vaux

def setSupply (x : Supply) (v : Bool) (c : Chip) : Chip :=
  match x with
  | .vin => { c with pwr := { c.pwr with vin := v } }
  | .vaux => { c with pwr := { c.pwr with vaux := v } }

/-- A supply rises above 1.70 V; with VAUX the VAUX domain leaves cold reset. -/
def effValid (x : Supply) (mv : Nat) (c : Chip) : Chip :=
  if supplyOk c x || mv ≤ 1700 then c
  else
    let c1 := senseSupply x mv (setSupply x true c)
    match x with
    | .vin => c1
    | .vaux => vauxStart 0 (deriveKeys (sampleStraps { c1 with pwr := { c1.pwr with testHold := Config.testen } }))

def execSupplyValid (s_ : Supply) (mv : Fin 4096) (s : State) : Out3 := .next (onChip s (effValid s_ mv))

/-- A supply below 1.55 V is lost: a cold reset (R92). -/
def effLoss (x : Supply) (mv : Nat) (s : State) : State :=
  if supplyOk s.chip x && mv < 1550 then
    coldResets (match x with
      | .vin => 1
      | .vaux => 0) (onChip s fun c => senseSupply x mv (setSupply x false c))
  else s

def execSupplyLoss (s_ : Supply) (mv : Fin 4096) (s : State) : Out3 := .next (effLoss s_ mv s)

/-- PWR_WARN: every slate drains, and no rake job or care write starts (R93). -/
def effWarn (mv : Nat) (c : Chip) : Chip :=
  if c.pwr.vauxUp && c.pwr.vin && !c.pwr.warn && mv < 10 * getF c PWR_VIN_LVL_WARN 0 then
    let c1 := raise .pwr 0 0 (senseSupply .vin mv { c with pwr := { c.pwr with warn := true } })
    settle (drainWhere 5 (fun _ => true) c1)
  else c

def execPwrWarn (mv : Fin 4096) (s : State) : Out3 := .next (onChip s (effWarn mv))

def effWarnClear (mv : Nat) (c : Chip) : Chip :=
  if c.pwr.warn && 10 * getF c PWR_VIN_LVL_WARN 0 + 5 * getF c PWR_VIN_LVL_HYST 0 < mv then
    initAll (senseSupply .vin mv { c with pwr := { c.pwr with warn := false } })
  else c

def execPwrWarnClear (mv : Fin 4096) (s : State) : Out3 := .next (onChip s (effWarnClear mv))

def effAuxWarn (mv : Nat) (c : Chip) : Chip :=
  if c.pwr.vauxUp && !c.pwr.auxWarn && mv < 10 * getF c PWR_VAUX_LVL_WARN 0 then
    raise .pwr 0 1 (senseSupply .vaux mv { c with pwr := { c.pwr with auxWarn := true } })
  else c

def execPwrAuxWarn (mv : Fin 4096) (s : State) : Out3 := .next (onChip s (effAuxWarn mv))

def effAuxWarnClear (mv : Nat) (c : Chip) : Chip :=
  if c.pwr.auxWarn && 10 * getF c PWR_VAUX_LVL_WARN 0 + 5 * getF c PWR_VAUX_LVL_HYST 0 < mv then
    senseSupply .vaux mv { c with pwr := { c.pwr with auxWarn := false } }
  else c

def execPwrAuxWarnClear (mv : Fin 4096) (s : State) : Out3 := .next (onChip s (effAuxWarnClear mv))

/-! ### Temperature (R97, R98) -/

/-- The hottest sensor and its reading in 0.5 °C. -/
def senseTemp (sensor : Nat) (tj : BitVec 10) (c : Chip) : Chip :=
  setF PWR_TEMP_SENSOR 0 sensor (setF PWR_TEMP_TJ 0 tj.toNat c)

def warnTemp (c : Chip) : Int := 2 * (getF c PWR_TEMP_LVL_WARN 0 : Int)

def effTj (sensor : Nat) (tj : BitVec 10) (c : Chip) : Chip :=
  if c.pwr.vauxUp && !c.pwr.tjWarn && warnTemp c < tj.toInt then
    raise .pwr 0 2 (senseTemp sensor tj { c with pwr := { c.pwr with tjWarn := true } })
  else c

def execPwrTjWarn (sensor : Fin 16) (tj : BitVec 10) (s : State) : Out3 := .next (onChip s (effTj sensor tj))

def effTjClear (sensor : Nat) (tj : BitVec 10) (c : Chip) : Chip :=
  if c.pwr.tjWarn && tj.toInt ≤ warnTemp c - 10 then
    senseTemp sensor tj { c with pwr := { c.pwr with tjWarn := false } }
  else c

def execPwrTjWarnClear (sensor : Fin 16) (tj : BitVec 10) (s : State) : Out3 := .next (onChip s (effTjClear sensor tj))

/-- Above 130 °C for 100 µs the regulators turn off: a cold reset, and the VIN domain stays off. -/
def effTrip (sensor : Nat) (tj : BitVec 10) (s : State) : State :=
  if s.chip.pwr.vauxUp && 260 < tj.toInt then
    coldResets 2 (onChip s fun c => senseTemp sensor tj { c with pwr := { c.pwr with thermOff := true } })
  else s

def execPwrThermtrip (sensor : Fin 16) (tj : BitVec 10) (s : State) : Out3 := .next (effTrip sensor tj s)

def effThermRestart (sensor : Nat) (tj : BitVec 10) (c : Chip) : Chip :=
  if c.pwr.thermOff && tj.toInt < 230 then senseTemp sensor tj { c with pwr := { c.pwr with thermOff := false } } else c

def execThermalRestart (sensor : Fin 16) (tj : BitVec 10) (s : State) : Out3 := .next (onChip s (effThermRestart sensor tj))

/-! ### Pace and the voltage loop (R100 to R106) -/

/-- Pace meters in use, with their readings. -/
def metersUsed (c : Chip) : List (Nat × Nat) :=
  ((List.range 16).zip c.pwr.paces).filter fun m => !c.pwr.excluded.getLsbD m.1

/-- PWR_PACE: the number of meters in use, and the slowest of them. -/
def showPace (c : Chip) : Chip :=
  let c1 := setF PWR_PACE_USED 0 (16 - popCount 16 c.pwr.excluded.toNat) c
  match minBy (·.2) (metersUsed c) with
  | some m => setF PWR_PACE_SLOW 0 m.1 (setF PWR_PACE_MEAS 0 m.2 c1)
  | none => c1

/-- The VIN domain's VCORE is on: stage 0 has begun. -/
def coreOn (c : Chip) : Bool := c.pwr.begun.getLsbD 0

def effPaces (ps : List Nat) (c : Chip) : Chip :=
  if coreOn c && tmbRuns c then showPace { c with pwr := { c.pwr with paces := ps } } else c

def execPaceMeterWindow (paces : List (Fin 2048)) (s : State) : Out3 :=
  if wellFormed (.paceMeterWindow paces) then .next (onChip s (effPaces (paces.map (·.val))))
  else .refused .illFormed

/-- Twice the median of sixteen readings. -/
def median2 (ps : List Nat) : Nat :=
  let l := sortNat ps
  (l[7]?).getD 0 + (l[8]?).getD 0

/-- Meters that read more than 25 % above or below the median and are not yet excluded (R102). -/
def diverging (c : Chip) : List Nat :=
  let m := median2 c.pwr.paces
  ((metersUsed c).filter fun x => 5 * m < 8 * x.2 || 8 * x.2 < 3 * m).map (·.1)

def excludeMeter (i : Nat) (c : Chip) : Chip :=
  raise .pwr 0 4 (count .pwr 0 6 { c with pwr := { c.pwr with excluded := c.pwr.excluded ||| (1#16 <<< i) } })

def vmax2 (c : Chip) : Nat := 2 * getF c PWR_VCORE_VMAX 0
def pace (c : Chip) : Nat := getF c PWR_PACE_MEAS 0

def setVcore (v : Nat) (c : Chip) : Chip := { c with pwr := { c.pwr with vcore2 := v } }
def stepUp (c : Chip) : Chip :=
  if c.pwr.vcore2 < vmax2 c then count .pwr 0 2 (setVcore (min (c.pwr.vcore2 + 5) (vmax2 c)) c) else c
def stepDown (c : Chip) : Chip :=
  if 1200 < c.pwr.vcore2 then count .pwr 0 3 (setVcore (max (c.pwr.vcore2 - 5) 1200) c) else c

/-- One comparison moves VCORE by one step at most, within 0.60 V and VMAX. -/
def regulate (c : Chip) : Chip :=
  if isF c PWR_VCORE_HOLD 0 then c
  else if vmax2 c < c.pwr.vcore2 then stepDown c
  else if getF c PWR_PACE_USED 0 < 8 then stepUp c
  else if pace c < getF c PWR_PACE_TGT_TGT 0 then stepUp c
  else if getF c PWR_PACE_TGT_TGT 0 + 8 < pace c then stepDown c
  else c

/-- PWR_PACE_SHORT stands while pace is below the target and VCORE cannot be raised: every comparison that finds it so
raises the fault where its bit is 0 (R103; 16_faults.md R487). -/
def showShort (c : Chip) : Chip :=
  let short := pace c < getF c PWR_PACE_TGT_TGT 0 && (isF c PWR_VCORE_HOLD 0 || vmax2 c ≤ c.pwr.vcore2)
  let c1 := { c with pwr := { c.pwr with paceShort := short } }
  whenB short (raise .pwr 0 3) c1

def effLoop (c : Chip) : Chip :=
  if coreOn c && tmbRuns c && c.pwr.paces.length == 16 then
    let c1 := showPace (forEach (diverging c) excludeMeter c)
    let c2 := whenB (getF c1 PWR_PACE_USED 0 < 8) (raise .pwr 0 4) c1
    regulate (showShort c2)
  else c

def execVoltageLoopCompare (s : State) : Out3 := .next (onChip s effLoop)

/-! ### The staggered start (R107 to R112) -/

def halted (c : Chip) : Bool := isF c PWR_START_HALT 0
def setBegun (k : Nat) (c : Chip) : Chip :=
  setF PWR_START_STAGE 0 k { c with pwr := { c.pwr with begun := c.pwr.begun ||| (1#15 <<< k) } }

/-- Time 0: both supplies valid, REFCLK0 present (02_package_pins.md R67). The staggered start begins, at stage 1 where
stage 0 need not be repeated. -/
def effTime0 (c : Chip) : Chip :=
  if c.pwr.vin && c.pwr.vaux && c.pwr.vauxUp && !c.pwr.thermOff && !c.pwr.time0 && !c.phy.absent.getLsbD 0 &&
      !c.tmb.stalled then
    let c1 := { c with tmb := { c.tmb with started := true },
                       pwr := { c.pwr with time0 := true, time0At := c.tmb.now, vcore2 := 1500 } }
    setBegun (b2n c.pwr.stage0Once) c1
  else c

def execStartTime0 (s : State) : Out3 := .next (onChip s effTime0)

/-- The stage after the last that began. -/
def nextStage (c : Chip) : Nat := popCount 15 c.pwr.begun.toNat

def effStageStart (c : Chip) : Chip :=
  if c.pwr.time0 && tmbRuns c && !halted c && nextStage c < 15 then setBegun (nextStage c) c else c

def execStaggerStageStart (s : State) : Out3 := .next (onChip s effStageStart)

/-- A stage that runs: begun and not complete. -/
def stageRuns (c : Chip) (k : Nat) : Bool :=
  c.pwr.time0 && !halted c && c.pwr.begun.getLsbD k && !c.pwr.done.getLsbD k

/-- A stage completes; the tiles that it starts report a reference that is absent (02_package_pins.md R68). -/
def effStageDone (k : Nat) (c : Chip) : Chip :=
  if stageRuns c k then
    let c1 := { c with pwr := { c.pwr with done := c.pwr.done ||| (1#15 <<< k), stage0Once := c.pwr.stage0Once || k == 0 },
                        flt := { c.flt with stageAt := kvSet 0 c.flt.stageAt k c.slp.aux } }
    forEach ((List.range 8).filter fun j => 9 + j / 2 == k) reportRef (whenB (k == 14) (setF PWR_START_DONE 0 1) c1)
  else c

/-- A stage misses its limit: the start halts (R109). PWR lies in the VAUX domain, so the auxiliary timer measures the
limit while TMB stands (00_scope.md R8; 22_register_map.md R629). -/
def effStageTimeout (k : Nat) (c : Chip) : Chip :=
  if stageRuns c k then raise .pwr 0 5 (setF PWR_START_HALT 0 1 (setF PWR_START_STAGE 0 k c)) else c

def execPwrStageTimeout (k : Fin 15) (s : State) : Out3 := .next (onChip s (effStageTimeout k))

/-- Every stage is complete: SEC verifies the prefect image, the forms load it, and the part is useful (R111, R112).
T_USEFUL is whole microseconds rounded down, and 65,535 past that: a DESIGN CHOICE (log entry 98), the spec gives
neither. -/
def effImageLoad (c : Chip) : Chip :=
  if (List.range 15).all (stageDone c) && !halted c && !isF c PWR_START_USEFUL 0 then
    setF PWR_START_T_USEFUL 0 (min 65535 ((c.tmb.now - c.pwr.time0At) / 1000)) (setF PWR_START_USEFUL 0 1 (bootPfx c))
  else c

def execPrefectImageLoad (s : State) : Out3 := .next (onChip s effImageLoad)

end Sys2Proof.Machine
end

