-- ==== Sys2Proof/Machine/Flt.lean ====
section
/-!
DEFINITION. Fault collection: capture, records, log and reactions, broken fault links, ERR_N, and the error registers of a
page (16_faults.md R487 to R505), with their commands; what BRG queues of a capture (19_bridge.md R559).
-/
namespace Sys2Proof.Machine

/-! ### Records (R497 to R501) -/

def recWords (r : FltRec) : List Nat := [r.w0, r.w1, r.w2, r.w3, r.w4]
def recSeq (r : FltRec) : Nat := r.w0 % 65536
def recSev (w0 : Nat) : Nat := bits w0 29 2
def recValid (w0 : Nat) : Bool := bit w0 31

/-- Word i of FIRST and of NEXT. -/
def firstWord (c : Chip) (i : Nat) : Nat := getFi c FLT_FIRST_WORD 0 i
def nextWord (c : Chip) (i : Nat) : Nat := getFi c FLT_NEXT_WORD 0 i

def putWords (X : Fld) (l : List Nat) (c : Chip) : Chip := forEach (l.zip [0, 1, 2, 3, 4]) (fun x c => setFi X 0 x.2 x.1 c) c

/-- PG_ERR of a page by its number. -/
def pageErr (c : Chip) (pg : Nat) : Nat :=
  match pageKind pg with
  | some (k, n) => getF c (PG_ERR k) n
  | none => 0

/-- Block code and instance of a page as PG_IDENT and a record's word 1 show them (R496). -/
def identOf (pg : Nat) : Nat :=
  match pageKind pg with
  | some (k, n) => blockOf k * 2 ^ 27 + instOf k n
  | none => 0

/-- The record of one code. -/
def fltRecord (x : FltCode) (coincident : Bool) (seq : Nat) (c : Chip) : FltRec :=
  { w0 := 2 ^ 31 + x.sev * 2 ^ 29 + b2n coincident * 2 ^ 28 + b2n x.linkpoll * 2 ^ 27 + b2n x.inj * 2 ^ 26 + seq
    w1 := identOf x.page
    w2 := pageErr c x.page
    w3 := nowNs c % 2 ^ 32
    w4 := nowNs c / 2 ^ 32 }

/-- Into FIRST, else into NEXT, else into neither (R498). -/
def keepRecord (r : FltRec) (c : Chip) : Chip :=
  if !recValid (firstWord c 0) then putWords FLT_FIRST_WORD (recWords r) c
  else if !recValid (nextWord c 0) then putWords FLT_NEXT_WORD (recWords r) c
  else c

/-- Into the log of 1,024 records; the oldest is overwritten when it is full (R501). -/
def logRecord (r : FltRec) (c : Chip) : Chip :=
  if c.flt.log.length < 1024 then { c with flt := { c.flt with log := c.flt.log ++ [r] } }
  else
    let c1 := { c with flt := { c.flt with log := c.flt.log.drop 1 ++ [r] } }
    event .flt 0 0 (count .flt 0 3 (bumpF FLT_LOG_LOST_N 0 1 c1))

/-! ### Reactions (R502 to R505, R607, R559) -/

/-- BRG queues a capture whose severity is enabled, and drives ALERT_N. -/
def queueEvent (sev : Nat) (r : FltRec) (c : Chip) : Chip :=
  if !bit (getF c BRG_ALERT_CFG_SEV 0) sev then c
  else if 32 ≤ c.brg.events.length then raise .brgC 0 0 (bumpF BRG_EVQ_LOST 0 1 c)
  else
    let e : BrgEvent := { id := c.brg.nextEvent, record := r, sent := false, polled := false, ibi0 := false, ibi1 := false }
    { c with brg := { c.brg with events := c.brg.events ++ [e], nextEvent := (c.brg.nextEvent + 1) % 65536, alertLow := true } }

/-- ERR_N is driven for a qualifying capture. -/
def errnQualifies (c : Chip) (sev : Nat) : Bool :=
  sev == 2 || (sev == 1 && isF c FLT_ERRN_SEV_UC 0) || (sev == 0 && isF c FLT_ERRN_SEV_CE 0)

/-- A pending severity is enabled for ERR_N. -/
def pendQualifies (c : Chip) : Bool := [0, 1, 2].any fun s => bit (getF c FLT_PEND_SEV 0) s && errnQualifies c s

def setPulse (v : Bool) (c : Chip) : Chip := { c with flt := { c.flt with pulse := v } }

def sevCount (sev : Nat) : Fld :=
  match sev with
  | 0 => FLT_CNTCE_N | 1 => FLT_CNTUC_N | _ => FLT_CNTFE_N

/-- Captures of this severity set the global freeze. -/
def freezesOn (c : Chip) (sev : Nat) : Bool :=
  match sev with
  | 0 => isF c GLB_FREEZE_ON_CE 0 | 1 => isF c GLB_FREEZE_ON_UC 0 | _ => isF c GLB_FREEZE_ON_FE 0

/-- ISOLATE: every host-facing port and trunk is disabled, and RAK and MRK stop; device faces stay. -/
def isolate (c : Chip) : Chip :=
  let c1 := forEach ((enabledPorts c).filter fun p => hostFacing c p || trunk c p) disablePort c
  effMrkEnable false (setF RAK_CTRL_EN 0 0 c1)

/-- FE_ACT of R503; `hadFe`: FIRST held an FE record before this capture. -/
def fatal (hadFe : Bool) (c : Chip) : Chip :=
  match getF c FLT_CTRL_FE_ACT 0 with
  | 0 => c
  | 1 => isolate c
  | _ => let c1 := isolate c
         if hadFe then c1 else { c1 with flt := { c1.flt with resetOwed := true } }

/-- One code is captured. A pulse of ERR_N starts at every capture that qualifies, or in LEVEL mode at the one that makes
the pending severities non-zero (R504). -/
def capture (coincident : Bool) (x : FltCode) (c : Chip) : Chip :=
  let hadFe := recValid (firstWord c 0) && recSev (firstWord c 0) == 2
  let seq := (c.flt.seq + 1) % 65536
  let r := fltRecord x coincident seq c
  let c1 := logRecord r (keepRecord r { c with flt := { c.flt with seq := seq } })
  let c2 := countQ .flt 0 2 x.sev (bumpF (sevCount x.sev) 0 1 (setF FLT_PEND_SEV 0 (setBit (getF c1 FLT_PEND_SEV 0) x.sev) c1))
  let c3 := whenB (errnQualifies c2 x.sev && !(isF c FLT_ERRN_MODE 0 && pendQualifies c)) (setPulse true) c2
  let c4 := queueEvent x.sev r (whenB (freezesOn c3 x.sev) (glbFreeze true) c3)
  whenB (x.sev == 2) (fatal hadFe) c4

/-- Codes that are together, the highest severity first, each after the first marked COINCIDENT (R494). -/
def captureAll (l : List FltCode) (c : Chip) : Chip :=
  match sortBy (fun x => 2 - x.sev) l with
  | [] => c
  | x :: r => forEach r (capture true) (capture false x c)

/-- The fault link of a page works: from the start of the VAUX domain, or from stage 1 (R495). -/
def linkWorks (c : Chip) (pg : Nat) : Bool :=
  c.pwr.vauxUp && match pageKind pg with
    | some (k, n) => (pageStage k n).isNone || stageDone c 1
    | none => true

/-- A code that has reached the record arbiter; FLT_LINK and what a poll finds travel on no link (R492, R493). -/
def codeHere (c : Chip) (x : FltCode) : Bool := (x.linkpoll || x.isLink || linkWorks c x.page) && c.pwr.vauxUp

/-- Of the codes that wait, those that links hold now: a link holds one at a time (R491); `busy`: links that hold one. -/
def linkHeads : List Nat → List FltCode → List FltCode
  | _, [] => []
  | busy, x :: r =>
    if x.linkpoll || x.isLink then x :: linkHeads busy r
    else if busy.contains x.page then linkHeads busy r
    else x :: linkHeads (x.page :: busy) r

/-- A complete code of a page has come: its link is sound. -/
def hearPage (pg : Nat) (c : Chip) : Chip := { c with flt := { c.flt with heard := kvSet 0 c.flt.heard pg c.slp.aux } }

/-- The record arbiter takes the next code, or the next several that are together. -/
def effCapture (n : Nat) (c : Chip) : Chip :=
  let l := (linkHeads [] (c.flt.codes.filter (codeHere c))).take (max 1 n)
  let c1 := { c with flt := { c.flt with codes := l.foldl List.erase c.flt.codes } }
  captureAll l (forEach (l.filter fun x => !(x.linkpoll || x.isLink)) (fun x => hearPage x.page) c1)

def execFltCapture (together : Fin 16) (s : State) : Out3 := .next (onChip s (effCapture together.val))

/-- FE_DELAY after a RESET reaction the part takes a warm reset. -/
def execFeResetDelay (s : State) : Out3 := .next (if s.chip.flt.resetOwed then warmResets 4 s else s)

def execErrnPulseEnd (s : State) : Out3 := .next (onChip s (setPulse false))

/-- ERR_N is low (R504). -/
def errnLow (c : Chip) : Bool :=
  isF c FLT_ERRN_FORCE 0 || c.flt.pulse || (isF c FLT_ERRN_MODE 0 && pendQualifies c)

/-! ### Clearing records (R499) -/

def clearFirst (c : Chip) : Chip := putWords FLT_FIRST_WORD [0, 0, 0, 0, 0] c
def clearNext (c : Chip) : Chip := putWords FLT_NEXT_WORD [0, 0, 0, 0, 0] c

/-- FIRST, NEXT or both leave where their SEQ is s or earlier; NEXT then moves into an empty FIRST. -/
def clearRecords (s : Nat) (c : Chip) : Chip :=
  let old := fun w0 => recValid w0 && seqLe16 (w0 % 65536) s
  let c1 := if old (nextWord c 0) then clearNext c else c
  if old (firstWord c1 0) then
    clearNext (putWords FLT_FIRST_WORD ((List.range 5).map (nextWord c1)) (clearFirst c1))
  else c1

def execFltClr (pa : Path) (seq : Fin 65536) (s : State) : Out3 :=
  .next (onChip s (reachReg pa .flt 0 0x050 (clearRecords seq.val)))

/-! ### Fault links (R491 to R493, R495) -/

/-- What a pair of rails says: nothing, a digit, or what no page drives (R491). -/
inductive Digit
  | spacer | zero | one | invalid
deriving DecidableEq, Repr

def railDigit (hi lo : Bool) : Digit :=
  match hi, lo with
  | false, false => .spacer
  | false, true => .zero
  | true, false => .one
  | true, true => .invalid

/-- A complete code of a link. -/
inductive LinkCode
  | heartbeat
  | fault (sev : Nat)
deriving DecidableEq, Repr

/-- The code of the digits D1 and D0, complete once both are digits (R491). -/
def linkCode (d1 d0 : Digit) : Option LinkCode :=
  match d1, d0 with
  | .zero, .zero => some .heartbeat
  | .zero, .one => some (.fault 0)
  | .one, .zero => some (.fault 1)
  | .one, .one => some (.fault 2)
  | _, _ => none

/-- The rails that a page drives for a fault of a severity, D1 then D0, each high rail first. -/
def sevRails (sev : Nat) : (Bool × Bool) × (Bool × Bool) :=
  match sev with
  | 0 => ((false, true), (true, false))
  | 1 => ((true, false), (false, true))
  | _ => ((true, false), (true, false))

/-- A page that has a fault link: its block raises faults, and FLT's own goes to the record arbiter directly. -/
def hasLink (pg : Nat) : Bool :=
  match pageKind pg with
  | some (k, _) => k != .flt && !(errSevs k).isEmpty
  | none => false

/-- The block of the link has started (R495). -/
def linkStarted (c : Chip) (pg : Nat) : Bool :=
  match pageKind pg with
  | some (k, n) => pageStarted c k n
  | none => false

/-- The page holds a fault code for the arbiter. -/
def linkHolds (c : Chip) (pg : Nat) : Bool := c.flt.codes.any fun x => x.page == pg && !x.linkpoll && !x.isLink

/-- A heartbeat, of a page with no fault code under way: its link is sound, and nothing is recorded. -/
def effHeartbeat (pg : Nat) (c : Chip) : Chip :=
  if hasLink pg && linkWorks c pg && linkStarted c pg && !linkBroken c pg && !linkHolds c pg then hearPage pg c else c

def execFaultHeartbeat (pg : PageNo) (s : State) : Out3 := .next (onChip s (effHeartbeat pg.val))

/-- Rails that show a broken link: an invalid digit for 50 ns, one digit for 1 µs with the other at spacer, or no return
to spacer within 1 µs of the acknowledge (R492). -/
def railsFail (x : LinkSeen) : Bool :=
  let d1 := railDigit x.d1.1 x.d1.2
  let d0 := railDigit x.d0.1 x.d0.2
  (decide (50 ≤ x.ns) && (d1 == .invalid || d0 == .invalid))
    || (decide (1000 ≤ x.ns) && (d1 == .spacer) != (d0 == .spacer))
    || (decide (1000 ≤ x.ns) && x.acked && !(d1 == .spacer && d0 == .spacer))

/-- When the page last sent a complete code, or its block's start where that is later. -/
def heardAt (c : Chip) (pg : Nat) : Nat :=
  let start := match pageKind pg with
    | some (k, n) => (match pageStage k n with
      | some g => max c.flt.vauxAt (kvGet 0 c.flt.stageAt g)
      | none => c.flt.vauxAt)
    | none => c.flt.vauxAt
  max start (kvGet 0 c.flt.heard pg)

/-- No complete code for 30 µs, of a block that has started (R492, R495). -/
def linkSilent (c : Chip) (pg : Nat) : Bool :=
  linkStarted c pg && !linkHolds c pg && decide (heardAt c pg + 30000 ≤ c.slp.aux)

/-- FLT_LINK: the broken page is its source, and the capture does not travel on a link (R492). -/
def breakLink (pg : Nat) (c : Chip) : Chip :=
  let c1 := { c with flt := { c.flt with broken := c.flt.broken ++ [(pg, pageErr c pg)] } }
  if bit (getF c1 (PG_ERR .flt) 0) 0 then c1
  else
    let c2 := setF (PG_ERR .flt) 0 (setBit (getF c1 (PG_ERR .flt) 0) 0) c1
    if pgUnmasked c2 .flt 0 0 then
      emitCode { page := pg, sev := pgSev c2 .flt 0 0, linkpoll := false, inj := false, isLink := true, time := c2.slp.aux } c2
    else c2

/-- FLT looks at a link, and declares it broken where one of the four conditions holds. -/
def effLink (pg : Nat) (seen : LinkSeen) (c : Chip) : Chip :=
  if hasLink pg && linkWorks c pg && !linkBroken c pg && (railsFail seen || linkSilent c pg) then breakLink pg c else c

def execFltLink (pg : PageNo) (seen : LinkSeen) (s : State) : Out3 := .next (onChip s (effLink pg.val seen))

/-- Each bit of a broken page that has gone from 0 to 1 since the previous read, masked or not: what FLT reads is PG_ERR
alone (DEDUCED, log entry 119). -/
def pollPage (k : PK) (n pg was : Nat) (c : Chip) : Chip :=
  let v := getF c (PG_ERR k) n
  let c1 := { c with flt := { c.flt with broken := c.flt.broken.map fun b => if b.1 = pg then (pg, v) else b } }
  let new := (List.range 16).filter fun b => bit v b && !bit was b
  count .flt 0 4 (forEach new (fun b c =>
    emitCode { page := pg, sev := pgSev c k n b, linkpoll := true, inj := false, isLink := false, time := c.slp.aux } c) c1)

def effLinkPoll (pg : Nat) (c : Chip) : Chip :=
  match c.flt.broken.find? (fun b => b.1 == pg), pageKind pg with
  | some b, some (k, n) => pollPage k n pg b.2 c
  | _, _ => c

def execFltLinkPoll (pg : PageNo) (s : State) : Out3 := .next (onChip s (effLinkPoll pg.val))

/-! ### The error registers of a page (R487 to R490) -/

/-- Bits written to PG_ERR_INJ, the highest severity first. -/
def injectErrs (v : Nat) (k : PK) (n : Nat) (c : Chip) : Chip :=
  let bs := (List.range (errSevs k).length).filter (bit v)
  forEach (sortBy (fun b => 2 - pgSev c k n b) bs) (raiseWith true k n) c

def execPgErrInj (pa : Path) (pg : PageNo) (bits : BitVec 16) (s : State) : Out3 :=
  .next (onChip s (reachPage pa pg 0x024 (injectErrs bits.toNat)))

/-- The code that page k raises for bit b: FLT_LINK has the first broken page as its source (R492). -/
def pageCode (c : Chip) (k : PK) (n b : Nat) : FltCode :=
  let link := k == .flt && b == 0
  { page := if link then ((c.flt.broken.head?).map (·.1)).getD (pageOf k n) else pageOf k n
    sev := pgSev c k n b, linkpoll := false, inj := false, isLink := link, time := c.slp.aux }

/-- A mask bit cleared while its PG_ERR bit is 1 raises the fault. -/
def maskErrs (v : Nat) (k : PK) (n : Nat) (c : Chip) : Chip :=
  let c1 := setF (PG_ERR_MASK k) n v c
  let bs := (List.range 16).filter fun b => bit (getF c (PG_ERR k) n) b && !pgUnmasked c k n b && pgUnmasked c1 k n b
  forEach (sortBy (fun b => 2 - pgSev c k n b) bs) (fun b c => emitCode (pageCode c k n b) c) c1

def execPgErrMaskWrite (pa : Path) (pg : PageNo) (mask : BitVec 16) (s : State) : Out3 :=
  .next (onChip s (reachPage pa pg 0x01C (maskErrs mask.toNat)))

def clearErrs (v : Nat) (k : PK) (n : Nat) (c : Chip) : Chip := setF (PG_ERR k) n (andNot (getF c (PG_ERR k) n) v) c

def execPgErrClear (pa : Path) (pg : PageNo) (bits : BitVec 16) (s : State) : Out3 :=
  .next (onChip s (reachPage pa pg 0x018 (clearErrs bits.toNat)))

/-- PG_ERR_SEV: a field beyond the page's sources, a value of 3, and a lowering of a stated FE are ignored (R488). -/
def sevWrite (v : Nat) (k : PK) (n : Nat) (c : Chip) : Chip :=
  forEach ((errSevs k).zip (List.range 16)) (fun x c =>
    let y := bits v (2 * x.2) 2
    if y = 3 ∨ (x.1 = 2 ∧ y ≠ 2) then c
    else
      let old := getF c (PG_ERR_SEV k) n
      setF (PG_ERR_SEV k) n (old - pgSev c k n x.2 * 4 ^ x.2 + y * 4 ^ x.2) c) c

end Sys2Proof.Machine
end

