-- ==== Sys2Proof/Machine/Lands.lean ====
section
/-!
DEFINITION. The lands of the package: what each output group carries in reset, from functional logic and under the test
access port, and the cells of the boundary-scan register (02_package_pins.md R61, R82 to R88).
-/
namespace Sys2Proof.Machine

/-! ### Instructions (R84) -/

/-- The instructions of the test access port. -/
inductive TapInstr where
  | extest | sample | idcode | highz | clamp | pulse | train | bypass
deriving DecidableEq, Repr

/-- The instruction of an opcode: reserved codes select the bypass register as BYPASS does. -/
def tapInstr (ir : BitVec 8) : TapInstr :=
  match ir.toNat with
  | 0 => .extest | 1 => .sample | 2 => .idcode | 3 => .highz | 4 => .clamp | 5 => .pulse | 6 => .train
  | _ => .bypass

/-- The instruction takes every scanned land from functional logic (R88). -/
def takesLands : TapInstr → Bool
  | .extest | .highz | .clamp | .pulse | .train => true
  | .sample | .idcode | .bypass => false

/-- The instruction that controls the scanned lands, if one does. -/
def scanning (c : Chip) : Option TapInstr := if c.tap.controlling then some (tapInstr c.tap.ir) else none

/-! ### Cells of the boundary-scan register (R86) -/

/-- Transmit enable of a lane group; transmit data of a lane. -/
def groupCell (g : Nat) : Nat := 35 + 49 * g
def txCell (l : Nat) : Nat := groupCell (l / 16) + 3 * (l % 16) + 1

/-- ALERT_N is driven low (19_bridge.md R560). -/
def alertDriven (c : Chip) : Bool := c.brg.alertLow && !c.brg.events.isEmpty && isF c BRG_ALERT_CFG_PIN 0

/-- The cells that stand for an output's drive or enable, whose value while it rests the functional logic gives: ERR_N and
ALERT_N, the enables of the management ports, the sideband outputs and the lane groups' transmitters. -/
def drivenCells (c : Chip) : List (Nat × Bool) :=
  [(4, errnLow c), (6, alertDriven c), (9, false), (12, false), (15, false), (18, false), (20, false), (21, c.pwr.vauxUp),
   (22, false), (23, c.pwr.vauxUp), (24, true), (25, c.pwr.vauxUp)] ++
  (List.range 64).map fun g => (groupCell g, laneStarted c (16 * g))

/-- What the register captures: the functional drives and enables, and at every other cell the level that the land or its
data has then. -/
def captured (c : Chip) (lands : BitVec 3171) : BitVec 3171 :=
  (drivenCells c).foldl (fun v x =>
    if x.2 then v ||| (1#3171 <<< x.1) else v &&& ~~~(1#3171 <<< x.1)) lands

def latch (c : Chip) (i : Nat) : Bool := c.tap.latches.getLsbD i

/-! ### Output levels (R61) -/

inductive LandLevel where
  | low | high | highZ
deriving DecidableEq, Repr

def levelOf (v : Bool) : LandLevel := if v then .high else .low

/-- An open-drain land: driven low by its drive cell or by functional logic; VAUX absent, it draws nothing (R64). -/
def openDrain (c : Chip) (cell : Nat) (fnLow : Bool) : LandLevel :=
  if !c.pwr.vaux then .highZ
  else match scanning c with
    | some .highz => .highZ
    | some _ => if latch c cell then .low else .highZ
    | none => if c.pwr.vauxUp && fnLow then .low else .highZ

def errnLand (c : Chip) : LandLevel := openDrain c 4 (errnLow c)
def alertLand (c : Chip) : LandLevel := openDrain c 6 (alertDriven c)

/-- A land with a data and an enable cell, by its level while no transfer runs. -/
def dataLand (c : Chip) (cell : Nat) (rest : LandLevel) : LandLevel :=
  if !c.pwr.vaux then .highZ
  else match scanning c with
    | some .highz => .highZ
    | some _ => if latch c (cell + 1) then levelOf (latch c cell) else .highZ
    | none => rest

/-- I3C0_SCL, I3C0_SDA, I3C1_SCL and I3C1_SDA between transfers. -/
def i3cLand (c : Chip) (k : Nat) : LandLevel := dataLand c (8 + 3 * k) .highZ

/-- SBC_CLK, SBC_DOUT and SBC_LD in reset and between frames (R61, R75 step 4). -/
def sbcLand (c : Chip) (k : Nat) : LandLevel := dataLand c (20 + 2 * k) (levelOf (k == 2))

/-- TDO drives in Shift-DR and Shift-IR only. -/
def tdoDriven (c : Chip) : Bool := c.pwr.vaux && (c.tap.ctl == .shiftDr || c.tap.ctl == .shiftIr)

/-- What the transmit lands of a lane carry: under the test access port, what its cell and its group's enable say. -/
def laneTx (c : Chip) (l : Nat) : TxDrive :=
  if !c.pwr.vin then .undriven
  else match scanning c with
    | none => laneTxFn c l
    | some .highz => .highZ
    | some i =>
      if !latch c (groupCell (l / 16)) then .idle
      else
        let v := latch c (txCell l)
        match i with
        | .pulse => .pulse v
        | .train => .train v
        | _ => .level v

end Sys2Proof.Machine
end

