-- ==== Sys2Proof/Machine/SbcTap.lean ====
section
/-!
DEFINITION. The sideband chain (02_package_pins.md R75 to R81; 19_bridge.md R561) and the test access port
(02_package_pins.md R82 to R88), with their commands.
-/
namespace Sys2Proof.Machine

/-! ### The sideband chain -/

/-- Chain length N in bits of the running frame. -/
def chainBits (c : Chip) : Nat := 8 * c.sbc.len

/-- The check byte, the last eight input stages, is 0xA5 (R77). -/
def checkOk (c : Chip) (img : Nat) : Bool := bits img (chainBits c - 8) 8 == 0xA5

/-- An indicator's level: off, on, or a blink whose phase the spec leaves open. -/
def indLevel (c : Chip) (v : Nat) : Bool := v == 1 || (v == 2 && drawn c % 2 == 1)

/-- Output bits that the enabled ports drive, with their levels: PERST_N and the two indicators (06_ports.md). -/
def portBits (c : Chip) : List (Nat × Bool) :=
  ((enabledPorts c).flatMap fun p =>
    [(getF c PRT_SLOT_OUT_PERST p, (prtSt c p).perstHigh), (getF c PRT_SLOT_OUT_PWR_LED p, indLevel c (getF c PRT_SLOT_PWR_IND p)),
     (getF c PRT_SLOT_OUT_ATTN_LED p, indLevel c (getF c PRT_SLOT_ATTN p))]).filter fun x => x.1 != 1023

/-- The output image: what software wrote, under the bits that ports drive. -/
def outImage (c : Chip) : Nat :=
  (portBits c).foldl (fun v x => if x.2 then setBit v x.1 else clearBit v x.1) c.sbc.outImg.toNat

/-- The previous frame took longer than the poll period, so this one starts late (R79): N + 2 periods of f MHz, and a poll
period in units of 0.1 ms, in the settings of that frame. -/
def frameLate (c : Chip) : Bool := c.sbc.ran && 100 * c.sbc.poll * c.sbc.freq < chainBits c + 2

/-- Step 1 and 2: the settings are taken, the pins get the previous frame's bits, and this frame's image of N bits is
captured: zeros for the first after a reset (R81). -/
def frameStart (c : Chip) : Chip :=
  let n := 8 * getF c BRG_SBC_CFG_LEN 0
  let img := if c.sbc.ran then outImage c % 2 ^ n else 0
  takeDraw { c with sbc := { c.sbc with
    len := getF c BRG_SBC_CFG_LEN 0, freq := getF c BRG_SBC_CFG_FREQ 0, poll := getF c BRG_SBC_CFG_POLL 0
    pins := c.sbc.shifted, shifted := BitVec.ofNat 1024 img, ran := true } }

/-- The words of CHG that hold a changed bit. -/
def noteChanges (diff : Nat) (c : Chip) : Chip :=
  forEach (List.range 32) (fun m c =>
    let d := diff / 2 ^ (32 * m) % 2 ^ 32
    if d = 0 then c else setFi BRG_SBC_CHG_CHG 0 m (Nat.lor (getFi c BRG_SBC_CHG_CHG 0 m) d) c) c

/-- A matching frame is published. -/
def publishFrame (img : Nat) (c : Chip) : Chip :=
  let v := img % 2 ^ chainBits c
  let diff := Nat.xor v c.sbc.inImg.toNat
  let c1 := { c with sbc := { c.sbc with inImg := BitVec.ofNat 1024 v, badRun := 0 } }
  let c2 := setF BRG_SBC_STAT_BROKEN 0 0 c1
  if diff = 0 then c2 else event .brgSbc 0 0 (noteChanges diff c2)

/-- Counting on BRG's pages: the central, sideband and sensor pages, and the port's own or every port's (log entry 85). -/
def countBrg (port : Option Nat) (x : Nat) (q : Option Nat) (c : Chip) : Chip :=
  let c1 := countN .brgC 0 x q 1 (countN .brgSbc 0 x q 1 (countN .brgSens 0 x q 1 c))
  forEach (match port with
    | some k => [k]
    | none => [0, 1]) (fun k c => countN .brgPort k x q 1 c) c1

/-- A frame whose check byte does not match is discarded. -/
def discardFrame (c : Chip) : Chip :=
  let n := c.sbc.badRun + 1
  let c1 := countBrg none 9 none (bumpF BRG_SBC_STAT_BAD 0 1 { c with sbc := { c.sbc with badRun := n } })
  if n = 3 then raise .brgSbc 0 0 (setF BRG_SBC_STAT_BROKEN 0 1 c1) else c1

/-- One frame with the input bits it sampled. -/
def frame (img : Nat) (c : Chip) : Chip :=
  let c1 := countBrg none 8 none (whenB (frameLate c) (bumpF BRG_SBC_STAT_LATE 0 1) (frameStart c))
  if checkOk c1 img then publishFrame img c1 else discardFrame c1

def effFrame (img : Nat) (c : Chip) : Chip := if c.pwr.chainUp && !c.tap.controlling then frame img c else c

def execSbcFrame (img : BitVec 1024) (s : State) : Out3 := .next (onChip s (effFrame img.toNat))

/-! ### The test access port (R82 to R88) -/

/-- The controller's next state, by TMS at a rising edge of TCK (R82). -/
def tapNext (s : TapCtl) (tms : Bool) : TapCtl :=
  match s, tms with
  | .testLogicReset, true => .testLogicReset | .testLogicReset, false => .runTestIdle
  | .runTestIdle, true => .selectDr | .runTestIdle, false => .runTestIdle
  | .selectDr, true => .selectIr | .selectDr, false => .captureDr
  | .captureDr, true => .exit1Dr | .captureDr, false => .shiftDr
  | .shiftDr, true => .exit1Dr | .shiftDr, false => .shiftDr
  | .exit1Dr, true => .updateDr | .exit1Dr, false => .pauseDr
  | .pauseDr, true => .exit2Dr | .pauseDr, false => .pauseDr
  | .exit2Dr, true => .updateDr | .exit2Dr, false => .shiftDr
  | .updateDr, true => .selectDr | .updateDr, false => .runTestIdle
  | .selectIr, true => .testLogicReset | .selectIr, false => .captureIr
  | .captureIr, true => .exit1Ir | .captureIr, false => .shiftIr
  | .shiftIr, true => .exit1Ir | .shiftIr, false => .shiftIr
  | .exit1Ir, true => .updateIr | .exit1Ir, false => .pauseIr
  | .pauseIr, true => .exit2Ir | .pauseIr, false => .pauseIr
  | .exit2Ir, true => .updateIr | .exit2Ir, false => .shiftIr
  | .updateIr, true => .selectDr | .updateIr, false => .runTestIdle

def tapWalk (s : TapCtl) (tms : List Bool) : TapCtl := tms.foldl tapNext s

/-- TMS of a scan of n bits, from Run-Test/Idle and back to it: of the instruction register, or of a data register. -/
def scanTms (instr : Bool) (n : Nat) : List Bool :=
  (if instr then [true, true, false, false] else [true, false, false]) ++ List.replicate (n - 1) false ++ [true, true, false]

def setTap (f : Tap → Tap) (c : Chip) : Chip := { c with tap := f c.tap }

/-- The bits of a scan as a number, first bit lowest. -/
def bitsNat (l : List Bool) : Nat := l.foldr (fun b v => b2n b + 2 * v) 0

/-- A scan of a data register of `len` stages that captured v: what leaves at TDO, and what the stages hold after it. -/
def shiftThrough (len v : Nat) (tdi : List Bool) : Nat × Nat :=
  let all := v + 2 ^ len * bitsNat tdi
  (all % 2 ^ tdi.length, all / 2 ^ tdi.length % 2 ^ len)

/-- A scan of the data register that the instruction selects (R84 to R86): capture, shift and update. -/
def scanDr (x : TapScan) (c : Chip) : Chip :=
  if x.tdi.isEmpty then c
  else
    let c1 := setTap (fun t => { t with ctl := tapWalk t.ctl (scanTms false x.tdi.length) }) c
    let out := fun (r : Nat × Nat) (c : Chip) => send (.tapShift false x.tdi.length r.1) c
    match tapInstr c.tap.ir with
    | .idcode => out (shiftThrough 32 0x21024C3B x.tdi) c1
    | .extest | .sample | .pulse | .train =>
      let r := shiftThrough 3171 (captured c x.lands).toNat x.tdi
      out r (setTap (fun t => { t with cells := BitVec.ofNat 3171 r.2, latches := BitVec.ofNat 3171 r.2 }) c1)
    | .highz | .clamp | .bypass =>
      let r := shiftThrough 1 0 x.tdi
      out r (setTap (fun t => { t with bypass := r.2 == 1 }) c1)

/-- A far-end loopback set by register loses its received data, and waits for signal again (04_lanes.md R143). -/
def unloop (l : Nat) (c : Chip) : Chip :=
  if (laneSt c l).lb = .closed ∧ getLane c PHY_LANE_CTRL_LB l = 3 then
    takePatterns l (setLb l .waitSignal (setLane PHY_LANE_STAT_LBACT l 0 (setLane PHY_LANE_STAT_CDR_LOCK l 0
      (setLane PHY_LANE_STAT_SIGDET l 0 c))))
  else c

/-- The scanned lands leave functional logic: out of warm reset, every link goes down (R88). -/
def takeLands (c : Chip) : Chip :=
  let c1 := setTap (fun t => { t with controlling := true }) c
  if c.pwr.vauxUp && !c.tap.controlling then
    forEach (c.phy.lane.map (·.1)) unloop (forEach (enabledPorts c1) (fun p c => takeDown p false c) c1)
  else c1

/-- The lands return to functional logic; the links retrain. -/
def returnLands (c : Chip) : Chip := setTap (fun t => { t with controlling := false }) c

/-- An instruction is loaded. What leaves at TDO meanwhile is 01 in the two lowest bits, as IEEE 1149.1 has it, and six bits
that no source states (log entry 72). -/
def loadIr (op : BitVec 8) (x : TapScan) (c : Chip) : Chip :=
  let idle := tapWalk c.tap.ctl (if c.tap.ctl = .testLogicReset then [false] else [])
  let c1 := takeDraw (send (.tapShift true 8 (1 + 4 * (drawn c % 64)))
    (setTap (fun t => { t with ctl := tapWalk idle (scanTms true 8), irShift := op, ir := op }) c))
  scanDr x (if takesLands (tapInstr op) then takeLands c1 else returnLands c1)

/-- Test-Logic-Reset: the instruction is IDCODE (R83). -/
def resetTap (c : Chip) : Chip :=
  returnLands (setTap (fun t => { t with ctl := tapWalk t.ctl (List.replicate 5 true), ir := 2 }) c)

/-- The TAP runs from VAUX. -/
def onTap (f : Chip → Chip) (s : State) : Out3 := .next (onChip s fun c => if c.pwr.vaux then f c else c)

def execTapReset (s : State) : Out3 := onTap resetTap s
def execTapExtest (x : TapScan) (s : State) : Out3 := onTap (loadIr 0 x) s
def execTapSamplePreload (x : TapScan) (s : State) : Out3 := onTap (loadIr 1 x) s
/-- IDCODE returns 0x2102_4C3B (R85). -/
def execTapIdcode (x : TapScan) (s : State) : Out3 := onTap (loadIr 2 x) s
def execTapHighz (x : TapScan) (s : State) : Out3 := onTap (loadIr 3 x) s
def execTapClamp (x : TapScan) (s : State) : Out3 := onTap (loadIr 4 x) s
def execTapExtestPulse (x : TapScan) (s : State) : Out3 := onTap (loadIr 5 x) s
def execTapExtestTrain (x : TapScan) (s : State) : Out3 := onTap (loadIr 6 x) s
/-- BYPASS, a reserved opcode, or any other: its instruction is loaded. -/
def execTapBypass (opcode : BitVec 8) (x : TapScan) (s : State) : Out3 := onTap (loadIr opcode x) s

end Sys2Proof.Machine
end

