-- ==== Sys2Proof/Machine/RegRead.lean ====
section
/-!
DEFINITION. What a read of a register word returns (22_register_map.md R599 to R603, and the register table of each block's
chapter): stored fields, the fields that are computed when they are read, counters, the window table, the loss log and
the record buffers; and what a read through the bridge changes.
-/
namespace Sys2Proof.Machine

/-! ### Sensor entries (19_bridge.md R556 to R558) -/

/-- Word 0 of an enabled entry. -/
def sensWord0 (signed : Bool) (lsb width baseUnit unitMod : Nat) : Nat :=
  2 ^ 31 + b2n signed * 2 ^ 30 + lsb * 2 ^ 25 + width * 2 ^ 20 + baseUnit * 2 ^ 8 + unitMod

def mkSensor (w0 addr m sh : Nat) : Sensor :=
  { w0 := w0, w1 := addr, w2 := m * 2 ^ 16 + sh * 2 ^ 8, w3 := 0, reading := 0, available := false }

/-- The entries that the table holds at reset (R558); every other entry is all zeros. -/
def defaultSensor (e : Nat) : Sensor :=
  if e = 0 then mkSensor (sensWord0 true 0 9 2 0xFF) 0x10060 5 0
  else if e = 1 then mkSensor (sensWord0 false 0 11 5 0xFD) 0x10068 1 0
  else if e = 2 then mkSensor (sensWord0 false 16 11 5 0xFD) 0x10068 1 0
  else if e = 3 then mkSensor (sensWord0 false 0 11 5 0xFE) 0x1006C 1 0
  else if e = 4 then mkSensor (sensWord0 false 0 9 5 0xFD) 0x10058 1 0
  else if e = 5 then mkSensor (sensWord0 false 0 10 0 0xFD) 0x10054 1000 10
  else if 16 ≤ e ∧ e < 80 then mkSensor (sensWord0 false 16 15 6 0xFE) (0xA0058 + (e - 16) * 0x1000) 1 0
  else if 80 ≤ e ∧ e < 144 then mkSensor (sensWord0 false 0 15 5 0xFD) (0xA0058 + (e - 80) * 0x1000) 1 0
  else { w0 := 0, w1 := 0, w2 := 0, w3 := 0, reading := 0, available := false }

def sensorOf (c : Chip) (e : Nat) : Sensor := (kvFind c.brg.sensors e).getD (defaultSensor e)
def setSensor (e : Nat) (x : Sensor) (c : Chip) : Chip := { c with brg := { c.brg with sensors := kvPut c.brg.sensors e x } }

def sensorWord (x : Sensor) (i : Nat) : Nat :=
  match i with
  | 0 => x.w0 | 1 => x.w1 | 2 => x.w2 | _ => x.w3

/-! ### Fields computed when they are read -/

def brgPortOf (c : Chip) (k : Nat) : BrgPort := if k = 0 then c.brg.port0 else c.brg.port1

/-- Static address of a management port (R543), and its provisional ID: Nolric's manufacturer code in [47:33], part ID
0x1024 in [31:16], random part 0 (R564, 02_package_pins.md R85). -/
def staticAddr (c : Chip) (k : Nat) : Nat := 0x60 + 8 * k + c.pwr.maddr
def provisionalId : Nat := 0x61D * 2 ^ 33 + 0x1024 * 2 ^ 16

/-- The group's allotments, and the cells used of them (07_switch_core.md R259). -/
def allotSize (c : Chip) (g : Nat) : Nat :=
  ((enabledPorts c).filter fun p => groupOf p == g).foldl (fun n p => n + allotOf c p) 128
def allotUsed (c : Chip) (g : Nat) : Nat :=
  c.xbr.pkts.foldl (fun n k => if !k.shared && groupOf k.ingress == g then n + heldCells k else n) 0

/-- The queue that XBR_GP_QSEL of a group selects: its egress port and class. -/
def selectedQueue (c : Chip) (g : Nat) : Nat × Nat := (16 * g + getF c XBR_GP_QSEL_POS g, getF c XBR_GP_QSEL_CLASS g)
def queueHeld (c : Chip) (g : Nat) : Nat :=
  let q := selectedQueue c g
  (c.xbr.pkts.filter fun k => k.held && !k.multicast && egressOf k == q.1 && clsOf k.typ == q.2).length

/-- SLT_STAT.DRAINALL: PWR_WARN or SLT_DRAIN drains every entry, of those that SLT_STAT counts (13_ordering.md R449, R450). -/
def drainsAll (c : Chip) (p : Nat) : Bool :=
  c.pwr.warn || (isF c SLT_DRAIN_GO p && ((kvGet [] c.slt.drainAll p).isEmpty ||
    (kvGet [] c.slt.drainAll p).any fun i => (slateEntry c i).any fun e => !e.shed))

/-- What a rake slot shows (10_placement.md R357). -/
def rakSlotWord (c : Chip) (k : Nat) : Nat :=
  match kvFind c.rak.slots k with
  | none => 0
  | some s => match s.work with
    | .move t => 2 ^ 31 + t
    | .job x => 2 ^ 31 + (tenSt c x).job.kind * 2 ^ 29 + x

def rakProgWord (c : Chip) (k : Nat) : Nat :=
  match kvFind c.rak.slots k with
  | none => 0
  | some s => b2n s.waitSrc * 2 ^ 20 + (match s.work with
    | .move _ => s.reason * 2 ^ 16 + s.c % 2 ^ 16
    | .job x => (tenSt c x).job.bytes / 65536 % 2 ^ 16)

def rakJobs (c : Chip) : Nat :=
  (c.rak.slots.filter fun e => match e.2.work with
    | .job _ => true
    | .move _ => false).length

/-- Hosts whose ROL_GONE bit is set. -/
def goneCount (c : Chip) : Nat := (List.range 8).foldl (fun n i => n + popCount 32 (getFi c ROL_GONE_GONE 0 i)) 0

/-- Requests of a roll slice that wait for a tracker or a lock. -/
def sliceWaiting (c : Chip) (n : Nat) : Nat :=
  (c.txns.filter fun t => (t.stage == .lockWait || t.stage == .parked) && rolSlice t.line == n).length

def sliceEntries (c : Chip) (n : Nat) (p : RollEntry → Bool) : Nat :=
  (c.rol.entries.filter fun e => rolSlice e.1 == n && p e.2).length

/-- The log record that FLT_LOG_SEL selects. -/
def selectedRecord (c : Chip) : Option FltRec := c.flt.log.find? fun r => recSeq r == getF c FLT_LOG_SEL_SEQ 0

def linkStatWord (c : Chip) : Nat :=
  match c.flt.broken with
  | [] => 0
  | b :: _ => 2 ^ 31 + identOf b.1 / 2 ^ 27 * 2 ^ 26 + identOf b.1 % 2 ^ 13 * 2 ^ 13 + c.flt.broken.length

/-- Shaper slots in use on a port. -/
def shaperUsed (c : Chip) (p : Nat) : Nat := (tenanciesOf c p).foldl (fun n t => n + (tenSt c t).queue.length) 0

def lossCount (c : Chip) (t : Nat) : Nat := (tenSt c t).ovf * 2 ^ 8 + (tenSt c t).log.length

/-- Views of a port page: presence and power-good of the slot. -/
def slotView (c : Chip) (p : Nat) : Nat :=
  if slotted c p then b2n (slotPresent c p) * 2 ^ 17 + b2n (slotPg c p) * 2 ^ 16 else 0

def slpView (c : Chip) (n : Nat) : Nat :=
  b2n (rawPresent c n) * 2 ^ 26 + b2n c.slp.hvOk * 2 ^ 23 + (match portOfChan c n with
    | some p => 2 ^ 16 + p
    | none => 0)

/-- The computed bits of the word at an offset of page n of a kind. That PWR_VCORE.VCORE rounds a half millivolt down is a
DESIGN CHOICE (log entry 104): R118 states whole millivolts, and R101 steps of 2.5 mV. -/
def viewWord (c : Chip) (k : PK) (n off : Nat) : Nat :=
  match k with
  | .glb => if off = 0x044 then Config.serial % 2 ^ 32 else if off = 0x048 then Config.serial / 2 ^ 32 else 0
  | .pwr => if off = 0x058 then c.pwr.vcore2 / 2 else 0
  | .flt =>
    if off = 0x044 then b2n (errnLow c) * 2 ^ 29
    else if off = 0x060 then
      (c.flt.log.getLast?.map recSeq).getD 0 * 2 ^ 16 + (c.flt.log.head?.map recSeq).getD 0
    else if off = 0x068 then b2n (selectedRecord c).isSome * 2 ^ 31
    else if off = 0x06C then linkStatWord c
    else if 0x0C0 ≤ off ∧ off ≤ 0x0D0 then
      match selectedRecord c with
      | some r => nth (recWords r) ((off - 0x0C0) / 4)
      | none => 0
    else 0
  | .sec =>
    if off = 0x040 then b2n (activeSlot c false) * 2 ^ 31 + b2n (activeSlot c true) * 2 ^ 30
    else if off = 0x044 then minSvn c true % 128 * 2 ^ 16 + minSvn c false % 128
    else if off = 0x048 then revokedKeys c % 16
    else if 0x100 ≤ off ∧ off < 0x160 then Config.devidPub ((off - 0x100) / 4) % 2 ^ 32
    else 0
  | .mgtC =>
    let v := irqSummary c (getF c MGT_SUM_SEL_ID 0)
    if off = 0x048 then v % 2 ^ 32 else if off = 0x04C then v / 2 ^ 32 % 2 ^ 32 else 0
  | .mgtCore => if off = 0x048 then b2n (notified c n) * 2 ^ 29 + (heldIds c n).length % 4096 * 2 ^ 16 else 0
  | .brgC => if off = 0x04C then c.brg.events.length else 0
  | .brgPort =>
    if off = 0x044 then staticAddr c n
    else if off = 0x048 then provisionalId % 2 ^ 32
    else if off = 0x04C then provisionalId / 2 ^ 32
    else if off = 0x050 then (brgPortOf c n).posted.length
    else 0
  | .brgSbc =>
    if 0x100 ≤ off ∧ off < 0x180 then c.sbc.inImg.toNat % 2 ^ (8 * c.sbc.len) / 2 ^ (8 * (off - 0x100)) % 2 ^ 32
    else if 0x180 ≤ off ∧ off < 0x200 then outImage c % 2 ^ (8 * c.sbc.len) / 2 ^ (8 * (off - 0x180)) % 2 ^ 32
    else 0
  | .brgSens =>
    let x := sensorOf c (getF c BRG_SENS_SEL_ENTRY 0)
    if 0x050 ≤ off ∧ off < 0x060 then sensorWord x ((off - 0x050) / 4)
    else if off = 0x060 then ofInt 32 x.reading
    else 0
  | .slp =>
    if off = 0x054 then slpView c n
    else if off = 0x060 then coolLeft c n
    else if off = 0x084 ∧ n = 0 then (waitingChans c).length * 2 ^ 16 + ramping c
    else 0
  | .tmb =>
    if off = 0x040 then c.tmb.now % 2 ^ 32 else if off = 0x044 then c.tmb.now / 2 ^ 32
    else if off = 0x050 then rackTime c % 2 ^ 32 else if off = 0x054 then rackTime c / 2 ^ 32
    else if off = 0x058 then b2n (tmbRuns c) * 2 ^ 31 else 0
  | .xbrG =>
    if off = 0x05C then
      let q := selectedQueue c n
      min (queueHeld c n) 4095 * 2 ^ 20 + queueShared c q.1 q.2
    else if off = 0x060 then allotSize c n * 2 ^ 16 + allotUsed c n
    else 0
  | .xbrC =>
    if off = 0x04C then sharedSize c else if off = 0x050 then sharedUsed c
    else if off = 0x054 then min (c.xbr.pkts.filter (·.multicast)).length 65535 else 0
  | .rolC => if off = 0x044 then goneCount c else if off = 0x068 then parkUsed c else 0
  | .rolS =>
    if off = 0x040 then trackersUsed c n * 2 ^ 16 + min (sliceWaiting c n) 65535
    else if off = 0x044 then sliceEntries c n fun _ => true
    else if off = 0x048 then sliceEntries c n (·.coarse)
    else 0
  | .map =>
    if off = 0x058 then c.map.splits.length * 2 ^ 17
    else if off = 0x060 then (c.map.ring.head?.map ringWord).getD 0
    else 0
  | .mrk =>
    if off = 0x0A4 then kvGet 0 c.mrk.hist (getF c MRK_HIST_SEL_PAN 0 * 16 + getF c MRK_HIST_SEL_BUCKET 0)
    else if 0x080 ≤ off ∧ off < 0x0A0 ∧ off % 8 = 0 then panCap c ((off - 0x080) / 8)
    else 0
  | .rak =>
    if off = 0x048 then c.rak.slots.length * 2 ^ 24 + rakJobs c * 2 ^ 16 + c.rak.pending.length
    else if 0x100 ≤ off ∧ off < 0x500 then
      (if off % 8 = 0 then rakSlotWord c ((off - 0x100) / 8) else rakProgWord c ((off - 0x100) / 8))
    else 0
  | .carC => if off = 0x060 then (c.car.ring.head?.map careWord).getD 0 else 0
  | .phyT =>
    if off = 0x044 then
      b2n (pageStarted c .phyT n && tileOk c n) * 2 + b2n (pageStarted c .phyT n && !refGone c n)
    else 0
  | .lnk =>
    if off = 0x04C then capShown c n * 2 ^ 16 + (lnkSt c n).unacked.length
    else if off = 0x058 then bucketsShown c n * 2 ^ 8
    else if 0x060 ≤ off ∧ off < 0x070 then credAdv c n ((off - 0x060) / 4) * 2 ^ 16
    else 0
  | .prt => if off = 0x050 then slotView c n else 0
  | .bnd => if off = 0x048 then c.bnd.dirty.length else if off = 0x054 then oldestEpoch c else 0
  | .ten =>
    if off = 0x04C then b2n (tenSt c n).job.paused * 2 ^ 28 + b2n ((tenSt c n).nlost != 0) * 2 ^ 27
    else if off = 0x064 then lossCount c n
    else 0
  | .slt =>
    if off = 0x048 then
      b2n (drainsAll c n) * 2 ^ 31 + slateShown c n * 2 ^ 16 +
        (c.slt.entries.filter fun e => e.port == n && e.draining && !e.shed).length
    else if off = 0x060 then c.slt.lost.length
    else 0
  | .shpT => if off = 0x058 then (tenSt c n).queue.length else 0
  | .shpP => if off = 0x044 then qSum c n * 2 ^ 16 + shaperUsed c n else 0
  | .mgtCfg | .cnt | .carD | .phyG | .pfxF | .pfxC => 0

/-! ### Words -/

/-- The word of field X that lies at an offset. -/
def wordIndex (X : Fld) (off : Nat) : Option Nat :=
  if X.off ≤ off ∧ (off - X.off) % X.stride = 0 ∧ (off - X.off) / X.stride < X.cnt then some ((off - X.off) / X.stride)
  else none

/-- What field X adds to the word at an offset: WO fields read 0, and computed ones come from `viewWord`. -/
def storedPart (c : Chip) (n off : Nat) (idle : Bool) (X : Fld) : Nat :=
  match wordIndex X off with
  | none => 0
  | some i =>
    if X.view || X.acc == .wo then 0
    else (if idle then rstAt X n i else getFi c X n i) * 2 ^ X.lo

/-- A page that reads its reset values: of a port that is not enabled (05_links.md R196), of a slate whose port is not an enabled
pool face (13_ordering.md R449). -/
def pageIdle (c : Chip) (k : PK) (n : Nat) : Bool :=
  match k with
  | .lnk => !portOn c n
  | .slt => !poolFace c n
  | _ => false

/-- Registers that read 0 whatever they hold: PRT_DEV and PRT_DEV_CAP off a device face (06_ports.md R228), the shelf
registers off SC0 (17_slot_power.md R527). -/
def readsZero (c : Chip) (k : PK) (n off : Nat) : Bool :=
  (k == .prt && (off == 0x054 || off == 0x058) && pers c n != 2) || (k == .slp && 0x080 ≤ off && off ≤ 0x084 && n != 0)

/-- The reset value of a computed field on a page that reads its reset values: LNK_CREDc.ADV (05_links.md R163). -/
def idleView (c : Chip) (k : PK) (n off : Nat) : Nat :=
  if k == .lnk && 0x060 ≤ off && off < 0x070 then trunkCredit ((off - 0x060) / 4) * portWidth c n / 16 * 2 ^ 16 else 0

def blockWord (c : Chip) (k : PK) (n off : Nat) : Nat :=
  if readsZero c k n off then 0
  else
    let idle := pageIdle c k n
    (fieldsOf k).foldl (fun v X => v + storedPart c n off idle X) (if idle then idleView c k n off else viewWord c k n off)

/-- A word of the page header (R602, R603). -/
def headerWord (c : Chip) (k : PK) (n off : Nat) : Nat :=
  if off = 0x000 then identOf (pageOf k n)
  else if off = 0x004 then 1
  else if off = 0x008 then evtBits k * 2 ^ 16 + (errSevs k).length * 2 ^ 8 + 16
  else if off = 0x00C then getF c (PG_LOCK k) n
  else if off = 0x010 then getF c (PG_CTRL_CFRZ k) n
  else if off = 0x014 then
    b2n (linkBroken c (pageOf k n)) * 4 + getF c (PG_LOCK k) n * 2 + b2n (pageStarted c k n)
  else if off = 0x018 then getF c (PG_ERR k) n
  else if off = 0x01C then getF c (PG_ERR_MASK k) n
  else if off = 0x020 then getF c (PG_ERR_SEV k) n
  else if off = 0x028 then getF c (PG_EVT_PEND k) n
  else if off = 0x02C then getF c (PG_EVT_EN k) n
  else 0

/-- A word of the counter region (21_counters.md R583, R584). -/
def counterWord (c : Chip) (pg off : Nat) : Nat :=
  if off < 0xE40 then (ctrOf c pg ((off - 0xE00) / 4)).sel
  else if off < 0xF00 then 0
  else
    let i := (off - 0xF00) / 8 % 16
    half (if off < 0xF80 then (ctrOf c pg i).val else (ctrOf c pg i).snap) (off % 8 == 4)

/-- A word of the loss log in the management view, and of the record buffer (14_tenancy_qos.md R467 to R469). -/
def tenancyWord (s : State) (t off : Nat) : Nat :=
  if off < 0x400 then
    match (tenSt s.chip t).log[(off - 0x200) / 8]? with
    | some e => half (lossMgmt e) (off % 8 == 4)
    | none => 0
  else readLe s.recs (recAddr t (off - 0x400)) 4

/-- The word at an offset of page n of a kind. -/
def regWord (s : State) (k : PK) (n off : Nat) : Nat :=
  if off < 0x040 then headerWord s.chip k n off
  else if 0xE00 ≤ off then counterWord s.chip (pageOf k n) off
  else if k = .ten ∧ 0x200 ≤ off ∧ off < 0x800 then tenancyWord s n off
  else blockWord s.chip k n off

/-- The word at an address of the window table (08_binding.md R261, R263). -/
def windowTableWord (c : Chip) (addr : Nat) : Nat :=
  let w := (addr - 0x01C00000) / 64
  winWord (if isF c BND_CTRL_VIEW 0 then stagedWin c w else liveWin c w) (liveWin c w) (addr % 64 / 4)

/-- The word at an address of a defined page. -/
def wordAt (s : State) (addr : Nat) : Nat :=
  match pageKind (addr / 4096) with
  | some (k, n) => regWord s k n (addr % 4096)
  | none => if isWindowPage (addr / 4096) then windowTableWord s.chip addr else 0

/-! ### A read through a path -/

/-- The low word of a 64-bit register that a read latches, with its 64 bits (R587, R610). -/
def latched (c : Chip) (pg off : Nat) : Option Nat :=
  if pg = pageOf .tmb 0 ∧ (off = 0x040 ∨ off = 0x048 ∨ off = 0x050) then
    some (if off = 0x040 then c.tmb.now else if off = 0x048 then tmbOfs c else rackTime c)
  else if 0xF00 ≤ off ∧ (pageKind pg).isSome then
    some (if off < 0xF80 then (ctrOf c pg ((off - 0xF00) / 8)).val else (ctrOf c pg ((off - 0xF80) / 8)).snap)
  else none

/-- A word read through a path that is not a core's own: what it returns, and what it changes. The two rings give up their
oldest item, and the 64-bit registers latch. -/
def readThrough (pa : Path) (addr : Nat) (s : State) : Nat × State :=
  let c := s.chip
  let pg := addr / 4096
  let off := addr % 4096
  let low := addr / 8 * 8
  if pg = pageOf .map 0 ∧ off = 0x060 then
    (wordAt s addr, { s with chip := match c.map.ring with
      | [] => c
      | i :: rest => publishUsed (whenB (2 ≤ i.kind) (setF MAP_RING_LOC_LOC 0 i.loc) { c with map := { c.map with ring := rest } }) })
  else if pg = pageOf .carC 0 ∧ off = 0x060 then
    (wordAt s addr, { s with chip := match c.car.ring with
      | [] => c
      | i :: rest => setF CAR_RING_TILE_TILE 0 i.tile (feedRing { c with car := { c.car with ring := rest } }) })
  else match latched c pg (low % 4096) with
    | some v =>
      let r := if addr = low then readLow pa low v c else readHigh pa low v c
      (r.1, { s with chip := r.2 })
    | none => (wordAt s addr, s)

end Sys2Proof.Machine
end

