-- ==== Sys2Proof/Machine/RegWrite.lean ====
section
/-!
DEFINITION. What a write of a register word does (00_scope.md R13, R14; 22_register_map.md R597 to R606, and the register
table of each block's chapter): fields by access type, the registers whose writes act, and REGISTER_WRITE itself.
-/
namespace Sys2Proof.Machine

/-! ### Fields of a word -/

/-- Field X's part of a word written at an offset. -/
def writePart (n off v : Nat) (X : Fld) (c : Chip) : Chip :=
  match wordIndex X off with
  | some i => if X.view then c else writeFld X n i (bits v X.lo X.w) c
  | none => c

/-- Every field of a word but some, by access type (R13). -/
def writeFldsBut (skip : List Fld) (k : PK) (n off v : Nat) (c : Chip) : Chip :=
  forEach ((fieldsOf k).filter fun X => !skip.contains X) (writePart n off v) c

def writeFlds (k : PK) (n off v : Nat) (c : Chip) : Chip := writeFldsBut [] k n off v c

/-- A write of one field by access type. -/
def writeOne (X : Fld) (n v : Nat) (c : Chip) : Chip := writeFld X n 0 (bits v X.lo X.w) c

/-! ### The header and the counters (R602 to R604, 21_counters.md R583) -/

def headerWrite (k : PK) (n off v : Nat) (c : Chip) : Chip :=
  if off = 0x00C then whenB (bit v 0) (setF (PG_LOCK k) n 1) c
  else if off = 0x010 then setF (PG_CTRL_CFRZ k) n v c
  else if off = 0x018 then clearErrs (v % 2 ^ 16) k n c
  else if off = 0x01C then maskErrs (v % 2 ^ 16) k n c
  else if off = 0x020 then sevWrite v k n c
  else if off = 0x024 then injectErrs (v % 2 ^ 16) k n c
  else if off = 0x028 then setF (PG_EVT_PEND k) n (andNot (getF c (PG_EVT_PEND k) n) (v % 2 ^ 16)) c
  else if off = 0x02C then setF (PG_EVT_EN k) n v c
  else c

def counterWrite (pa : Path) (k : PK) (n off v : Nat) (c : Chip) : Chip :=
  let pg := pageOf k n
  if off < 0xE40 then selWrite pg ((off - 0xE00) / 4) v k c
  else if off < 0xF00 ∨ 0xF80 ≤ off then c
  else if off % 8 = 0 then holdLow pa (ctrAddr pg off) v c
  else valHigh pa pg ((off - 0xF00) / 8) v c

/-! ### Blocks of the VAUX domain -/

/-- SEC_UPD_CTRL (20_security.md R571, R582): OP and TYPE are set, and GO runs OP. -/
def updCtrlWrite (v : Nat) (c : Chip) : Chip :=
  if bit v 31 then
    let op := if fldTakes SEC_UPD_CTRL_OP (bits v 28 3) then bits v 28 3 else getF c SEC_UPD_CTRL_OP 0
    let pfx := bit v 27
    match op with
    | 1 => updCommand 1 pfx (updBegin pfx) c
    | 2 => updCommand 2 pfx (updVerify pfx) c
    | 3 => updCommand 3 pfx (updActivate pfx) c
    | 4 => updCommand 4 pfx (commitSvn pfx) c
    | _ => writeOne SEC_UPD_CTRL_TYPE 0 v c
  else writeOne SEC_UPD_CTRL_TYPE 0 v (writeOne SEC_UPD_CTRL_OP 0 v c)

def secWrite (pa : Path) (off v : Nat) (c : Chip) : Chip :=
  if off = 0x048 then keyrev (v % 16) c
  else if off = 0x04C then updCtrlWrite v c
  else if off = 0x050 then updData v c
  else if 0x058 ≤ off ∧ off ≤ 0x060 then (if pa = .core then writeFlds .sec 0 off v c else c)
  else writeFlds .sec 0 off v c

/-- MGT_COMP (18_mgmt_interrupts.md R537): only a core can be an ID's claimer. -/
def compWrite (pa : Path) (core v : Nat) (c : Chip) : Chip :=
  if pa = .core then comp core (v % 4096) c else raise .mgtC 0 0 c

def mgtCoreWrite (pa : Path) (core off v : Nat) (c : Chip) : Chip :=
  if off = 0x040 then rstWrite core (bit v 31) (writeOne MGT_CORE_CTRL_WDT core v c)
  else if off = 0x044 then kick core c
  else if off = 0x04C then threshWrite core (v % 8) c
  else if off = 0x054 then compWrite pa core v c
  else writeFlds .mgtCore core off v c

/-- Chain bits that enabled ports name (06_ports.md R216). -/
def namedBits (c : Chip) (p : Nat) : List Nat :=
  [getF c PRT_SLOT_IN_BTN p, getF c PRT_SLOT_IN_PRSNT p, getF c PRT_SLOT_OUT_PERST p, getF c PRT_SLOT_OUT_PWR_LED p,
   getF c PRT_SLOT_OUT_ATTN_LED p]

/-- A chain length keeps every named index below N - 8 (R216). -/
def lenOk (c : Chip) (len : Nat) : Bool :=
  ((enabledPorts c).flatMap (namedBits c) ++ allChans.map (getF c SLP_PRES_PBIT)).all fun i => i == 1023 || i + 8 < 8 * len

/-- The output image with the bits of one word that no enabled port drives (19_bridge.md R561). -/
def sbcOutWrite (m v : Nat) (c : Chip) : Chip :=
  let driven := (portBits c).map (·.1)
  let img := (List.range 32).foldl (fun x i =>
    if driven.contains (32 * m + i) then x else if bit v i then setBit x (32 * m + i) else clearBit x (32 * m + i))
    c.sbc.outImg.toNat
  { c with sbc := { c.sbc with outImg := BitVec.ofNat 1024 img } }

def brgSbcWrite (off v : Nat) (c : Chip) : Chip :=
  if off = 0x040 then writeFldsBut (if lenOk c (bits v 24 8) then [] else [BRG_SBC_CFG_LEN]) .brgSbc 0 off v c
  else if 0x180 ≤ off ∧ off < 0x200 then sbcOutWrite ((off - 0x180) / 4) v c
  else writeFlds .brgSbc 0 off v c

/-- The PDR repository has changed, and its update time advances (19_bridge.md R555). -/
def pdrChanged (c : Chip) : Chip := { c with brg := { c.brg with pdrTime := max (c.brg.pdrTime + 1) (nowNs c) } }

/-- A word of a sensor entry: unlisted bits are not stored (R557). -/
def sensorWrite (i v : Nat) (c : Chip) : Chip :=
  let e := getF c BRG_SENS_SEL_ENTRY 0
  let x := sensorOf c e
  let y := match i with
    | 0 => { x with w0 := bits v 20 12 * 2 ^ 20 + bits v 0 16 }
    | 1 => { x with w1 := bits v 2 25 * 4 }
    | 2 => { x with w2 := bits v 16 16 * 2 ^ 16 + bits v 8 5 * 2 ^ 8 }
    | _ => { x with w3 := v % 2 ^ 32 }
  pdrChanged (setSensor e y c)

def brgSensWrite (off v : Nat) (c : Chip) : Chip :=
  if 0x050 ≤ off ∧ off < 0x060 then sensorWrite ((off - 0x050) / 4) v c else writeFlds .brgSens 0 off v c

def slpWrite (n off v : Nat) (c : Chip) : Chip :=
  if off = 0x040 then slpEnable n (bit v 31) (writeFldsBut [SLP_CFG_EN] .slp n off v c)
  else if off = 0x048 then writeFldsBut (if chainIndexOk c (bits v 0 10) then [] else [SLP_PRES_PBIT]) .slp n off v c
  else if off = 0x050 then softReq n (bit v 31) c
  else if off = 0x06C then whenB (bit v 31) (peakClr n) c
  else if 0x080 ≤ off ∧ off ≤ 0x084 ∧ n ≠ 0 then c
  else writeFlds .slp n off v c

/-! ### FLT, GLB, TMB, CNT -/

/-- FLT_CLR clears records; a severity enabled for ERR_N in LEVEL mode while its bit is pending holds ERR_N low for at
least PULSE (16_faults.md R499, R504). -/
def fltWrite (off v : Nat) (c : Chip) : Chip :=
  if off = 0x050 then clearRecords (v % 65536) c
  else
    let c1 := writeFlds .flt 0 off v c
    whenB (off = 0x044 && isF c1 FLT_ERRN_MODE 0 && !pendQualifies c && pendQualifies c1) (setPulse true) c1

def glbWrite (off v : Nat) (c : Chip) : Chip :=
  if off = 0x054 then glbFreeze (bit v 31) (writeFldsBut [GLB_FREEZE_FREEZE] .glb 0 off v c) else writeFlds .glb 0 off v c

def tmbWrite (pa : Path) (off v : Nat) (c : Chip) : Chip :=
  if off = 0x048 then holdLow pa ofsAddr v c
  else if off = 0x04C then ofsHigh pa v c
  else writeFlds .tmb 0 off v c

def cntWrite (off v : Nat) (c : Chip) : Chip :=
  if off = 0x040 then cntFreeze (bit v 31) (writeFldsBut [CNT_CTRL_FREEZE] .cnt 0 off v c)
  else if off = 0x044 then whenB (bit v 31) snapDue c
  else c

/-! ### Binding, the map, placement, care -/

def bndCtrlWrite (off v : Nat) (c : Chip) : Chip :=
  if off = 0x044 then (if (enabledPorts c).any (trunk c) then c else writeFlds .bnd 0 off v c)
  else if off = 0x048 then whenB (bit v 31) (bndWrite .go) (whenB (bit v 30) (bndWrite .discard) c)
  else if off = 0x058 then effDrainTgt v c
  else writeFlds .bnd 0 off v c

/-- A copy's device list may be written: while RUN is 0, or, of the lost copy, while SINGLE names the other copy and no
rebuild runs (09_tile_map.md R317). -/
def copyOpen (c : Chip) (i : Nat) : Bool := !isF c MAP_CTRL_RUN 0 || (mapSingle c == 2 - i && !c.map.rebuilding)

/-- The registers of a map command interface are written while no command runs on it (09_tile_map.md R318). -/
def ifaceWrite (i : Nat) (k : PK) (n off v : Nat) (c : Chip) : Chip := if cmdGo c i then c else writeFlds k n off v c

/-- MAP_CMD or PFX_CMD of interface i (R299): while no command runs, the settings are stored, and GO runs the command. -/
def mapCmdWrite (i : Nat) (k : PK) (n v : Nat) (c : Chip) : Chip :=
  if cmdGo c i then c else
  let c1 := writeFldsBut [MAP_CMD_GO, PFX_CMD_GO] k n 0x070 v c
  if bit v 31 && ifaceFree c1 i then runCmd i (bits v 27 4) noWrites c1 else c1

def mapWrite (off v : Nat) (c : Chip) : Chip :=
  if off = 0x040 then
    whenB (bit v 29) effMapRebuild (whenB (bit v 30) effMapInit (whenB (bit v 31) effMapRun
      (writeFldsBut [MAP_CTRL_RUN, MAP_CTRL_INIT, MAP_CTRL_REBUILD] .map 0 off v c)))
  else if off = 0x044 then (if isF c MAP_CTRL_RUN 0 then c else writeFlds .map 0 off v c)
  else if off = 0x048 ∨ off = 0x04C then (if copyOpen c 0 then writeFlds .map 0 off v c else c)
  else if off = 0x050 ∨ off = 0x054 then (if copyOpen c 1 then writeFlds .map 0 off v c else c)
  else if off = 0x070 then mapCmdWrite 0 .map 0 v c
  else if 0x074 ≤ off ∧ off < 0x090 then ifaceWrite 0 .map 0 off v c
  else writeFlds .map 0 off v c

/-- A change of a pan's EN makes the prefects look for misplaced tiles (10_placement.md R333): listed as window
65,536, which no window bears. -/
def panWrite (p off v : Nat) (c : Chip) : Chip :=
  let c1 := writeFldsBut (if p = 0 then [MRK_PAN_CFG_PROMOTE] else []) .mrk 0 off v c
  if getFi c MRK_PAN_CFG_EN 0 p = getFi c1 MRK_PAN_CFG_EN 0 p then c1
  else prefectsSee [] { c1 with mrk := { c1.mrk with misplaced := addNew c1.mrk.misplaced 65536 } }

def mrkWrite (off v : Nat) (c : Chip) : Chip :=
  if off = 0x040 then
    let c1 := writeFldsBut [MRK_CTRL_EN] .mrk 0 off v c
    if isF c1 MRK_CTRL_EN 0 == bit v 31 then c1 else effMrkEnable (bit v 31) c1
  else if 0x060 ≤ off ∧ off < 0x080 ∧ off % 8 = 0 then panWrite ((off - 0x060) / 8) off v c
  else writeFlds .mrk 0 off v c

/-- CAR_DEV_CFG (11_media_care.md R360): a write that changes CLASS or PORT while EN is 1 is ignored. -/
def carCfgWrite (d v : Nat) (c : Chip) : Chip :=
  if isF c CAR_DEV_CFG_EN d && (getF c CAR_DEV_CFG_CLASS d != bits v 26 2 || getF c CAR_DEV_CFG_PORT d != bits v 0 10) then c
  else carBind d (bit v 31) (writeFldsBut [CAR_DEV_CFG_EN] .carD d 0x040 v c)

def carDWrite (d off v : Nat) (c : Chip) : Chip :=
  if off = 0x040 then carCfgWrite d v c
  else if off = 0x064 then whenB (bit v 31) (abortEvac d (bits v 28 3)) c
  else writeFlds .carD d off v c

def rolWrite (off v : Nat) (c : Chip) : Chip :=
  if off = 0x06C then whenB (bit v 31) parkHwClr c
  else if off = 0x080 then whenB (bit v 31) probe (writeFldsBut [ROL_PROBE_GO] .rolC 0 off v c)
  else writeFlds .rolC 0 off v c

/-! ### Lanes and links -/

/-- PHY_LANE_CTRL (04_lanes.md R154): LBRATE and the modes first, then FREEZE, PD and LB. A non-zero LB enters a loopback
whatever LB was (R143); what its initial adaptation finds is a free value. -/
def laneCtrlWrite (g off l v : Nat) (c : Chip) : Chip :=
  let c1 := writeFldsBut [PHY_LANE_CTRL_PD, PHY_LANE_CTRL_LB, PHY_LANE_CTRL_FREEZE] .phyG g off v c
  let c2 := if getLane c1 PHY_LANE_CTRL_FREEZE l = b2n (bit v 19) then c1 else freezeLane l (bit v 19) c1
  let c3 := if getLane c2 PHY_LANE_CTRL_PD l = b2n (bit v 31) then c2 else powerLane l (bit v 31) c2
  let lb := bits v 28 3
  if lb = 0 then exitLoop l c3
  else if 3 < lb then c3
  else takeDraw (enterLoop l lb (drawnAdapt (drawn c3)) c3)

/-- A register of lane l at an offset within the lane's registers (R128, R149, R151, R154). -/
def laneWrite (g off l r v : Nat) (c : Chip) : Chip :=
  let frozen := getLane c PHY_LANE_CTRL_FREEZE l == 1
  if r = 0x00 then laneCtrlWrite g off l v c
  else if (0x08 ≤ r ∧ r ≤ 0x10) ∨ r = 0x20 then (if frozen then writeFlds .phyG g off v c else c)
  else if 0x14 ≤ r ∧ r ≤ 0x1C then
    (if frozen then movePos l ((r - 0x14) / 4) (bits v 16 7) (writeFldsBut fposFlds .phyG g off v c) else c)
  else if r = 0x28 then
    let c1 := writeFldsBut [PHY_LANE_PAT_GEN_EN, PHY_LANE_PAT_CHK_EN] .phyG g off v c
    chkEnable l (bit v 30) (genEnable l (bit v 31) c1)
  else if r = 0x3C then whenB (bit v 31) (marginStart l) (writeFldsBut [PHY_LANE_MARGIN_GO] .phyG g off v c)
  else writeFlds .phyG g off v c

def phyGWrite (g off v : Nat) (c : Chip) : Chip :=
  if 0x100 ≤ off ∧ off < 0x900 then laneWrite g off (16 * g + (off - 0x100) / 128) (off % 128) v c
  else writeFlds .phyG g off v c

/-- LNK_WIDTH (05_links.md R188, R196): REQ no wider than the trained width. -/
def widthWrite (p v : Nat) (c : Chip) : Chip :=
  let skip := if bits v 0 5 ≤ getF c PRT_STAT_TWIDTH p then [LNK_WIDTH_GO] else [LNK_WIDTH_GO, LNK_WIDTH_REQ]
  whenB (bit v 31) (widthGo p none) (writeFldsBut skip .lnk p 0x05C v c)

/-- LNK_CREDc.ADV of a port configured as a trunk, at least 16 (R167, R196). -/
def advWrite (p cls v : Nat) (c : Chip) : Chip :=
  if pers c p == 4 && 16 ≤ bits v 16 12 then
    { c with lnk := { c.lnk with adv := kvPut c.lnk.adv (p * 4 + cls) (bits v 16 12) } }
  else c

def lnkWrite (p off v : Nat) (c : Chip) : Chip :=
  if off = 0x040 then whenB (bit v 8) (retrainWrite p) (writeFldsBut [LNK_CTRL_RETRAIN] .lnk p off v c)
  else if off = 0x054 then splitWrite p (bits v 0 9) c
  else if off = 0x05C then widthWrite p v c
  else if 0x060 ≤ off ∧ off < 0x070 then advWrite p ((off - 0x060) / 4) v c
  else writeFlds .lnk p off v c

/-! ### Ports (06_ports.md R201, R218, R228) -/

/-- The write changes a field that may change only while EN is 0. -/
def cfgChanges (c : Chip) (p v : Nat) : Bool :=
  getF c PRT_CFG_PERS p != bits v 28 3 || getF c PRT_CFG_WIDTH p != bits v 23 5 ||
    (!pageLocked c .prt p && (getF c PRT_CFG_MGR p != bits v 21 1 || getF c PRT_CFG_IDE_REQ p != bits v 20 1))

def prtCfgWrite (p v : Nat) (c : Chip) : Chip :=
  if portOn c p && cfgChanges c p v then setF PRT_STAT_CFG_STATUS p 7 c
  else
    let c1 := writeFldsBut [PRT_CFG_EN] .prt p 0x040 v c
    if bit v 31 then enablePort p c1 else disablePort p c1

/-- PWR_REQ as software writes it: a change on an enabled slotted port is the port's request. -/
def pwrReqWrite (p : Nat) (on : Bool) (c : Chip) : Chip :=
  if isF c PRT_SLOT_PWR_REQ p == on then c
  else if portOn c p && slotted c p && deviceFacing c p then slotRequest p on c
  else setF PRT_SLOT_PWR_REQ p (b2n on) c

/-- AUTO set where presence is qualified already powers the slot (R219 step 1). -/
def autoStart (p : Nat) (c : Chip) : Chip :=
  if portOn c p && deviceFacing c p && slotPresent c p && isF c PRT_SLOT_AUTO p && !boundFace c p &&
      !isF c PRT_SLOT_PWR_REQ p then startPower p c
  else c

def prtSlotWrite (p v : Nat) (c : Chip) : Chip :=
  let held := if portOn c p then [PRT_SLOT_SLOTTED, PRT_SLOT_CHAN] else []
  let host := if boundFace c p then [PRT_SLOT_ATTN] else []
  let c1 := writeFldsBut ([PRT_SLOT_PWR_REQ, PRT_SLOT_REMOVE_REQ] ++ held ++ host) .prt p 0x050 v c
  let c2 := if boundFace c p then c1 else pwrReqWrite p (bit v 23) c1
  whenB (bit v 22) (removeReq p) (whenB (!isF c PRT_SLOT_AUTO p) (autoStart p) c2)

def prtWrite (p off v : Nat) (c : Chip) : Chip :=
  if off = 0x040 then prtCfgWrite p v c
  else if off = 0x048 ∨ off = 0x04C then (if portOn c p then c else writeFlds .prt p off v c)
  else if off = 0x050 then prtSlotWrite p v c
  else writeFlds .prt p off v c

/-! ### Tenancies, slates -/

def tenWrite (t off v : Nat) (c : Chip) : Chip :=
  let offState := tenState c t == 0
  if isF c TEN_CMD_GO t && 0x040 ≤ off && off ≤ 0x048 then c
  else if off = 0x040 then writeFldsBut (if offState then [] else [TEN_CFG_PORT]) .ten t off v c
  else if off = 0x044 ∨ off = 0x048 then (if offState then writeFlds .ten t off v c else c)
  else if off = 0x068 then clearLoss t v c
  else writeFlds .ten t off v c

/-- SLT_WAT (13_ordering.md R449): LOWAT stays below HIWAT, or the write is ignored as a whole. -/
def watWrite (p v : Nat) (c : Chip) : Chip :=
  let hi := if fldTakes SLT_WAT_HIWAT (bits v 16 11) then bits v 16 11 else getF c SLT_WAT_HIWAT p
  let lo := if fldTakes SLT_WAT_LOWAT (bits v 0 11) then bits v 0 11 else getF c SLT_WAT_LOWAT p
  if hi ≤ lo then c else writeFlds .slt p 0x044 v c

def sltWrite (p off v : Nat) (c : Chip) : Chip :=
  if off = 0x044 then watWrite p v c
  else if off = 0x04C then whenB (bit v 31) (drainSlate p) c
  else if off = 0x050 then whenB (bit v 31) (occHwClr p) c
  else writeFlds .slt p off v c

def shpTWrite (t off v : Nat) (c : Chip) : Chip :=
  if off = 0x04C then srateEnWrite t (bit v 31) (writeFldsBut [SHP_SRATE_EN] .shpT t off v c)
  else if off = 0x050 then qmaxWrite t (bits v 20 11) (writeFldsBut [SHP_SBURST_QMAX] .shpT t off v c)
  else writeFlds .shpT t off v c

/-! ### Words -/

/-- A write at an offset of page n of a kind, in its block registers. -/
def blockWrite (pa : Path) (k : PK) (n off v : Nat) (c : Chip) : Chip :=
  match k with
  | .glb => glbWrite off v c
  | .flt => fltWrite off v c
  | .sec => secWrite pa off v c
  | .mgtC => if off = 0x040 then swi (v % 4096) c else writeFlds .mgtC 0 off v c
  | .mgtCore => mgtCoreWrite pa n off v c
  | .mgtCfg => if 0x100 ≤ off ∧ off < 0x500 then irqWord (256 * n + (off - 0x100) / 4) v c else c
  | .brgSbc => brgSbcWrite off v c
  | .brgSens => brgSensWrite off v c
  | .slp => slpWrite n off v c
  | .tmb => tmbWrite pa off v c
  | .cnt => cntWrite off v c
  | .bnd => bndCtrlWrite off v c
  | .map => mapWrite off v c
  | .pfxF => if off = 0x070 then mapCmdWrite (1 + n) .pfxF n v c
    else if 0x074 ≤ off ∧ off < 0x090 then ifaceWrite (1 + n) .pfxF n off v c else writeFlds .pfxF n off v c
  | .mrk => mrkWrite off v c
  | .carD => carDWrite n off v c
  | .rolC => rolWrite off v c
  | .phyG => phyGWrite n off v c
  | .phyT => if off = 0x040 then selectRef n (bit v 0) c else c
  | .lnk => lnkWrite n off v c
  | .prt => prtWrite n off v c
  | .ten => tenWrite n off v c
  | .slt => sltWrite n off v c
  | .shpT => shpTWrite n off v c
  | .pwr | .brgC | .brgPort | .xbrG | .xbrC | .rolS | .rak | .carC | .pfxC | .shpP => writeFlds k n off v c

/-- A write at an offset of page n of a kind. -/
def chipWrite (pa : Path) (k : PK) (n off v : Nat) (c : Chip) : Chip :=
  if off < 0x040 then headerWrite k n off v c
  else if 0xE00 ≤ off then counterWrite pa k n off v c
  else blockWrite pa k n off v c

/-- TEN_CMD (14_tenancy_qos.md R456): OP is stored, and GO runs it. -/
def tenCmdWrite (pa : Path) (t v : Nat) (s : State) : State :=
  let op := bits v 28 3
  if isF s.chip TEN_CMD_GO t then s
  else if !bit v 31 then onChip s (setF TEN_CMD_OP t op)
  else match op with
    | 1 => onChip s (tenCommand t (enableTen t))
    | 2 => onChip s (tenCommand t (disableTen t))
    | 3 => onChip s (tenCommand t (freezeTen t))
    | 4 => onChip s (tenCommand t (thawTen t))
    | 5 => onChip s (tenCommand t (resetTen t))
    | 6 => tenRecCommand pa t (saveTen t) s
    | 7 => tenRecCommand pa t (restoreTen t) s
    | _ => onChip s (tenCommand t (cmdRefuse t 0 2))

/-- A word of the record buffer, written while the tenancy is OFF (R469). -/
def recordWrite (t off v : Nat) (s : State) : State :=
  if tenState s.chip t = 0 then { s with recs := writeBytes s.recs (recAddr t (off - 0x400)) (leBytes 4 v) } else s

/-- A write of a word of a page that the path reaches. -/
def pageWord (pa : Path) (k : PK) (n off v : Nat) (s : State) : State :=
  if k = .glb ∧ off = 0x04C then resetWrite pa (v % 65536) s
  else if k = .ten ∧ off = 0x050 then tenCmdWrite pa n v s
  else if k = .ten ∧ 0x400 ≤ off ∧ off < 0x800 then recordWrite n off v s
  else onChip s (chipWrite pa k n off v)

/-! ### A write through a path (R596 to R600) -/

/-- The block page that an address belongs to: its kind and number, the binding control page for the window table. -/
def pageAt (addr : Nat) : Option (PK × Nat) :=
  match pageKind (addr / 4096) with
  | some x => some x
  | none => if isWindowPage (addr / 4096) then some (.bnd, 0) else none

/-- A word written where the path reaches the page. -/
def writeOpen (pa : Path) (addr v : Nat) (s : State) : State :=
  match pageKind (addr / 4096) with
  | some (k, n) => pageWord pa k n (addr % 4096) v s
  | none => onChip s (effWindowWrite pa ((addr - 0x01C00000) / 64) (addr % 64 / 4) v)

/-- One word written through a path. -/
def writeWord (pa : Path) (addr v : Nat) (s : State) : State :=
  match pageAt addr with
  | none => onChip s (refuseAccess pa 2 addr)
  | some (k, n) =>
    if pathClosed s.chip pa (blockOf k) then onChip s (closedHit pa)
    else if pageStarted s.chip k n then writeOpen pa addr v s
    else if pa = .bridge then s
    else onChip s (refuseAccess pa 0 addr)

/-- An access of four bytes, or of eight through a path other than the bridge, low word first. -/
def registerWrite (pa : Path) (addr size v : Nat) (s : State) : State :=
  if !pathUp s.chip pa then onChip s (pathAbsent pa)
  else if size = 4 ∧ addr % 4 = 0 then writeWord pa addr (v % 2 ^ 32) s
  else if size = 8 ∧ addr % 8 = 0 ∧ pa ≠ .bridge then
    writeWord pa (addr + 4) (v / 2 ^ 32) (writeWord pa addr (v % 2 ^ 32) s)
  else onChip s (refuseAccess pa 1 addr)

def execRegisterWrite (pa : Path) (addr size : Nat) (v : BitVec 64) (s : State) : Out3 :=
  .next (registerWrite pa addr size v.toNat s)

end Sys2Proof.Machine
end

