-- ==== Sys2Proof/Machine/Brg.lean ====
section
/-!
DEFINITION. The management bridge: register requests, posted writes, I3C, MCTP, PLDM with its sensors, platform events and
alerts (19_bridge.md R543 to R564), with their commands; and STAGE_COMPLETE, which lets waiting requests go on.
-/
namespace Sys2Proof.Machine

/-! ### Management ports (R543 to R545) -/

def setBrgPort (k : Nat) (x : BrgPort) (c : Chip) : Chip :=
  { c with brg := if k = 0 then { c.brg with port0 := x } else { c.brg with port1 := x } }

def inI3c (c : Chip) (k : Nat) : Bool := isF c BRG_PORT_STAT_I3C k
def busErr (k : Nat) (c : Chip) : Chip := raise .brgPort k 0 c

/-! ### Register requests (R546 to R551) -/

/-- Why a request is refused (R547). -/
def reqFault (c : Chip) (addr : Nat) : Option BrgRes :=
  if addr % 4 ≠ 0 ∨ 2 ^ 27 ≤ addr then some .error
  else match pageAt addr with
    | none => some .error
    | some (k, _) => if pathClosed c .bridge (blockOf k) then some .denied else none

/-- A refusal is recorded by GLB, or by SEC for a closed page. -/
def noteReqFault (res : BrgRes) (addr : Nat) (c : Chip) : Chip :=
  if res = .denied then raise .sec 0 4 (countQ .sec 0 8 1 c)
  else noteRefusal .bridge (if addr % 4 ≠ 0 then 1 else 2) (addr % 2 ^ 27) c

/-- The page that an address names has started. -/
def reqStarted (c : Chip) (addr : Nat) : Bool :=
  match pageAt addr with
  | some (k, n) => pageStarted c k n
  | none => false

/-- STATUS of a result (R549). -/
def statusCode (r : BrgRes) : Nat :=
  match r with
  | .done => 0 | .running => 1 | .none => 2 | .error => 3 | .denied => 4 | .timeout => 5

/-- The running request of port k ends. -/
def finishReq (k : Nat) (res : BrgRes) (data : Nat) (c : Chip) : Chip :=
  countBrg (some k) 2 (some (statusCode res)) (setBrgPort k { brgPortOf c k with req := none, res := res, data := data } c)

/-- A write is applied; where that was a reset, no result is left (22_register_map.md R606). -/
def runWrite (k : Nat) (r : BrgReq) (s : State) : State :=
  let s1 := writeOpen .bridge r.addr r.v s
  if (brgPortOf s1.chip k).req = some r then onChip s1 (finishReq k .done 0) else s1

def runRead (k : Nat) (r : BrgReq) (s : State) : State :=
  let x := readThrough .bridge r.addr s
  onChip x.2 (finishReq k .done x.1)

/-- The running request ends where it is refused, or its page has started and every earlier posted write is applied. -/
def tryReq (k : Nat) (s : State) : State :=
  match (brgPortOf s.chip k).req with
  | none => s
  | some r =>
    if r.ahead ≠ 0 then s
    else match reqFault s.chip r.addr with
      | some res => onChip s fun c => finishReq k res 0 (noteReqFault res r.addr c)
      | none =>
        if !reqStarted s.chip r.addr then s
        else if r.write then runWrite k r s
        else runRead k r s

/-- A write that ended with TIMEOUT and may now be applied. -/
def lateReady (c : Chip) (r : BrgReq) : Bool := r.ahead == 0 && (reqFault c r.addr).isNone && reqStarted c r.addr

def dropLate (k : Nat) (r : BrgReq) (c : Chip) : Chip :=
  let x := brgPortOf c k
  setBrgPort k { x with late := dropFirst (· == r) x.late } c

/-- Timed-out writes are applied in their order, each once it may be. -/
def runLate (k : Nat) (s : State) : State :=
  (brgPortOf s.chip k).late.foldl (fun s r =>
    if lateReady s.chip r then writeOpen .bridge r.addr r.v (onChip s (dropLate k r)) else s) s

def brgSettle (k : Nat) (s : State) : State := tryReq k (runLate k s)

/-- A non-posted request arrives: it is accepted and counted in SEQ, or discarded while another runs (R548). -/
def acceptReq (k : Nat) (write : Bool) (addr v : Nat) (s : State) : State :=
  let x := brgPortOf s.chip k
  if x.req.isSome then onChip s (bumpF BRG_PORT_REQ_DISC k 1)
  else
    let r : BrgReq := { addr := addr, write := write, v := v, ahead := x.posted.length }
    brgSettle k (onChip s (setBrgPort k { x with req := some r, res := .running, data := 0, seq := (x.seq + 1) % 256 }))

/-- A register command whose SMBus transfer fails its PEC is not taken, and BRG_BUS_ERR is raised (R546; log entry 112);
on I3C there is no PEC. -/
def onTransfer (k : Nat) (pec : Bool) (f : State → State) (s : State) : State :=
  if !brgAnswers s.chip k then s
  else if !pec && !inI3c s.chip k then onChip s (busErr k)
  else f s

def execBrgRead (k : MgmtPort) (addr : Word) (pec : Bool) (s : State) : Out3 :=
  .next (onTransfer k pec (acceptReq k false addr.toNat 0) s)

/-- The range that decides whether a write is posted: the lowest enabled one that holds its page (R550). -/
def writePosted (c : Chip) (addr : Nat) : Bool :=
  match (List.range 4).find? fun i => getFi c BRG_WRANGE_EN 0 i == 1 && getFi c BRG_WRANGE_BASE 0 i ≤ addr / 4096 &&
      addr / 4096 ≤ getFi c BRG_WRLIM_LIMIT 0 i with
  | some i => getFi c BRG_WRANGE_POSTED 0 i == 1
  | none => false

/-- A posted write is discarded: recorded if no record is held, and BRG_PW_FAIL. -/
def postedFail (k addr : Nat) (c : Chip) : Chip :=
  let c1 := if isF c BRG_PORT_PWERR_VALID k then c
    else setF BRG_PORT_PWERR_VALID k 1 (setF BRG_PORT_PWERR_ADDR k addr c)
  raise .brgPort k 1 c1

/-- A posted write arrives. -/
def postWrite (k addr v : Nat) (c : Chip) : Chip :=
  let x := brgPortOf c k
  match reqFault c addr with
  | some res => postedFail k addr (noteReqFault res addr c)
  | none =>
    if 16 ≤ x.posted.length then postedFail k addr c
    else countBrg (some k) 3 none (setBrgPort k { x with posted := x.posted ++ [(addr, v)] } c)

def execBrgWrite (k : MgmtPort) (addr : Word) (v : Word) (pec : Bool) (s : State) : Out3 :=
  .next (onTransfer k pec (fun s =>
    if writePosted s.chip addr.toNat then onChip s (postWrite k addr.toNat v.toNat)
    else acceptReq k true addr.toNat v.toNat s) s)

/-- The oldest posted write leaves the queue. -/
def popPosted (k : Nat) (c : Chip) : Chip :=
  let x := brgPortOf c k
  let less := fun (r : BrgReq) => { r with ahead := r.ahead - 1 }
  setBrgPort k { x with posted := x.posted.drop 1, req := x.req.map less, late := x.late.map less } c

/-- The oldest posted write is applied once its page has started (R551); its page closed meanwhile, it is discarded. -/
def applyPosted (k : Nat) (s : State) : State :=
  match (brgPortOf s.chip k).posted with
  | [] => s
  | (addr, v) :: _ =>
    match reqFault s.chip addr with
    | some res => brgSettle k (onChip s fun c => postedFail k addr (noteReqFault res addr (popPosted k c)))
    | none =>
      if reqStarted s.chip addr then brgSettle k (writeOpen .bridge addr v (onChip s (popPosted k))) else s

def execPostedWriteApply (k : MgmtPort) (s : State) : Out3 := .next (applyPosted k s)

/-- RESULT: six bytes, and it changes nothing (R549). -/
def resultOf (c : Chip) (k : Nat) : List Nat :=
  let x := brgPortOf c k
  [statusCode x.res, x.seq] ++ (List.range 4).map fun i => x.data / 256 ^ i % 256

/-- One bit of the packet error code of SMBus: CRC-8 with polynomial x^8 + x^2 + x + 1. -/
def pecBit (v : Nat) : Nat := if v < 128 then 2 * v else Nat.xor (2 * v - 256) 7

def pecBits : Nat → Nat → Nat
  | 0, v => v
  | n + 1, v => pecBits n (pecBit v)

/-- The packet error code over the bytes of a transfer. -/
def pec (l : List Nat) : Nat := l.foldl (fun v b => pecBits 8 (Nat.xor v b)) 0

/-- What leaves for RESULT: on I3C the six bytes; on SMBus the block read's byte count, the bytes, and the PEC over the
whole transfer (R546). -/
def resultBytes (c : Chip) (k : Nat) : List Nat :=
  let r := resultOf c k
  if inI3c c k then r
  else 6 :: r ++ [pec ([2 * staticAddr c k, 0x12, 2 * staticAddr c k + 1, 6] ++ r)]

def effResult (k : Nat) (c : Chip) : Chip := if brgAnswers c k then send (.brg k 0x12 (resultBytes c k)) c else c

def execBrgResult (k : MgmtPort) (s : State) : Out3 := .next (onChip s (effResult k))

/-- A reserved command byte. -/
def effReserved (k code : Nat) (c : Chip) : Chip :=
  if brgAnswers c k && !(0x0F ≤ code && code ≤ 0x12) && !(inI3c c k && code == 0x01) then
    send (.brgNack k code) (busErr k c)
  else c

def execBrgReservedCommand (k : MgmtPort) (code : Fin 256) (s : State) : Out3 := .next (onChip s (effReserved k code))

/-- FETCH_TMO ends the running request; whether a timed-out write is still applied is left open, a free value. -/
def effFetchTimeout (k : Nat) (c : Chip) : Chip :=
  match (brgPortOf c k).req with
  | none => c
  | some r =>
    let c1 := if reqStarted c r.addr then c else noteRefusal .bridge 0 (r.addr % 2 ^ 27) c
    let c2 := finishReq k .timeout 0 c1
    if r.write then
      let x := brgPortOf c2 k
      takeDraw (if drawn c2 % 2 = 1 then setBrgPort k { x with late := x.late ++ [r] } c2 else c2)
    else c2

def execBrgFetchTimeout (k : MgmtPort) (s : State) : Out3 := .next (onChip s (effFetchTimeout k))

/-- A stage of the staggered start completes, and requests that waited for its pages run (22_register_map.md R600). -/
def execStageComplete (k : Fin 15) (s : State) : Out3 := .next (brgSettle 1 (brgSettle 0 (onChip s (effStageDone k))))

/-! ### I3C (R544) -/

def i3cEnter (k addr : Nat) (c : Chip) : Chip :=
  if brgAnswers c k && !isF c BRG_PORT_CFG_SMB_ONLY k && !inI3c c k then
    setF BRG_PORT_STAT_I3C k 1 (setF BRG_PORT_STAT_DADDR k addr c)
  else c

def execI3cSetdasa (k : MgmtPort) (addr : Fin 128) (s : State) : Out3 := .next (onChip s (i3cEnter k addr))
def execI3cEntdaa (k : MgmtPort) (addr : Fin 128) (s : State) : Out3 := .next (onChip s (i3cEnter k addr))

def i3cLeave (k : Nat) (c : Chip) : Chip :=
  if brgAnswers c k then setF BRG_PORT_STAT_I3C k 0 (setF BRG_PORT_STAT_DADDR k 0 c) else c

def execI3cRstdaa (k : MgmtPort) (s : State) : Out3 := .next (onChip s (i3cLeave k))

/-! ### MCTP packets (R553) -/

def setAsm (l : List MctpAsm) (c : Chip) : Chip := { c with brg := { c.brg with asm := l } }

def sameMsg (k src tag : Nat) (m : MctpAsm) : Bool := m.port == k && m.srcEid == src && m.tag == tag
def asmOf (c : Chip) (k src tag : Nat) : Option MctpAsm := c.brg.asm.find? (sameMsg k src tag)
def withoutAsm (k src tag : Nat) (c : Chip) : Chip := setAsm (c.brg.asm.filter fun m => !sameMsg k src tag m) c

/-- A message is dropped: counted, and BRG_BUS_ERR. -/
def dropMsg (k : Nat) (c : Chip) : Chip := busErr k (countBrg (some k) 5 none c)

/-- Message types that the part accepts. -/
def acceptedTypes : List Nat := [0x00, 0x01, 0x05, 0x06, 0x07]

/-- A packet extends a message: too long, the message is dropped; ended, it is counted by type; else it stays. -/
def extendMsg (m : MctpAsm) (l : List Byte) (eom : Bool) (c : Chip) : Chip :=
  let c1 := withoutAsm m.port m.srcEid m.tag c
  if 4096 < (m.data ++ l).length then dropMsg m.port c1
  else if eom then countBrg (some m.port) 4 (some m.msgType) c1
  else setAsm (c1.brg.asm ++ [{ m with data := m.data ++ l, nextSeq := (m.nextSeq + 1) % 4 }]) c1

/-- The first packet of a message takes a buffer; a message of the same sender and tag that it cuts off is dropped. -/
def startMsg (k : Nat) (p : MctpPkt) (c : Chip) : Chip :=
  let c1 := if (asmOf c k p.srcEid p.tag).isSome then dropMsg k (withoutAsm k p.srcEid p.tag c) else c
  if !acceptedTypes.contains p.msgType.val || 8 ≤ c1.brg.asm.length then dropMsg k c1
  else
    let m : MctpAsm := { port := k, srcEid := p.srcEid, tag := p.tag, msgType := p.msgType, nextSeq := p.seq, data := [] }
    extendMsg m p.payload p.eom c1

/-- A later packet of a message; out of sequence, the message is dropped. -/
def nextPkt (k : Nat) (p : MctpPkt) (c : Chip) : Chip :=
  match asmOf c k p.srcEid p.tag with
  | none => c
  | some m =>
    if p.seq.val = m.nextSeq then extendMsg m p.payload p.eom c
    else dropMsg k (withoutAsm k p.srcEid p.tag c)

/-- A packet reaches the endpoint: addressed to its EID, to none (0), or to all (255). -/
def mctpReaches (c : Chip) (dst : Nat) : Bool := dst == 0 || dst == 255 || dst == getF c BRG_EID_EID 0

def effMctpPacket (k : Nat) (p : MctpPkt) (c : Chip) : Chip :=
  if !brgAnswers c k || !mctpReaches c p.dstEid then c
  else if !p.pecOk then dropMsg k (withoutAsm k p.srcEid p.tag c)
  else if p.som then startMsg k p c
  else nextPkt k p c

def execMctpPacket (k : MgmtPort) (pkt : MctpPkt) (s : State) : Out3 :=
  if wellFormed (.mctpPacket k pkt) then .next (onChip s (effMctpPacket k pkt)) else .refused .illFormed

def effReassembly (k src tag : Nat) (c : Chip) : Chip :=
  if (asmOf c k src tag).isSome then dropMsg k (withoutAsm k src tag c) else c

def execMctpReassemblyTimeout (k : MgmtPort) (srcEid : Fin 256) (tag : Fin 8) (s : State) : Out3 :=
  .next (onChip s (effReassembly k srcEid tag))

/-! ### MCTP control (R552) -/

/-- The answer to a message that arrived on port k: from the EID that the part holds then, to the endpoint that asked. -/
def mctpReply (k : Nat) (h : MctpHead) (typ cmd code : Nat) (data : List Nat) (c : Chip) : Chip :=
  send (.mctp k (getF c BRG_EID_EID 0) h.src typ cmd code data) c

/-- A message takes effect where its port answers and its destination is the part's endpoint; until an EID is assigned that
is EID 0 (R552). -/
def onBrg (k : Nat) (h : MctpHead) (f : Chip → Chip) (s : State) : Out3 :=
  .next (onChip s fun c => if brgAnswers c k && mctpReaches c h.dst then f c else c)

/-- Set Endpoint ID: operations 0 and 1 assign an EID other than 0 and 255. -/
def setEid (k : Nat) (h : MctpHead) (op eid : Nat) (c : Chip) : Chip :=
  if 2 ≤ op ∨ eid = 0 ∨ eid = 255 then mctpReply k h 0 1 2 [] c
  else mctpReply k h 0 1 0 [0, eid, 0] (event .brgC 0 0 (setF BRG_EID_EID 0 eid c))

def execMctpSetEndpointId (k : MgmtPort) (h : MctpHead) (op : Fin 4) (eid : Fin 256) (s : State) : Out3 :=
  onBrg k h (setEid k h op eid) s

def execMctpGetEndpointId (k : MgmtPort) (h : MctpHead) (s : State) : Out3 :=
  onBrg k h (fun c => mctpReply k h 0 2 0 [getF c BRG_EID_EID 0, 0, 0] c) s

def execMctpGetEndpointUuid (k : MgmtPort) (h : MctpHead) (s : State) : Out3 :=
  onBrg k h (mctpReply k h 0 3 0 [Config.endpointUuid]) s

/-- Versions: the base specification's and the control protocol's are 1.3; those of the other accepted types are left
open. -/
def getVersion (k : Nat) (h : MctpHead) (typ : Nat) (c : Chip) : Chip :=
  if typ = 0xFF ∨ typ = 0 then mctpReply k h 0 4 0 [1, 0xF1F3FF00] c
  else if acceptedTypes.contains typ then takeDraw (mctpReply k h 0 4 0 [1, drawn c % 2 ^ 32] c)
  else mctpReply k h 0 4 0x80 [] c

def execMctpGetVersionSupport (k : MgmtPort) (h : MctpHead) (msgType : Fin 256) (s : State) : Out3 :=
  onBrg k h (getVersion k h msgType) s

def execMctpGetMessageTypeSupport (k : MgmtPort) (h : MctpHead) (s : State) : Out3 :=
  onBrg k h (mctpReply k h 0 5 0 [4, 1, 5, 6, 7]) s

/-- Get Vendor Defined Message Support is answered; what with, the spec leaves open. -/
def execMctpGetVendorMsgSupport (k : MgmtPort) (h : MctpHead) (selector : Fin 256) (s : State) : Out3 :=
  onBrg k h (fun c => takeDraw (mctpReply k h 0 6 0 [selector.val, drawn c] c)) s

/-- Any other control command receives ERROR_UNSUPPORTED_CMD. -/
def execMctpUnsupportedCmd (k : MgmtPort) (h : MctpHead) (code : Fin 256) (s : State) : Out3 :=
  onBrg k h (fun c => if 1 ≤ code.val ∧ code.val ≤ 6 then c else mctpReply k h 0 code.val 5 [] c) s

/-! ### Fabric manager commands (R554; 06_ports.md R206) -/

/-- MC1 has answered the oldest n commands from MCTP since the previous command arrived: each answer goes to the endpoint
and port of its command, and the command leaves the four places. -/
def fmAnswered (n : Nat) (c : Chip) : Chip :=
  if coreUp c 1 then
    forEach (c.brg.fmOut.take n) (fun x c => send (.fmAnswer x.port x.eid x.opcode) c)
      { c with brg := { c.brg with fmOut := c.brg.fmOut.drop n } }
  else c

def fmTake (src : FmSource) (opcode : Nat) (c : Chip) : Chip :=
  match src with
  | .mctp k h =>
    if !(brgAnswers c k && mctpReaches c h.dst) then c
    else if 4 ≤ c.brg.fmOut.length then send (.fm src 1) c
    else send (.fm src 0) { c with brg := { c.brg with
      fmOut := c.brg.fmOut ++ [{ port := k, eid := h.src, opcode := opcode }] } }
  | .cci p =>
    if !(poolFace c p && inL0 c p) then c
    else if isF c PRT_CFG_MGR p then send (.fm src 0) c
    else send (.fm src 2) c

def execFmApiCommand (src : FmSource) (opcode : Fin 65536) (answered : Nat) (s : State) : Out3 :=
  .next (onChip s fun c => fmTake src opcode (fmAnswered answered c))

/-! ### PLDM and sensors (R555 to R558) -/

/-- A PLDM command of a type: counted, and answered with its type, a completion code and data. -/
def pldmReplyOf (k : Nat) (h : MctpHead) (typ cmd code : Nat) (data : List Nat) (c : Chip) : Chip :=
  mctpReply k h 1 cmd code (typ :: data) (countBrg (some k) 6 none c)

/-- A command of Platform Monitoring and Control (type 2). -/
def pldmReply (k : Nat) (h : MctpHead) (cmd code : Nat) (data : List Nat) (c : Chip) : Chip :=
  pldmReplyOf k h 2 cmd code data c

def sensorOn (c : Chip) (e : Nat) : Bool := e < 256 && bit (sensorOf c e).w0 31
def enabledSensors (c : Chip) : List Nat := (List.range 256).filter (sensorOn c)

/-- The repository: its update time, and one record for the terminus locator and each enabled entry. -/
def execPldmGetPdrRepositoryInfo (k : MgmtPort) (h : MctpHead) (s : State) : Out3 :=
  onBrg k h (fun c => pldmReply k h 0x50 0 [0, c.brg.pdrTime, 1 + (enabledSensors c).length] c) s

/-- Record handles: 1 the terminus locator, e + 2 the sensor of entry e; 0 asks for the first. -/
def pdrHandles (c : Chip) : List Nat := 1 :: (enabledSensors c).map (· + 2)
def nextHandle (c : Chip) (h : Nat) : Nat := ((pdrHandles c).find? (h < ·)).getD 0

/-- A numeric sensor PDR: its ID, unit, unit modifier, resolution 1 and offset 0. -/
def sensorPdr (c : Chip) (e : Nat) : List Nat := [2, e + 1, bits (sensorOf c e).w0 8 8, bits (sensorOf c e).w0 0 8, 1, 0]

def getPdr (k : Nat) (h : MctpHead) (handle : Nat) (c : Chip) : Chip :=
  let n := if handle = 0 then 1 else handle
  if n = 1 then pldmReply k h 0x51 0 [nextHandle c n, 1] c
  else if (pdrHandles c).contains n then pldmReply k h 0x51 0 (nextHandle c n :: sensorPdr c (n - 2)) c
  else pldmReply k h 0x51 0x82 [] c

def execPldmGetPdr (k : MgmtPort) (h : MctpHead) (handle : Nat) (s : State) : Out3 := onBrg k h (getPdr k h handle) s

/-- A sensor's operational state: 0 enabled, 1 disabled, 2 unavailable. -/
def operState (c : Chip) (e : Nat) : Nat :=
  if c.brg.disabled.contains e then 1 else if (sensorOf c e).available then 0 else 2

/-- Sensor ID e + 1 names entry e. -/
def sensorReading (k : Nat) (h : MctpHead) (id : Nat) (c : Chip) : Chip :=
  if id = 0 ∨ !sensorOn c (id - 1) then pldmReply k h 0x11 0x80 [] c
  else pldmReply k h 0x11 0 [operState c (id - 1), ofInt 32 (sensorOf c (id - 1)).reading] c

def execPldmGetSensorReading (k : MgmtPort) (h : MctpHead) (sensor : Fin 65536) (s : State) : Out3 :=
  onBrg k h (sensorReading k h sensor) s

def sensorEnable (k : Nat) (h : MctpHead) (id : Nat) (en : Bool) (c : Chip) : Chip :=
  if id = 0 ∨ !sensorOn c (id - 1) then pldmReply k h 0x10 0x80 [] c
  else
    let l := if en then without c.brg.disabled (id - 1) else addNew c.brg.disabled (id - 1)
    pldmReply k h 0x10 0 [] (pdrChanged { c with brg := { c.brg with disabled := l } })

def execPldmSetNumericSensorEnable (k : MgmtPort) (h : MctpHead) (sensor : Fin 65536) (en : Bool) (s : State) : Out3 :=
  onBrg k h (sensorEnable k h sensor en) s

/-- A 32-bit signed saturation. -/
def satInt32 (x : Int) : Int := max (-2147483648) (min 2147483647 x)

/-- The reading that a register word gives (R556). -/
def formReading (x : Sensor) (w : Nat) : Int :=
  let lsb := bits x.w0 25 5
  let width := bits x.w0 20 5 + 1
  let raw : Int := if bit x.w0 30 then toInt width (bits w lsb width) else (bits w lsb width : Nat)
  satInt32 ((raw * toInt 16 (bits x.w2 16 16)) / (2 ^ bits x.w2 8 5 : Nat) + toInt 32 x.w3)

/-- The register of an entry can be read, and its field lies within a word. -/
def sensorReadable (c : Chip) (x : Sensor) : Bool := bits x.w0 25 5 + bits x.w0 20 5 ≤ 31 && reqStarted c x.w1

def sampleOne (s : State) (e : Nat) (c : Chip) : Chip :=
  let x := sensorOf c e
  if sensorReadable c x then setSensor e { x with reading := formReading x (wordAt s x.w1), available := true } c
  else setSensor e { x with available := false } c

/-- Every enabled entry that PLDM has not disabled is sampled. -/
def sampleAll (s : State) : State :=
  if s.chip.pwr.vauxUp then
    onChip s (forEach ((enabledSensors s.chip).filter fun e => !s.chip.brg.disabled.contains e) (sampleOne s))
  else s

def execSensorSample (s : State) : Out3 := .next (sampleAll s)

/-- The commands of type 2 that are answered (R555). -/
def pldmType2 : List Nat := [0x04, 0x0B, 0x10, 0x11, 0x50, 0x51]

/-- Commands of PLDM Base (type 0): SetTID, GetTID, GetPLDMVersion, GetPLDMTypes (0 and 2) and GetPLDMCommands. What they do is
PRESUMED (log entry 118): the spec names the type alone. A version is a free value. -/
def pldmBase (k : Nat) (h : MctpHead) (code arg : Nat) (c : Chip) : Chip :=
  let reply := fun (d : List Nat) => pldmReplyOf k h 0 code 0 d
  match code with
  | 1 => reply [] { c with brg := { c.brg with tid := arg } }
  | 2 => reply [c.brg.tid] c
  | 3 => takeDraw (reply [drawn c % 2 ^ 32] c)
  | 4 => reply [5] c
  | _ => reply (if arg = 0 then [1, 2, 3, 4, 5] else if arg = 2 then pldmType2 else []) c

/-- A PLDM command that no other row brings: Base is answered, and any other receives ERROR_UNSUPPORTED_PLDM_CMD. -/
def pldmOther (k : Nat) (h : MctpHead) (typ code arg : Nat) (c : Chip) : Chip :=
  if typ = 0 ∧ 1 ≤ code ∧ code ≤ 5 then pldmBase k h code arg c
  else if typ = 2 ∧ pldmType2.contains code then c
  else pldmReplyOf k h typ code 5 [] c

def execPldmUnsupportedCmd (k : MgmtPort) (h : MctpHead) (typ : Fin 64) (code arg : Fin 256) (s : State) : Out3 :=
  onBrg k h (pldmOther k h typ code arg) s

/-! ### Platform events and alerts (R559, R560) -/

/-- SetEventReceiver names the receiver; 0 names none. -/
def setReceiver (eid : Nat) (c : Chip) : Chip :=
  { c with brg := { c.brg with receiver := if eid = 0 then none else some eid } }

def execPldmSetEventReceiver (k : MgmtPort) (h : MctpHead) (eid : Fin 256) (s : State) : Out3 :=
  onBrg k h (fun c => pldmReply k h 0x04 0 [] (setReceiver eid c)) s

def setEvents (l : List BrgEvent) (c : Chip) : Chip :=
  { c with brg := { c.brg with events := l, alertLow := c.brg.alertLow && !l.isEmpty } }

/-- An event leaves the queue. -/
def dropEvent (id : Nat) (c : Chip) : Chip := setEvents (c.brg.events.filter fun e => e.id != id) c

/-- The event that a poll returned leaves the queue once that poll is acknowledged. -/
def ackPolled (id : Nat) (c : Chip) : Chip :=
  whenB (c.brg.events.any fun e => e.id == id && e.polled) (dropEvent id) c

/-- A change of the queued event with this ID. -/
def onEvent (id : Nat) (f : BrgEvent → BrgEvent) (c : Chip) : Chip :=
  setEvents (c.brg.events.map fun e => if e.id = id then f e else e) c

/-- A poll acknowledges the event that an earlier poll returned, and returns the oldest: its ID, class 0xF0, the five
words of its record. -/
def pollEvent (k : Nat) (h : MctpHead) (ack : Option Nat) (c : Chip) : Chip :=
  let c1 := match ack with
    | some id => ackPolled id c
    | none => c
  match c1.brg.events with
  | [] => pldmReply k h 0x0B 0 [] c1
  | e :: _ => pldmReply k h 0x0B 0 (e.id :: 0xF0 :: recWords e.record) (onEvent e.id (fun e => { e with polled := true }) c1)

def execPldmPollForEvent (k : MgmtPort) (h : MctpHead) (ack : Option (Fin 65536)) (s : State) : Out3 :=
  onBrg k h (pollEvent k h (ack.map (·.val))) s

/-- The oldest event not yet sent goes to the receiver. -/
def sendEvent (c : Chip) : Chip :=
  match c.brg.receiver, c.brg.events.find? fun e => !e.sent with
  | some eid, some e => send (.platformEvent eid 0xF0 e.record)
      (countBrg none 7 none (onEvent e.id (fun e => { e with sent := true }) c))
  | _, _ => c

def execPlatformEventSend (s : State) : Out3 := .next (onChip s fun c => if brgReaches c then sendEvent c else c)

/-- The receiver acknowledges the oldest event sent. -/
def execPlatformEventAck (s : State) : Out3 :=
  .next (onChip s fun c => match c.brg.events.find? (·.sent) with
    | some e => if brgReaches c then dropEvent e.id c else c
    | none => c)

def ibiDone (k : Nat) (e : BrgEvent) : Bool := if k = 0 then e.ibi0 else e.ibi1

/-- An in-band interrupt for an event that has had none on this port; one that loses arbitration is withdrawn, and is owed
as before. -/
def raiseIbi (k : Nat) (won : Bool) (c : Chip) : Chip :=
  if brgAnswers c k && inI3c c k && bit (getF c BRG_ALERT_CFG_IBI 0) k && won then
    match c.brg.events.find? fun e => !ibiDone k e with
    | some e => send (.ibi k 0xF0) (setEvents (c.brg.events.map fun x =>
        if x.id = e.id then (if k = 0 then { x with ibi0 := true } else { x with ibi1 := true }) else x) c)
    | none => c
  else c

def execIbiRaise (k : MgmtPort) (won : Bool) (s : State) : Out3 := .next (onChip s (raiseIbi k won))

/-- The Alert Response Address is answered with the static address, and ALERT_N is released. -/
def answerAlert (k : Nat) (c : Chip) : Chip :=
  if brgAnswers c k && !inI3c c k && alertDriven c then
    send (.brg k 0x0C [staticAddr c k]) { c with brg := { c.brg with alertLow := false } }
  else c

def execAlertResponse (k : MgmtPort) (s : State) : Out3 := .next (onChip s (answerAlert k))

end Sys2Proof.Machine
end

