-- ==== Sys2Proof/Machine/Dispatch.lean ====
section
/-!
DEFINITION. The meaning of every command: one arm per constructor, each one direct call.
-/
namespace Sys2Proof.Machine

/-- What a command does, on everything but the queue. -/
def exec (i : Instr) (s : State) : Host.Outcome State Fault Refusal :=
  match i with
  | .supplyValid rail mv => Sys2Proof.Machine.execSupplyValid rail mv s
  | .supplyLoss rail mv => Sys2Proof.Machine.execSupplyLoss rail mv s
  | .pwrWarn mv => Sys2Proof.Machine.execPwrWarn mv s
  | .pwrWarnClear mv => Sys2Proof.Machine.execPwrWarnClear mv s
  | .pwrAuxWarn mv => Sys2Proof.Machine.execPwrAuxWarn mv s
  | .pwrTjWarn sensor tj => Sys2Proof.Machine.execPwrTjWarn sensor tj s
  | .pwrTjWarnClear sensor tj => Sys2Proof.Machine.execPwrTjWarnClear sensor tj s
  | .pwrThermtrip sensor tj => Sys2Proof.Machine.execPwrThermtrip sensor tj s
  | .thermalRestart sensor tj => Sys2Proof.Machine.execThermalRestart sensor tj s
  | .paceMeterWindow paces => Sys2Proof.Machine.execPaceMeterWindow paces s
  | .voltageLoopCompare => Sys2Proof.Machine.execVoltageLoopCompare s
  | .startTime0 => Sys2Proof.Machine.execStartTime0 s
  | .staggerStageStart => Sys2Proof.Machine.execStaggerStageStart s
  | .stageComplete k => Sys2Proof.Machine.execStageComplete k s
  | .pwrStageTimeout k => Sys2Proof.Machine.execPwrStageTimeout k s
  | .prefectImageLoad => Sys2Proof.Machine.execPrefectImageLoad s
  | .resetNAssert => Sys2Proof.Machine.execResetNAssert s
  | .glbReset pa key => Sys2Proof.Machine.execGlbReset pa key s
  | .portReset p kind => Sys2Proof.Machine.execPortReset p kind s
  | .tmbStall => Sys2Proof.Machine.execTmbStall s
  | .tmbResumed => Sys2Proof.Machine.execTmbResumed s
  | .tmbOfsLoWrite pa v => Sys2Proof.Machine.execTmbOfsLoWrite pa v s
  | .tmbOfsHiWrite pa v => Sys2Proof.Machine.execTmbOfsHiWrite pa v s
  | .tmbRackLoRead pa => Sys2Proof.Machine.execTmbRackLoRead pa s
  | .sbcFrame img => Sys2Proof.Machine.execSbcFrame img s
  | .tapReset => Sys2Proof.Machine.execTapReset s
  | .tapExtest scan => Sys2Proof.Machine.execTapExtest scan s
  | .tapSamplePreload scan => Sys2Proof.Machine.execTapSamplePreload scan s
  | .tapIdcode scan => Sys2Proof.Machine.execTapIdcode scan s
  | .tapHighz scan => Sys2Proof.Machine.execTapHighz scan s
  | .tapClamp scan => Sys2Proof.Machine.execTapClamp scan s
  | .tapExtestPulse scan => Sys2Proof.Machine.execTapExtestPulse scan s
  | .tapExtestTrain scan => Sys2Proof.Machine.execTapExtestTrain scan s
  | .tapBypass opcode scan => Sys2Proof.Machine.execTapBypass opcode scan s
  | .linkTrain p info => Sys2Proof.Machine.execLinkTrain p info s
  | .linkL0 p dev => Sys2Proof.Machine.execLinkL0 p dev s
  | .trackingUpdate l tap up => Sys2Proof.Machine.execTrackingUpdate l tap up s
  | .floatingTapReeval l ix pos => Sys2Proof.Machine.execFloatingTapReeval l ix pos s
  | .phyAdaptSat l => Sys2Proof.Machine.execPhyAdaptSat l s
  | .laneFreeze pa l on => Sys2Proof.Machine.execLaneFreeze pa l on s
  | .lanePowerDown pa l on => Sys2Proof.Machine.execLanePowerDown pa l on s
  | .phyCdrLoss l => Sys2Proof.Machine.execPhyCdrLoss l s
  | .phyRefclkLoss k => Sys2Proof.Machine.execPhyRefclkLoss k s
  | .phyPllUnlock k => Sys2Proof.Machine.execPhyPllUnlock k s
  | .phyRefPpm k ppm => Sys2Proof.Machine.execPhyRefPpm k ppm s
  | .refselWrite pa k sel => Sys2Proof.Machine.execRefselWrite pa k sel s
  | .loopbackEnter pa l lb adapt => Sys2Proof.Machine.execLoopbackEnter pa l lb adapt s
  | .loopbackFeSignal l adapt => Sys2Proof.Machine.execLoopbackFeSignal l adapt s
  | .loopbackExit pa l => Sys2Proof.Machine.execLoopbackExit pa l s
  | .loopbackFollower p enter => Sys2Proof.Machine.execLoopbackFollower p enter s
  | .generatorEnable pa l on => Sys2Proof.Machine.execGeneratorEnable pa l on s
  | .checkerEnable pa l on => Sys2Proof.Machine.execCheckerEnable pa l on s
  | .phyChkLoss l clean errors => Sys2Proof.Machine.execPhyChkLoss l clean errors s
  | .marginGo pa l => Sys2Proof.Machine.execMarginGo pa l s
  | .marginDone l errs => Sys2Proof.Machine.execMarginDone l errs s
  | .pcieMarginCommand l off eye => Sys2Proof.Machine.execPcieMarginCommand l off eye s
  | .flitReceive p f => Sys2Proof.Machine.execFlitReceive p f s
  | .nakReceive p seq => Sys2Proof.Machine.execNakReceive p seq s
  | .ackSend p => Sys2Proof.Machine.execAckSend p s
  | .ackReceive p seq => Sys2Proof.Machine.execAckReceive p seq s
  | .creditReturnSend p cls => Sys2Proof.Machine.execCreditReturnSend p cls s
  | .retrainSpentClear p => Sys2Proof.Machine.execRetrainSpentClear p s
  | .linkRecovery p => Sys2Proof.Machine.execLinkRecovery p s
  | .lnkRetrain pa p => Sys2Proof.Machine.execLnkRetrain pa p s
  | .linkDown p cause => Sys2Proof.Machine.execLinkDown p cause s
  | .partnerHotReset p hot => Sys2Proof.Machine.execPartnerHotReset p hot s
  | .trunkLockTmrExpiry p => Sys2Proof.Machine.execTrunkLockTmrExpiry p s
  | .failoverResendReceive p f orig => Sys2Proof.Machine.execFailoverResendReceive p f orig s
  | .failbackHoldExpiry p => Sys2Proof.Machine.execFailbackHoldExpiry p s
  | .bucketMove p b => Sys2Proof.Machine.execBucketMove p b s
  | .pairSplitWrite pa p split => Sys2Proof.Machine.execPairSplitWrite pa p split s
  | .widthChangeGo pa p peer => Sys2Proof.Machine.execWidthChangeGo pa p peer s
  | .widthChangeDone p => Sys2Proof.Machine.execWidthChangeDone p s
  | .marksFlitSend p nops => Sys2Proof.Machine.execMarksFlitSend p nops s
  | .marksFlitReceive p check recs => Sys2Proof.Machine.execMarksFlitReceive p check recs s
  | .marksRecordAgeDrop p => Sys2Proof.Machine.execMarksRecordAgeDrop p s
  | .portEnable pa p => Sys2Proof.Machine.execPortEnable pa p s
  | .portDisable pa p => Sys2Proof.Machine.execPortDisable pa p s
  | .perstRelease p => Sys2Proof.Machine.execPerstRelease p s
  | .hotaddLinkTimeout p => Sys2Proof.Machine.execHotaddLinkTimeout p s
  | .memoryActive p dev => Sys2Proof.Machine.execMemoryActive p dev s
  | .deviceActiveTimeout p => Sys2Proof.Machine.execDeviceActiveTimeout p s
  | .prtCplTmo p dtag => Sys2Proof.Machine.execPrtCplTmo p dtag s
  | .attentionButton p => Sys2Proof.Machine.execAttentionButton p s
  | .removeReq pa p => Sys2Proof.Machine.execRemoveReq pa p s
  | .prtProtoErr p nonPosted tag => Sys2Proof.Machine.execPrtProtoErr p nonPosted tag s
  | .slotControlWrite p pwrOff attn pwrInd => Sys2Proof.Machine.execSlotControlWrite p pwrOff attn pwrInd s
  | .packetArrival pkt errs ecc => Sys2Proof.Machine.execPacketArrival pkt errs ecc s
  | .schedulerSlot errs => Sys2Proof.Machine.execSchedulerSlot errs s
  | .stallTimerExpiry pkt => Sys2Proof.Machine.execStallTimerExpiry pkt s
  | .lateRemainder pkt cells => Sys2Proof.Machine.execLateRemainder pkt cells s
  | .xbrPmodeWrite pa p fr ct => Sys2Proof.Machine.execXbrPmodeWrite pa p fr ct s
  | .memRd p dpa mv tag ecc => Sys2Proof.Machine.execMemRd p dpa mv tag ecc s
  | .memWr p dpa mv tag mask data ecc => Sys2Proof.Machine.execMemWr p dpa mv tag mask data ecc s
  | .memInv p dpa mv tag ecc => Sys2Proof.Machine.execMemInv p dpa mv tag ecc s
  | .atomicOp p off pasid kind width operand compare tag ecc => Sys2Proof.Machine.execAtomicOp p off pasid kind width operand compare tag ecc s
  | .deviceCompletion dport dtag status data => Sys2Proof.Machine.execDeviceCompletion dport dtag status data s
  | .windowWrite pa w word v => Sys2Proof.Machine.execWindowWrite pa w word v s
  | .bndDiscard pa => Sys2Proof.Machine.execBndDiscard pa s
  | .bndCommit pa => Sys2Proof.Machine.execBndCommit pa s
  | .commitWaitTimeout dc => Sys2Proof.Machine.execCommitWaitTimeout dc s
  | .commitApply dc picks => Sys2Proof.Machine.execCommitApply dc picks s
  | .dcAddResponse p accepted => Sys2Proof.Machine.execDcAddResponse p accepted s
  | .dcRelease p w => Sys2Proof.Machine.execDcRelease p w s
  | .dcGetExtentList p => Sys2Proof.Machine.execDcGetExtentList p s
  | .dcEventRecordPlace p => Sys2Proof.Machine.execDcEventRecordPlace p s
  | .bndDrainTgtWrite pa v => Sys2Proof.Machine.execBndDrainTgtWrite pa v s
  | .bndDrained => Sys2Proof.Machine.execBndDrained s
  | .mapPlace ix cw => Sys2Proof.Machine.execMapPlace ix cw s
  | .mapMove ix cw => Sys2Proof.Machine.execMapMove ix cw s
  | .mapFree ix cw => Sys2Proof.Machine.execMapFree ix cw s
  | .mapAbort ix cw => Sys2Proof.Machine.execMapAbort ix cw s
  | .mapSetlost ix cw => Sys2Proof.Machine.execMapSetlost ix cw s
  | .mapRetire ix cw => Sys2Proof.Machine.execMapRetire ix cw s
  | .mapRead ix rd => Sys2Proof.Machine.execMapRead ix rd s
  | .mapCmdBadOp ix => Sys2Proof.Machine.execMapCmdBadOp ix s
  | .mapFlip t cw => Sys2Proof.Machine.execMapFlip t cw s
  | .mapAbortRewrite t cw => Sys2Proof.Machine.execMapAbortRewrite t cw s
  | .mapRun pa => Sys2Proof.Machine.execMapRun pa s
  | .mapInit pa => Sys2Proof.Machine.execMapInit pa s
  | .mapInitDone => Sys2Proof.Machine.execMapInitDone s
  | .mapScrub badA badB => Sys2Proof.Machine.execMapScrub badA badB s
  | .mapRebuild pa => Sys2Proof.Machine.execMapRebuild pa s
  | .mapRebuilt => Sys2Proof.Machine.execMapRebuilt s
  | .mapMissFill mapLine rd => Sys2Proof.Machine.execMapMissFill mapLine rd s
  | .mapPlaceTimeout t => Sys2Proof.Machine.execMapPlaceTimeout t s
  | .mapRingRead pa choice => Sys2Proof.Machine.execMapRingRead pa choice s
  | .ringItemPlace => Sys2Proof.Machine.execRingItemPlace s
  | .mrkEnable pa on => Sys2Proof.Machine.execMrkEnable pa on s
  | .mrkTermEnd bad => Sys2Proof.Machine.execMrkTermEnd bad s
  | .mrkSweepDone durUs picks bad => Sys2Proof.Machine.execMrkSweepDone durUs picks bad s
  | .rakSlotAssign slot claims => Sys2Proof.Machine.execRakSlotAssign slot claims s
  | .rakLineCopy slot data poison claims => Sys2Proof.Machine.execRakLineCopy slot data poison claims s
  | .rakDstFail slot cw => Sys2Proof.Machine.execRakDstFail slot cw s
  | .rakSrcWaitExpiry slot cw => Sys2Proof.Machine.execRakSrcWaitExpiry slot cw s
  | .rakSrcResume slot => Sys2Proof.Machine.execRakSrcResume slot s
  | .rakSlotFree slot => Sys2Proof.Machine.execRakSlotFree slot s
  | .tenJobSubmit p t pasid kind => Sys2Proof.Machine.execTenJobSubmit p t pasid kind s
  | .tenJobStart t => Sys2Proof.Machine.execTenJobStart t s
  | .tenJobChunk t eccs => Sys2Proof.Machine.execTenJobChunk t eccs s
  | .carDevBind pa d en => Sys2Proof.Machine.execCarDevBind pa d en s
  | .healthPoll d r => Sys2Proof.Machine.execHealthPoll d r s
  | .carHealthFail d secs => Sys2Proof.Machine.execCarHealthFail d secs s
  | .carePassStart poison => Sys2Proof.Machine.execCarePassStart poison s
  | .carPassDone durS poison => Sys2Proof.Machine.execCarPassDone durS poison s
  | .carRingRead pa choice => Sys2Proof.Machine.execCarRingRead pa choice s
  | .mend good data writeOk => Sys2Proof.Machine.execMend good data writeOk s
  | .twstaleRescan d => Sys2Proof.Machine.execTwstaleRescan d s
  | .lostWaitExpiry d => Sys2Proof.Machine.execLostWaitExpiry d s
  | .evacRescan d => Sys2Proof.Machine.execEvacRescan d s
  | .evacTimeout d => Sys2Proof.Machine.execEvacTimeout d s
  | .evacAbort pa d code => Sys2Proof.Machine.execEvacAbort pa d code s
  | .birspReceive p snoopTag rsp => Sys2Proof.Machine.execBirspReceive p snoopTag rsp s
  | .biconflictReceive p line tag => Sys2Proof.Machine.execBiconflictReceive p line tag s
  | .lineLockRelease line => Sys2Proof.Machine.execLineLockRelease line s
  | .rolSnpTimeout snoopTag => Sys2Proof.Machine.execRolSnpTimeout snoopTag s
  | .rolScrubDone => Sys2Proof.Machine.execRolScrubDone s
  | .rolProbe pa => Sys2Proof.Machine.execRolProbe pa s
  | .rolParkHwClr pa => Sys2Proof.Machine.execRolParkHwClr pa s
  | .slateWaitResume p => Sys2Proof.Machine.execSlateWaitResume p s
  | .slateAgeDrain p line ecc => Sys2Proof.Machine.execSlateAgeDrain p line ecc s
  | .slateDrainComplete p line ecc => Sys2Proof.Machine.execSlateDrainComplete p line ecc s
  | .bell p t pasid eight tag => Sys2Proof.Machine.execBell p t pasid eight tag s
  | .bellComplete t => Sys2Proof.Machine.execBellComplete t s
  | .bellLimit t k => Sys2Proof.Machine.execBellLimit t k s
  | .sltDrain pa p => Sys2Proof.Machine.execSltDrain pa p s
  | .sltDrainDone p => Sys2Proof.Machine.execSltDrainDone p s
  | .lostLinePoisonWrite line => Sys2Proof.Machine.execLostLinePoisonWrite line s
  | .sltOccHwClr pa p => Sys2Proof.Machine.execSltOccHwClr pa p s
  | .tenEnable pa t => Sys2Proof.Machine.execTenEnable pa t s
  | .tenDisable pa t => Sys2Proof.Machine.execTenDisable pa t s
  | .tenFreeze pa t => Sys2Proof.Machine.execTenFreeze pa t s
  | .tenFreezeComplete t => Sys2Proof.Machine.execTenFreezeComplete t s
  | .tenThaw pa t => Sys2Proof.Machine.execTenThaw pa t s
  | .tenReset pa t => Sys2Proof.Machine.execTenReset pa t s
  | .tcSelfReset p t pasid => Sys2Proof.Machine.execTcSelfReset p t pasid s
  | .tenResetDrained t => Sys2Proof.Machine.execTenResetDrained t s
  | .tenDrainTimeout t => Sys2Proof.Machine.execTenDrainTimeout t s
  | .tenSave pa t => Sys2Proof.Machine.execTenSave pa t s
  | .tenRestore pa t => Sys2Proof.Machine.execTenRestore pa t s
  | .tenCmdBadOp pa t => Sys2Proof.Machine.execTenCmdBadOp pa t s
  | .controlPageAccess p off eight aligned write pasid tag => Sys2Proof.Machine.execControlPageAccess p off eight aligned write pasid tag s
  | .tcLossClr p t pasid v => Sys2Proof.Machine.execTcLossClr p t pasid v s
  | .tenLossClr pa t v => Sys2Proof.Machine.execTenLossClr pa t v s
  | .bucketRefill => Sys2Proof.Machine.execBucketRefill s
  | .shaperRelease t => Sys2Proof.Machine.execShaperRelease t s
  | .shaperSlotWrite pa t qmax en => Sys2Proof.Machine.execShaperSlotWrite pa t qmax en s
  | .fltCapture together => Sys2Proof.Machine.execFltCapture together s
  | .feResetDelay => Sys2Proof.Machine.execFeResetDelay s
  | .faultHeartbeat pg => Sys2Proof.Machine.execFaultHeartbeat pg s
  | .fltLink pg seen => Sys2Proof.Machine.execFltLink pg seen s
  | .fltLinkPoll pg => Sys2Proof.Machine.execFltLinkPoll pg s
  | .fltClr pa seq => Sys2Proof.Machine.execFltClr pa seq s
  | .errnPulseEnd => Sys2Proof.Machine.execErrnPulseEnd s
  | .pgErrInj pa pg bits => Sys2Proof.Machine.execPgErrInj pa pg bits s
  | .pgErrMaskWrite pa pg mask => Sys2Proof.Machine.execPgErrMaskWrite pa pg mask s
  | .pgErrClear pa pg bits => Sys2Proof.Machine.execPgErrClear pa pg bits s
  | .slpCfgEn pa n en => Sys2Proof.Machine.execSlpCfgEn pa n en s
  | .slpReqWrite src n req => Sys2Proof.Machine.execSlpReqWrite src n req s
  | .presenceQualified n => Sys2Proof.Machine.execPresenceQualified n s
  | .presenceRemoval n => Sys2Proof.Machine.execPresenceRemoval n s
  | .rampAdmit n => Sys2Proof.Machine.execRampAdmit n s
  | .gateFull n vgs => Sys2Proof.Machine.execGateFull n vgs s
  | .pgQualified n => Sys2Proof.Machine.execPgQualified n s
  | .limitOnset n isns => Sys2Proof.Machine.execLimitOnset n isns s
  | .limitEnd n isns railGood => Sys2Proof.Machine.execLimitEnd n isns railGood s
  | .faultTimerExpiry n => Sys2Proof.Machine.execFaultTimerExpiry n s
  | .rampTimeout n => Sys2Proof.Machine.execRampTimeout n s
  | .fastTrip n isns => Sys2Proof.Machine.execFastTrip n isns s
  | .cooldownEnd n => Sys2Proof.Machine.execCooldownEnd n s
  | .hvInValid cv => Sys2Proof.Machine.execHvInValid cv s
  | .hvInLost cv => Sys2Proof.Machine.execHvInLost cv s
  | .railGoodEnd n srail => Sys2Proof.Machine.execRailGoodEnd n srail s
  | .railGoodReturn n srail => Sys2Proof.Machine.execRailGoodReturn n srail s
  | .retryClear n => Sys2Proof.Machine.execRetryClear n s
  | .slpFetShort n srail => Sys2Proof.Machine.execSlpFetShort n srail s
  | .slpPeakClr pa n => Sys2Proof.Machine.execSlpPeakClr pa n s
  | .coreResetWrite pa c rst => Sys2Proof.Machine.execCoreResetWrite pa c rst s
  | .watchdogKick pa c => Sys2Proof.Machine.execWatchdogKick pa c s
  | .watchdogExpiry c => Sys2Proof.Machine.execWatchdogExpiry c s
  | .mgtMemUe c => Sys2Proof.Machine.execMgtMemUe c s
  | .levelSourceAssert id => Sys2Proof.Machine.execLevelSourceAssert id s
  | .mgtSwi pa id => Sys2Proof.Machine.execMgtSwi pa id s
  | .mgtClaim c => Sys2Proof.Machine.execMgtClaim c s
  | .mgtComp c id => Sys2Proof.Machine.execMgtComp c id s
  | .irqConfigWrite pa word v => Sys2Proof.Machine.execIrqConfigWrite pa word v s
  | .brgRead k addr pec => Sys2Proof.Machine.execBrgRead k addr pec s
  | .brgWrite k addr v pec => Sys2Proof.Machine.execBrgWrite k addr v pec s
  | .postedWriteApply k => Sys2Proof.Machine.execPostedWriteApply k s
  | .brgResult k => Sys2Proof.Machine.execBrgResult k s
  | .brgReservedCommand k code => Sys2Proof.Machine.execBrgReservedCommand k code s
  | .brgFetchTimeout k => Sys2Proof.Machine.execBrgFetchTimeout k s
  | .i3cSetdasa k addr => Sys2Proof.Machine.execI3cSetdasa k addr s
  | .i3cEntdaa k addr => Sys2Proof.Machine.execI3cEntdaa k addr s
  | .i3cRstdaa k => Sys2Proof.Machine.execI3cRstdaa k s
  | .mctpPacket k pkt => Sys2Proof.Machine.execMctpPacket k pkt s
  | .mctpReassemblyTimeout k srcEid tag => Sys2Proof.Machine.execMctpReassemblyTimeout k srcEid tag s
  | .mctpSetEndpointId k h op eid => Sys2Proof.Machine.execMctpSetEndpointId k h op eid s
  | .mctpGetEndpointId k h => Sys2Proof.Machine.execMctpGetEndpointId k h s
  | .mctpGetEndpointUuid k h => Sys2Proof.Machine.execMctpGetEndpointUuid k h s
  | .mctpGetVersionSupport k h msgType => Sys2Proof.Machine.execMctpGetVersionSupport k h msgType s
  | .mctpGetMessageTypeSupport k h => Sys2Proof.Machine.execMctpGetMessageTypeSupport k h s
  | .mctpGetVendorMsgSupport k h selector => Sys2Proof.Machine.execMctpGetVendorMsgSupport k h selector s
  | .mctpUnsupportedCmd k h code => Sys2Proof.Machine.execMctpUnsupportedCmd k h code s
  | .fmApiCommand src opcode answered => Sys2Proof.Machine.execFmApiCommand src opcode answered s
  | .pldmGetPdrRepositoryInfo k h => Sys2Proof.Machine.execPldmGetPdrRepositoryInfo k h s
  | .pldmGetPdr k h handle => Sys2Proof.Machine.execPldmGetPdr k h handle s
  | .pldmGetSensorReading k h sensor => Sys2Proof.Machine.execPldmGetSensorReading k h sensor s
  | .pldmSetNumericSensorEnable k h sensor en => Sys2Proof.Machine.execPldmSetNumericSensorEnable k h sensor en s
  | .pldmSetEventReceiver k h eid => Sys2Proof.Machine.execPldmSetEventReceiver k h eid s
  | .pldmPollForEvent k h ack => Sys2Proof.Machine.execPldmPollForEvent k h ack s
  | .pldmUnsupportedCmd k h typ code arg => Sys2Proof.Machine.execPldmUnsupportedCmd k h typ code arg s
  | .sensorSample => Sys2Proof.Machine.execSensorSample s
  | .platformEventSend => Sys2Proof.Machine.execPlatformEventSend s
  | .platformEventAck => Sys2Proof.Machine.execPlatformEventAck s
  | .ibiRaise k won => Sys2Proof.Machine.execIbiRaise k won s
  | .alertResponse k => Sys2Proof.Machine.execAlertResponse k s
  | .secUpdBegin pa prefect => Sys2Proof.Machine.execSecUpdBegin pa prefect s
  | .secUpdData pa w => Sys2Proof.Machine.execSecUpdData pa w s
  | .secUpdVerify pa prefect => Sys2Proof.Machine.execSecUpdVerify pa prefect s
  | .secUpdActivate pa prefect => Sys2Proof.Machine.execSecUpdActivate pa prefect s
  | .prefectActivationLoad => Sys2Proof.Machine.execPrefectActivationLoad s
  | .secCommitSvn pa prefect => Sys2Proof.Machine.execSecCommitSvn pa prefect s
  | .secKeyrev pa slots => Sys2Proof.Machine.execSecKeyrev pa slots s
  | .spdmGetCertificate via => Sys2Proof.Machine.execSpdmGetCertificate via s
  | .spdmChallenge via nonce => Sys2Proof.Machine.execSpdmChallenge via nonce s
  | .spdmGetMeasurements via nonce => Sys2Proof.Machine.execSpdmGetMeasurements via nonce s
  | .spdmKeyExchange via exchange => Sys2Proof.Machine.execSpdmKeyExchange via exchange s
  | .ideKmQuery p => Sys2Proof.Machine.execIdeKmQuery p s
  | .ideKmKeyProg p tx set key => Sys2Proof.Machine.execIdeKmKeyProg p tx set key s
  | .ideKmKSetGo p tx set => Sys2Proof.Machine.execIdeKmKSetGo p tx set s
  | .ideKmKSetStop p tx set => Sys2Proof.Machine.execIdeKmKSetStop p tx set s
  | .secIdeFail p => Sys2Proof.Machine.execSecIdeFail p s
  | .pfxFormHang f => Sys2Proof.Machine.execPfxFormHang f s
  | .pfxMemUe f => Sys2Proof.Machine.execPfxMemUe f s
  | .cntSnapGo pa => Sys2Proof.Machine.execCntSnapGo pa s
  | .cntSnapPeriod => Sys2Proof.Machine.execCntSnapPeriod s
  | .cntSnapDone durNs => Sys2Proof.Machine.execCntSnapDone durNs s
  | .cntFreezeWrite pa on => Sys2Proof.Machine.execCntFreezeWrite pa on s
  | .pgCselWrite pa pg ix v => Sys2Proof.Machine.execPgCselWrite pa pg ix v s
  | .pgCvalLoWrite pa pg ix v => Sys2Proof.Machine.execPgCvalLoWrite pa pg ix v s
  | .pgCvalHiWrite pa pg ix v => Sys2Proof.Machine.execPgCvalHiWrite pa pg ix v s
  | .pgCvalLoRead pa pg ix => Sys2Proof.Machine.execPgCvalLoRead pa pg ix s
  | .tenantCounterRead p off eight aligned pasid tag => Sys2Proof.Machine.execTenantCounterRead p off eight aligned pasid tag s
  | .glbFreezeWrite pa on => Sys2Proof.Machine.execGlbFreezeWrite pa on s
  | .pgLockWrite pa pg => Sys2Proof.Machine.execPgLockWrite pa pg s
  | .registerWrite pa addr size v => Sys2Proof.Machine.execRegisterWrite pa addr size v s
  | .pwrAuxWarnClear mv => Sys2Proof.Machine.execPwrAuxWarnClear mv s
  | .phyRefclkReturn k => Sys2Proof.Machine.execPhyRefclkReturn k s
  | .phyPllRelock k => Sys2Proof.Machine.execPhyPllRelock k s
  | .cdrRelock l => Sys2Proof.Machine.execCdrRelock l s
  | .checkerLock l => Sys2Proof.Machine.execCheckerLock l s
  | .orphanScanDone bad => Sys2Proof.Machine.execOrphanScanDone bad s
  | .coreEnterSleep c => Sys2Proof.Machine.execCoreEnterSleep c s
  | .clearEventRecords p n => Sys2Proof.Machine.execClearEventRecords p n s
  | .hdmDecoderProgram p ix hostBase size dpaBase commit => Sys2Proof.Machine.execHdmDecoderProgram p ix hostBase size dpaBase commit s

end Sys2Proof.Machine
end

