-- ==== Sys2Proof/Machine/Tick.lean ====
section
/-!
DEFINITION. What passes with time alone: one period of REFCLK0 while no command waits (22_register_map.md R608;
21_counters.md R585, R593; 09_tile_map.md R310; log entries 2 and 107).
-/
namespace Sys2Proof.Machine

/-- State of a slot channel that LIMIT has (17_slot_power.md R514), for the counter of nanoseconds in LIMIT. -/
def slpInLimit (c : Chip) (n : Nat) : Bool := isF c SLP_STAT_LIMIT n

/-- Nanosecond events that stand on page pg (R593): NS on every page, and the state events of PWR, SLP, PHY tiles. -/
def nsEvent (c : Chip) (pg idx : Nat) : Bool :=
  if idx = 1 then true
  else match pageKind pg with
    | some (.pwr, _) => (idx == 4 && c.pwr.warn) || (idx == 5 && c.pwr.paceShort)
    | some (.slp, n) => idx == 8 && slpInLimit c n
    | some (.phyT, k) => idx == 7 && refGone c k
    | some (.rak, _) => idx == 4 && c.rak.slots.any fun e => e.2.waitSrc
    | _ => false

/-- How many times the period counts on page pg for event idx: once, or once for each slot in WAITSRC. -/
def nsWeight (c : Chip) (pg idx : Nat) : Nat :=
  if pg = pageOf .rak 0 ∧ idx = 4 then (c.rak.slots.filter fun e => e.2.waitSrc).length else 1

/-- Frozen by page number (R588). -/
def pageFrozenAt (c : Chip) (pg : Nat) : Bool :=
  match pageKind pg with
  | some (k, n) => pageFrozen c k n
  | none => true

/-- One listed counter after 10 ns. -/
def nsCtr (c : Chip) (e : Nat × Ctr) : Nat × Ctr :=
  if cselEn e.2.sel && nsEvent c (e.1 / 16) (cselIdx e.2.sel) && !pageFrozenAt c (e.1 / 16) then
    (e.1, { e.2 with val := (e.2.val + 10 * nsWeight c (e.1 / 16) (cselIdx e.2.sel)) % 2 ^ 64 })
  else e

/-- The auxiliary timer adds 10 ns while VAUX is valid (R629). -/
def tickAux (c : Chip) : Chip := if c.pwr.vaux then { c with slp := { c.slp with aux := c.slp.aux + 10 } } else c

/-- One period of REFCLK0: TMB adds 10 while it advances, and the nanosecond counters with it. -/
def tickTmb (c : Chip) : Chip :=
  if tmbRuns c then
    { c with tmb := { c.tmb with now := (c.tmb.now + 10) % 2 ^ 64 },
             cnt := { c.cnt with ctr := c.cnt.ctr.map (nsCtr c) } }
  else c

/-- One period of REFCLK0 on both timers. -/
def tickChip (c : Chip) : Chip := tickAux (tickTmb c)

/-- The idle step: a period of REFCLK0, and a line of a rebuild that stands (09_tile_map.md R310). -/
def tick (s : State) : State := onChip s fun c => rebuildLine (tickChip c)

end Sys2Proof.Machine
end

