-- ==== Sys2Proof/Safety.lean ====
section
/-!
DEFINITION. The words that the statements use: what a lawful state is, and what it means that a command leaves
everything but a few named things as it was.
-/
namespace Sys2Proof.Machine

/-- The states that the machine keeps to: the record buffers are in canonical form. -/
def State.lawful (s : State) : Bool := Memory.wf s.recs

/-- The parts of `Chip`, by name. -/
inductive Part where
  | fld | tmb | pwr | sbc | tap | phy | lnk | prt | xbr | bnd | ten | slt | rol | txns | map | media | mrk | rak | car | flt
  | slp | mgt | brg | sec | cnt | sent | draws
deriving DecidableEq, Repr

/-- A part is the same in two chips. -/
def samePart (c d : Chip) : Part → Prop
  | .fld => d.fld = c.fld | .tmb => d.tmb = c.tmb | .pwr => d.pwr = c.pwr | .sbc => d.sbc = c.sbc
  | .tap => d.tap = c.tap | .phy => d.phy = c.phy | .lnk => d.lnk = c.lnk | .prt => d.prt = c.prt
  | .xbr => d.xbr = c.xbr | .bnd => d.bnd = c.bnd | .ten => d.ten = c.ten | .slt => d.slt = c.slt
  | .rol => d.rol = c.rol | .txns => d.txns = c.txns ∧ d.nextTxn = c.nextTxn | .map => d.map = c.map | .media => d.media = c.media
  | .mrk => d.mrk = c.mrk | .rak => d.rak = c.rak | .car => d.car = c.car | .flt => d.flt = c.flt
  | .slp => d.slp = c.slp | .mgt => d.mgt = c.mgt | .brg => d.brg = c.brg | .sec => d.sec = c.sec
  | .cnt => d.cnt = c.cnt | .sent => d.sent = c.sent | .draws => d.draws = c.draws

/-- Every part of the chip but the listed ones is as before. -/
def keepsParts (ps : List Part) (c d : Chip) : Prop := ∀ k : Part, k ∉ ps → samePart c d k

/-- Every register field reads as before, but those stored under the listed numbers. -/
def keepsRegs (ks : List Nat) (c d : Chip) : Prop :=
  ∀ (X : Fld) (n i : Nat), fldKey X n i ∉ ks → getFi d X n i = getFi c X n i

/-- The command changed nothing but the listed parts of the chip (the register fields always being judged one by one)
and the listed register fields: every other part, every other register field, every byte of the record buffers and the
queue are as before. -/
def changesOnly (ps : List Part) (ks : List Nat) (s t : State) : Prop :=
  t.recs = s.recs ∧ t.pending = s.pending ∧ keepsParts (.fld :: ps) s.chip t.chip ∧ keepsRegs ks s.chip t.chip

/-- What no command of the data plane touches (01_architecture.md): the time base, the supplies and the start, the
sideband chain, the test port, the interrupt controller's claims and the management bridge. -/
def Chip.plane (c : Chip) : Tmb × Pwr × Sbc × Tap × Mgt × Brg := (c.tmb, c.pwr, c.sbc, c.tap, c.mgt, c.brg)

/-- An access through a path reaches a page: the path exists (22_register_map.md R596), SEC has not closed the page's block
to it (20_security.md R581), and the block has started (22_register_map.md R600). -/
abbrev pageOpen (c : Chip) (pa : Path) (k : PK) (n : Nat) : Prop :=
  pathUp c pa = true ∧ pathClosed c pa (blockOf k) = false ∧ pageStarted c k n = true

/-- The number under which field X of page n is stored. -/
def at0 (X : Fld) (n : Nat) : Nat := fldKey X n 0

/-- The number under which a lane's field is stored. -/
def atLane (X : Fld) (l : Nat) : Nat := fldKey X (l / 16) (l % 16)

/-- The page's PG_ERR bit b is 1. -/
abbrev errBit (c : Chip) (k : PK) (n b : Nat) : Prop := bit (getF c (PG_ERR k) n) b = true

/-- The page's PG_EVT_PEND bit b is 1. -/
abbrev evtBit (c : Chip) (k : PK) (n b : Nat) : Prop := bit (getF c (PG_EVT_PEND k) n) b = true

/-- A port that is no pool face and no device face: nothing of the pool rests on its link. -/
abbrev plainPort (c : Chip) (p : Nat) : Prop := poolFace c p = false ∧ deviceFace c p = false

/-- Nothing is in flight: no request, slate entry, snoop or packet, nothing that waits at MAP or BND, no job chunk. -/
def Chip.idle (c : Chip) : Bool :=
  c.txns.isEmpty && c.slt.entries.isEmpty && c.rol.snoops.isEmpty && c.xbr.pkts.isEmpty && c.xbr.waiting.isEmpty &&
    c.map.waiting.isEmpty && c.bnd.drainOwed.isEmpty && c.ten.st.all fun e => !e.2.job.chunk

/-- The map and the rake hold nothing back: the map runs, no line is lost, no entry is unreadable or waits for a place,
no slot is taken. -/
def Chip.mapClear (c : Chip) : Bool :=
  mapRunning c && c.slt.lost.isEmpty && c.map.unreadable.isEmpty && c.map.placing.isEmpty && c.map.splits.isEmpty &&
    c.rak.slots.isEmpty

/-- With nothing in flight, a request of face p for a device physical address is served at once in window x: traffic
flows, the window's home is this part, its tenancy is ON and neither policed nor shaped, and the map is clear. -/
def served (c : Chip) (p dpa : Nat) (x : Window) : Bool :=
  carriesMem c p && c.idle && (servedWindow c p dpa).map (·.2) == some x && !x.remote && poolAddr x dpa / 64 < 2 ^ 44 &&
    tenState c x.ten == 1 && !(tenSt c x.ten).pEn && !(tenSt c x.ten).sEn && c.mapClear

/-- The pool line that a request for an address in window x names. -/
def lineOf (x : Window) (dpa : Nat) : Nat := poolAddr x dpa / 64

/-- The cached entry of a line's tile is RESIDENT at one location that accesses may use. -/
abbrev residentAt (c : Chip) (l : Nat) (e : Entry) : Prop :=
  cachedEntry c (tileOfLine l) = some e ∧ e.state = 1 ∧ e.twin = false ∧
    usableLocs c (tileOfLine l) e = [(0, e.loc0)]

/-- Commands of lanes, links, ports, packets, pool accesses, the binding table, the map, marks and the rake, media care,
the roll, slates, tenancies and slot channels, which share nothing with the planes that `Chip.plane` gathers (01_architecture.md R26,
R27). -/
def dataPlane : Instr → Bool
  | .linkTrain .. | .linkL0 .. | .trackingUpdate .. | .floatingTapReeval .. | .phyAdaptSat .. | .laneFreeze ..
  | .lanePowerDown .. | .phyCdrLoss .. | .phyRefclkLoss .. | .phyPllUnlock .. | .phyRefPpm .. | .refselWrite ..
  | .loopbackEnter .. | .loopbackFeSignal .. | .loopbackExit .. | .loopbackFollower .. | .generatorEnable ..
  | .checkerEnable .. | .phyChkLoss .. | .marginGo .. | .marginDone .. | .pcieMarginCommand .. | .flitReceive ..
  | .nakReceive .. | .ackSend .. | .ackReceive .. | .creditReturnSend .. | .retrainSpentClear ..
  | .linkRecovery .. | .lnkRetrain .. | .linkDown .. | .partnerHotReset .. | .trunkLockTmrExpiry ..
  | .failoverResendReceive .. | .failbackHoldExpiry .. | .bucketMove .. | .pairSplitWrite .. | .widthChangeGo ..
  | .widthChangeDone .. | .marksFlitSend .. | .marksFlitReceive .. | .marksRecordAgeDrop .. | .portEnable ..
  | .portDisable .. | .perstRelease .. | .hotaddLinkTimeout .. | .memoryActive .. | .deviceActiveTimeout ..
  | .prtCplTmo .. | .attentionButton .. | .removeReq .. | .prtProtoErr .. | .slotControlWrite ..
  | .packetArrival .. | .schedulerSlot .. | .stallTimerExpiry .. | .lateRemainder .. | .xbrPmodeWrite ..
  | .memRd .. | .memWr .. | .memInv .. | .atomicOp .. | .deviceCompletion .. | .windowWrite .. | .bndDiscard ..
  | .bndCommit .. | .commitWaitTimeout .. | .commitApply .. | .dcAddResponse .. | .dcRelease ..
  | .dcGetExtentList .. | .dcEventRecordPlace .. | .bndDrainTgtWrite .. | .bndDrained .. | .mapPlace ..
  | .mapMove .. | .mapFree .. | .mapAbort .. | .mapSetlost .. | .mapRetire .. | .mapRead .. | .mapCmdBadOp ..
  | .mapFlip .. | .mapAbortRewrite .. | .mapRun .. | .mapInit .. | .mapInitDone .. | .mapScrub .. | .mapRebuild ..
  | .mapRebuilt .. | .mapMissFill .. | .mapPlaceTimeout .. | .mapRingRead .. | .ringItemPlace .. | .mrkEnable ..
  | .mrkTermEnd .. | .mrkSweepDone .. | .rakSlotAssign .. | .rakLineCopy .. | .rakDstFail ..
  | .rakSrcWaitExpiry .. | .rakSrcResume .. | .rakSlotFree .. | .tenJobSubmit .. | .tenJobStart ..
  | .tenJobChunk .. | .carDevBind .. | .healthPoll .. | .carHealthFail .. | .carePassStart .. | .carPassDone ..
  | .carRingRead .. | .mend .. | .twstaleRescan .. | .lostWaitExpiry .. | .evacTimeout .. | .evacAbort ..
  | .birspReceive .. | .biconflictReceive .. | .lineLockRelease .. | .rolSnpTimeout .. | .rolScrubDone ..
  | .rolProbe .. | .rolParkHwClr .. | .slateWaitResume .. | .slateAgeDrain .. | .slateDrainComplete .. | .bell ..
  | .bellComplete .. | .bellLimit .. | .sltDrain .. | .sltDrainDone .. | .lostLinePoisonWrite .. | .sltOccHwClr ..
  | .tenEnable .. | .tenDisable .. | .tenFreeze .. | .tenFreezeComplete .. | .tenThaw .. | .tenReset ..
  | .tcSelfReset .. | .tenCmdBadOp .. | .controlPageAccess .. | .tcLossClr .. | .tenLossClr .. | .bucketRefill ..
  | .shaperRelease .. | .shaperSlotWrite .. | .slpCfgEn .. | .slpReqWrite .. | .presenceQualified ..
  | .presenceRemoval .. | .rampAdmit .. | .gateFull .. | .pgQualified .. | .limitOnset .. | .limitEnd ..
  | .faultTimerExpiry .. | .rampTimeout .. | .fastTrip .. | .cooldownEnd .. | .hvInValid .. | .hvInLost ..
  | .railGoodEnd .. | .railGoodReturn .. | .retryClear .. | .slpFetShort .. | .slpPeakClr ..
  | .phyPllRelock .. | .cdrRelock .. | .checkerLock .. | .orphanScanDone .. | .clearEventRecords ..
  | .hdmDecoderProgram .. => true
  | _ => false

end Sys2Proof.Machine
end

