-- ==== Sys2Proof/Certificates/Slice0/Obligations.lean ====
section
/-!
DEFINITION. The statements for the provers. Each statement of what a command does names the part after it: the fields
it wrote, and through `changesOnly` that nothing else changed.
-/
open Sys2Proof Sys2Proof.Machine

/-- A supply rising, the supply warnings and their clearing. SUPPLY_VALID above 1.70 V makes VIN or VAUX valid and
records its level; with VAUX the VAUX domain leaves reset unless TESTEN holds it, and RSTCAUSE is 0. PWR_WARN below
the warning level stands; with nothing in flight it records the level, raises PG_ERR bit 0 and changes nothing else,
and one OPEN slate entry of a RESIDENT tile becomes DRAINING and sends its bytes. PWR_AUX_WARN records the level,
raises bit 1, stands and changes nothing else. Above level plus hysteresis PWR_WARN_CLEAR and PWR_AUX_WARN_CLEAR end
their warning and record the level; the first changes nothing else where no care region waits to be written. (derived;
R91, R93, R94, R95, R111.) -/
def Obligations.SuppliesRiseAndWarn : Prop :=
  let warns (mv : Fin 4096) (s : State) : Prop :=
    s.chip.pwr.vauxUp = true ∧ s.chip.pwr.vin = true ∧ s.chip.pwr.warn = false ∧
      mv.val < 10 * getF s.chip PWR_VIN_LVL_WARN 0
  (∀ (mv : Fin 4096) (s : State), s.chip.pwr.vin = false → 1700 < mv.val →
    ∃ t, exec (.supplyValid .vin mv) s = .next t ∧ t.chip.pwr = { s.chip.pwr with vin := true } ∧
      getF t.chip PWR_VSENSE_VIN 0 = mv.val ∧ changesOnly [.pwr] [at0 PWR_VSENSE_VIN 0] s t) ∧
  (∀ (mv : Fin 4096) (s : State), s.chip.pwr.vaux = false → 1700 < mv.val →
    ∃ t, exec (.supplyValid .vaux mv) s = .next t ∧ t.chip.pwr.vaux = true ∧
      getF t.chip PWR_VSENSE_VAUX 0 = mv.val ∧ getF t.chip PWR_RSTCAUSE_CAUSE 0 = 0 ∧
      (Config.testen = false → t.chip.pwr.vauxUp = true) ∧
      (Config.testen = true → t.chip.pwr.vauxUp = s.chip.pwr.vauxUp) ∧
      keepsParts [.fld, .pwr, .flt, .sec, .cnt, .draws] s.chip t.chip ∧ t.recs = s.recs ∧ t.pending = s.pending) ∧
  (∀ (mv : Fin 4096) (s : State), warns mv s →
    ∃ t, exec (.pwrWarn mv) s = .next t ∧ t.chip.pwr = { s.chip.pwr with warn := true } ∧
      t.chip.tmb = s.chip.tmb ∧ t.chip.sec = s.chip.sec ∧ t.recs = s.recs ∧ t.pending = s.pending) ∧
  (∀ (mv : Fin 4096) (s : State), warns mv s → s.chip.idle = true →
    ∃ t, exec (.pwrWarn mv) s = .next t ∧ t.chip.pwr = { s.chip.pwr with warn := true } ∧ errBit t.chip .pwr 0 0 ∧
      getF t.chip PWR_VSENSE_VIN 0 = mv.val ∧
      changesOnly [.pwr, .flt] [at0 PWR_VSENSE_VIN 0, at0 (PG_ERR .pwr) 0] s t) ∧
  (∀ (mv : Fin 4096) (e : SlateEntry) (x : Entry) (s : State), warns mv s → s.chip.slt.entries = [e] →
    s.chip.txns = [] → e.draining = false → e.trig = none → e.shared = false → e.line < 2 ^ 44 →
    mapRunning s.chip = true → s.chip.map.unreadable = [] → s.chip.map.placing = [] → residentAt s.chip e.line x →
    e.ecc = Ecc.none → s.chip.bnd.drainOwed = [] → (s.chip.ten.st.all fun y => !y.2.job.chunk) = true →
    ∃ t, exec (.pwrWarn mv) s = .next t ∧
      t.chip.sent = .devWr (locPort x.loc0) (s.chip.nextTxn + 1) (locTile x.loc0) (lineInTile e.line) e.mask e.data false ::
        s.chip.sent ∧
      t.chip.slt.entries = [{ e with draining := true, txn := some s.chip.nextTxn }] ∧ errBit t.chip .pwr 0 0 ∧
      keepsParts [.fld, .pwr, .flt, .txns, .slt, .map, .cnt, .sent] s.chip t.chip ∧ t.recs = s.recs ∧
      t.pending = s.pending) ∧
  (∀ (mv : Fin 4096) (s : State), s.chip.pwr.warn = true →
    10 * getF s.chip PWR_VIN_LVL_WARN 0 + 5 * getF s.chip PWR_VIN_LVL_HYST 0 < mv.val →
    ∃ t, exec (.pwrWarnClear mv) s = .next t ∧ t.chip.pwr = { s.chip.pwr with warn := false } ∧
      keepsParts [.fld, .pwr, .car, .media] s.chip t.chip ∧ t.recs = s.recs ∧ t.pending = s.pending ∧
      (s.chip.car.initOwed = [] → getF t.chip PWR_VSENSE_VIN 0 = mv.val ∧
        changesOnly [.pwr] [at0 PWR_VSENSE_VIN 0] s t)) ∧
  (∀ (mv : Fin 4096) (s : State), s.chip.pwr.vauxUp = true → s.chip.pwr.auxWarn = false →
    mv.val < 10 * getF s.chip PWR_VAUX_LVL_WARN 0 →
    ∃ t, exec (.pwrAuxWarn mv) s = .next t ∧ t.chip.pwr = { s.chip.pwr with auxWarn := true } ∧
      errBit t.chip .pwr 0 1 ∧ getF t.chip PWR_VSENSE_VAUX 0 = mv.val ∧
      changesOnly [.pwr, .flt] [at0 PWR_VSENSE_VAUX 0, at0 (PG_ERR .pwr) 0] s t) ∧
  (∀ (mv : Fin 4096) (s : State), s.chip.pwr.auxWarn = true →
    10 * getF s.chip PWR_VAUX_LVL_WARN 0 + 5 * getF s.chip PWR_VAUX_LVL_HYST 0 < mv.val →
    ∃ t, exec (.pwrAuxWarnClear mv) s = .next t ∧ t.chip.pwr = { s.chip.pwr with auxWarn := false } ∧
      getF t.chip PWR_VSENSE_VAUX 0 = mv.val ∧ changesOnly [.pwr] [at0 PWR_VSENSE_VAUX 0] s t)

/-- The junction warning, its clearing and the restart after a thermal trip. Above PWR_TEMP_LVL.WARN, PWR_TJ_WARN
raises PG_ERR bit 2 and stands, with the sensor and its reading shown; 5 °C below the level it clears; below 115 °C
the VIN domain may start again after a trip (that a reading exactly 5 °C below clears is the model's reading).
(derived; R97, R98.) -/
def Obligations.TemperatureWarningAndRestart : Prop :=
  (∀ (n : Fin 16) (tj : BitVec 10) (s : State), s.chip.pwr.vauxUp = true → s.chip.pwr.tjWarn = false →
    2 * (getF s.chip PWR_TEMP_LVL_WARN 0 : Int) < tj.toInt →
    ∃ t, exec (.pwrTjWarn n tj) s = .next t ∧ t.chip.pwr = { s.chip.pwr with tjWarn := true } ∧
      errBit t.chip .pwr 0 2 ∧ getF t.chip PWR_TEMP_SENSOR 0 = n.val ∧ getF t.chip PWR_TEMP_TJ 0 = tj.toNat ∧
      changesOnly [.pwr, .flt] [at0 PWR_TEMP_SENSOR 0, at0 PWR_TEMP_TJ 0, at0 (PG_ERR .pwr) 0] s t) ∧
  (∀ (n : Fin 16) (tj : BitVec 10) (s : State), s.chip.pwr.tjWarn = true →
    tj.toInt ≤ 2 * (getF s.chip PWR_TEMP_LVL_WARN 0 : Int) - 10 →
    ∃ t, exec (.pwrTjWarnClear n tj) s = .next t ∧ t.chip.pwr = { s.chip.pwr with tjWarn := false } ∧
      getF t.chip PWR_TEMP_SENSOR 0 = n.val ∧ getF t.chip PWR_TEMP_TJ 0 = tj.toNat ∧
      changesOnly [.pwr] [at0 PWR_TEMP_SENSOR 0, at0 PWR_TEMP_TJ 0] s t) ∧
  (∀ (n : Fin 16) (tj : BitVec 10) (s : State), s.chip.pwr.thermOff = true → tj.toInt < 230 →
    ∃ t, exec (.thermalRestart n tj) s = .next t ∧ t.chip.pwr = { s.chip.pwr with thermOff := false } ∧
      getF t.chip PWR_TEMP_SENSOR 0 = n.val ∧ getF t.chip PWR_TEMP_TJ 0 = tj.toNat ∧
      changesOnly [.pwr] [at0 PWR_TEMP_SENSOR 0, at0 PWR_TEMP_TJ 0] s t)

/-- The commands that reset the part: what is cleared, what is kept, which cause is recorded. A lost supply and a
thermal trip take a cold reset, RESET_N and the key in GLB_RESET a warm one: the slates, requests in flight, the
binding table, the roll, the map cache, the record buffers and the packets are emptied, what the devices store (map
copies, region headers and care regions) stays, PWR_RSTCAUSE is the cause; TMB_NOW returns to 0 with a cold reset and
goes on through a warm one; the slot channels are reset by a cold reset but for HV_IN, and kept by a warm one.
(derived; R92, R98, R113, R114, R115, R612.) -/
def Obligations.ResetsClearAndKeep : Prop :=
  let emptied (s t : State) : Prop :=
    t.recs = [] ∧ t.pending = s.pending ∧ t.chip.slt = Chip.reset.slt ∧ t.chip.txns = [] ∧ t.chip.bnd = Chip.reset.bnd ∧
      t.chip.rol = Chip.reset.rol ∧ t.chip.xbr = Chip.reset.xbr ∧ t.chip.ten = Chip.reset.ten ∧ t.chip.map.cache = [] ∧
      t.chip.media = s.chip.media
  (∀ (mv : Fin 4096) (s : State), s.chip.pwr.vin = true → mv.val < 1550 →
    ∃ t, exec (.supplyLoss .vin mv) s = .next t ∧ emptied s t ∧ t.chip.pwr.vin = false ∧
      getF t.chip PWR_RSTCAUSE_CAUSE 0 = 1 ∧ t.chip.tmb = Chip.reset.tmb ∧
      t.chip.slp = { Chip.reset.slp with hvOk := s.chip.slp.hvOk }) ∧
  (∀ (mv : Fin 4096) (s : State), s.chip.pwr.vaux = true → mv.val < 1550 →
    ∃ t, exec (.supplyLoss .vaux mv) s = .next t ∧ emptied s t ∧ t.chip.pwr.vaux = false ∧
      getF t.chip PWR_RSTCAUSE_CAUSE 0 = 0 ∧ t.chip.tmb = Chip.reset.tmb ∧
      t.chip.slp = { Chip.reset.slp with hvOk := s.chip.slp.hvOk }) ∧
  (∀ (n : Fin 16) (tj : BitVec 10) (s : State), s.chip.pwr.vauxUp = true → 260 < tj.toInt →
    ∃ t, exec (.pwrThermtrip n tj) s = .next t ∧ emptied s t ∧ t.chip.pwr.thermOff = true ∧
      getF t.chip PWR_RSTCAUSE_CAUSE 0 = 2 ∧ t.chip.tmb = Chip.reset.tmb ∧
      t.chip.slp = { Chip.reset.slp with hvOk := s.chip.slp.hvOk }) ∧
  (∀ s : State, s.chip.pwr.vauxUp = true →
    ∃ t, exec .resetNAssert s = .next t ∧ emptied s t ∧ getF t.chip PWR_RSTCAUSE_CAUSE 0 = 3 ∧
      t.chip.tmb.now = s.chip.tmb.now ∧ t.chip.slp = s.chip.slp) ∧
  (∀ (pa : Path) (s : State), pageOpen s.chip pa .glb 0 →
    ∃ t, exec (.glbReset pa 0x5752) s = .next t ∧ emptied s t ∧ getF t.chip PWR_RSTCAUSE_CAUSE 0 = 4 ∧
      t.chip.tmb.now = s.chip.tmb.now ∧ t.chip.slp = s.chip.slp)

/-- The staggered start: time 0, each stage's start, completion and timeout, and the end of the start. Time 0, with
both supplies valid, REFCLK0 present and no thermal trip standing, starts TMB and VCORE at 0.75 V and stage 0 (stage 1
where stage 0 stands since the last cold reset), and changes nothing while REFCLK0 is absent; a stage that starts is
shown in PWR_START.STAGE; a stage that completes starts its pages, the last sets DONE, FLT notes the auxiliary time
from which it checks these pages' heartbeats, and nothing else changes while every reference is present and no bridge
request waits; a stage that misses its limit halts the start and raises PG_ERR bit 5 of PWR, whether TMB runs or not;
with every stage complete USEFUL is set and T_USEFUL is the whole microseconds since time 0 (its rounding and limit
are the model's choice, log entry 98). (derived; R67, R107, R109, R111, R112.) -/
def Obligations.StaggeredStartRuns : Prop :=
  let ready (s : State) : Prop :=
    s.chip.pwr.vin = true ∧ s.chip.pwr.vaux = true ∧ s.chip.pwr.vauxUp = true ∧ s.chip.pwr.thermOff = false ∧
      s.chip.pwr.time0 = false
  (∀ s : State, ready s → s.chip.phy.absent.getLsbD 0 = false → s.chip.tmb.stalled = false →
    ∃ t, exec .startTime0 s = .next t ∧ t.chip.pwr.time0 = true ∧ t.chip.pwr.vcore2 = 1500 ∧
      t.chip.tmb = { s.chip.tmb with started := true } ∧
      getF t.chip PWR_START_STAGE 0 = b2n s.chip.pwr.stage0Once ∧
      t.chip.pwr.begun.getLsbD (b2n s.chip.pwr.stage0Once) = true ∧
      changesOnly [.pwr, .tmb] [at0 PWR_START_STAGE 0] s t) ∧
  (∀ s : State, ready s → s.chip.phy.absent.getLsbD 0 = true → exec .startTime0 s = .next s) ∧
  (∀ s : State, s.chip.pwr.time0 = true → tmbRuns s.chip = true → getF s.chip PWR_START_HALT 0 = 0 →
    nextStage s.chip < 15 →
    ∃ t, exec .staggerStageStart s = .next t ∧ t.chip.pwr.begun.getLsbD (nextStage s.chip) = true ∧
      getF t.chip PWR_START_STAGE 0 = nextStage s.chip ∧ changesOnly [.pwr] [at0 PWR_START_STAGE 0] s t) ∧
  (∀ (k : Fin 15) (s : State), stageRuns s.chip k.val = true → s.chip.brg.port0.req = none → s.chip.brg.port0.late = [] →
    s.chip.brg.port1.req = none → s.chip.brg.port1.late = [] → s.chip.phy.absent = 0 →
    ∃ t, exec (.stageComplete k) s = .next t ∧ t.chip.pwr.done = s.chip.pwr.done ||| (1#15 <<< k.val) ∧
      stageDone t.chip k.val = true ∧ (k.val = 14 → getF t.chip PWR_START_DONE 0 = 1) ∧
      t.chip.flt = { s.chip.flt with stageAt := kvSet 0 s.chip.flt.stageAt k.val s.chip.slp.aux } ∧
      changesOnly [.pwr, .flt] [at0 PWR_START_DONE 0] s t) ∧
  (∀ (k : Fin 15) (s : State), stageRuns s.chip k.val = true →
    ∃ t, exec (.pwrStageTimeout k) s = .next t ∧ getF t.chip PWR_START_HALT 0 = 1 ∧
      getF t.chip PWR_START_STAGE 0 = k.val ∧ errBit t.chip .pwr 0 5 ∧
      changesOnly [.flt] [at0 PWR_START_HALT 0, at0 PWR_START_STAGE 0, at0 (PG_ERR .pwr) 0] s t) ∧
  (∀ s : State, (∀ k : Fin 15, stageDone s.chip k.val = true) → getF s.chip PWR_START_HALT 0 = 0 →
    getF s.chip PWR_START_USEFUL 0 = 0 →
    ∃ t, exec .prefectImageLoad s = .next t ∧ getF t.chip PWR_START_USEFUL 0 = 1 ∧
      getF t.chip PWR_START_T_USEFUL 0 = min 65535 ((s.chip.tmb.now - s.chip.pwr.time0At) / 1000) ∧
      t.chip.pwr = s.chip.pwr ∧ t.chip.tmb = s.chip.tmb ∧ t.recs = s.recs ∧ t.pending = s.pending)

/-- Pace readings and one comparison of the voltage loop. A window's sixteen readings become the paces; USED is the
number of meters in use, and MEAS and SLOW show the slowest of them. A comparison excludes each diverging meter and
raises PG_ERR bit 4 for it, and raises bit 4 also with fewer than eight meters. With HOLD, VCORE stays; else it is
raised by one 2.5 mV step up to VMAX with fewer than eight meters or with pace below the target, lowered by one step
down to 0.60 V with pace above the target plus 8, and stays between. Bit 3 is raised while pace is below the target
and VCORE is at VMAX or held. Nothing else changes. (derived; R101, R102, R103.) -/
def Obligations.PaceAndVoltageLoop : Prop :=
  let shown (rs : List Nat) (ex : BitVec 16) (t : State) : Prop :=
    getF t.chip PWR_PACE_USED 0 = 16 - popCount 16 ex.toNat ∧
      (ex ≠ 0xFFFF#16 → getF t.chip PWR_PACE_SLOW 0 < 16 ∧ ex.getLsbD (getF t.chip PWR_PACE_SLOW 0) = false ∧
        getF t.chip PWR_PACE_MEAS 0 = (rs[getF t.chip PWR_PACE_SLOW 0]?).getD 0 % 2048 ∧
        ∀ j : Fin 16, ex.getLsbD j.val = false →
          (rs[getF t.chip PWR_PACE_SLOW 0]?).getD 0 ≤ (rs[j.val]?).getD 0)
  let up (s : State) : Nat := min (s.chip.pwr.vcore2 + 5) (vmax2 s.chip)
  (∀ (ps : List (Fin 2048)) (s : State), ps.length = 16 → coreOn s.chip = true → tmbRuns s.chip = true →
    ∃ t, exec (.paceMeterWindow ps) s = .next t ∧ t.chip.pwr = { s.chip.pwr with paces := ps.map (·.val) } ∧
      shown (ps.map (·.val)) s.chip.pwr.excluded t ∧
      changesOnly [.pwr] [at0 PWR_PACE_USED 0, at0 PWR_PACE_SLOW 0, at0 PWR_PACE_MEAS 0] s t) ∧
  (∀ s : State, coreOn s.chip = true → tmbRuns s.chip = true → s.chip.pwr.paces.length = 16 →
    ∃ t, exec .voltageLoopCompare s = .next t ∧ t.chip.pwr.paces = s.chip.pwr.paces ∧
      (∀ i : Fin 16,
        t.chip.pwr.excluded.getLsbD i.val = (s.chip.pwr.excluded.getLsbD i.val || (diverging s.chip).contains i.val)) ∧
      shown s.chip.pwr.paces t.chip.pwr.excluded t ∧
      (diverging s.chip ≠ [] → errBit t.chip .pwr 0 4) ∧
      (getF t.chip PWR_PACE_USED 0 < 8 → errBit t.chip .pwr 0 4) ∧
      (getF s.chip PWR_VCORE_HOLD 0 = 1 → t.chip.pwr.vcore2 = s.chip.pwr.vcore2) ∧
      (getF s.chip PWR_VCORE_HOLD 0 = 0 → s.chip.pwr.vcore2 ≤ vmax2 s.chip →
        (getF t.chip PWR_PACE_USED 0 < 8 → t.chip.pwr.vcore2 = up s) ∧
        (8 ≤ getF t.chip PWR_PACE_USED 0 →
          (getF t.chip PWR_PACE_MEAS 0 < getF s.chip PWR_PACE_TGT_TGT 0 → t.chip.pwr.vcore2 = up s) ∧
          (getF s.chip PWR_PACE_TGT_TGT 0 + 8 < getF t.chip PWR_PACE_MEAS 0 → 1200 ≤ s.chip.pwr.vcore2 →
            t.chip.pwr.vcore2 = max (s.chip.pwr.vcore2 - 5) 1200) ∧
          (getF s.chip PWR_PACE_TGT_TGT 0 ≤ getF t.chip PWR_PACE_MEAS 0 →
            getF t.chip PWR_PACE_MEAS 0 ≤ getF s.chip PWR_PACE_TGT_TGT 0 + 8 →
            t.chip.pwr.vcore2 = s.chip.pwr.vcore2))) ∧
      (getF t.chip PWR_PACE_MEAS 0 < getF s.chip PWR_PACE_TGT_TGT 0 →
        getF s.chip PWR_VCORE_HOLD 0 = 1 ∨ vmax2 s.chip ≤ s.chip.pwr.vcore2 → errBit t.chip .pwr 0 3) ∧
      changesOnly [.pwr, .flt, .cnt] [at0 PWR_PACE_USED 0, at0 PWR_PACE_SLOW 0, at0 PWR_PACE_MEAS 0, at0 (PG_ERR .pwr) 0] s t)

/-- The time base stalls and resumes; the rack offset is written in halves and the rack time read. With TMB running,
TMB_STALL stops it, sets STALLED and raises PG_ERR bit 0 of TMB; where REFCLK0 was found absent before, STALLS counts
one and nothing else changes. TMB_RESUMED lets it run on, the reference present, and raises TMB_RESUMED. A low-word
write of TMB_OFS is held by its path; the high-word write sets all 64 bits with it, or with the present low word where
none is held; a read of TMB_RACK_LO returns the low word of TMB_NOW plus TMB_OFS and latches all 64 bits on the path.
(derived; R609, R610, R611.) -/
def Obligations.TimeBaseCommands : Prop :=
  (∀ s : State, tmbRuns s.chip = true →
    ∃ t, exec .tmbStall s = .next t ∧ t.chip.tmb = { s.chip.tmb with stalled := true } ∧
      getF t.chip TMB_STAT_STALLED 0 = 1 ∧ errBit t.chip .tmb 0 0 ∧ t.chip.pwr = s.chip.pwr ∧ t.recs = s.recs ∧ t.pending = s.pending ∧
      (s.chip.phy.absent.getLsbD 0 = true →
        getF t.chip TMB_STAT_STALLS 0 = satAdd 16 (getF s.chip TMB_STAT_STALLS 0) 1 ∧
        changesOnly [.tmb, .flt] [at0 TMB_STAT_STALLED 0, at0 TMB_STAT_STALLS 0, at0 (PG_ERR .tmb) 0] s t)) ∧
  (∀ s : State, s.chip.tmb.started = true → s.chip.tmb.stalled = true →
    ∃ t, exec .tmbResumed s = .next t ∧ t.chip.tmb = { s.chip.tmb with stalled := false } ∧ evtBit t.chip .tmb 0 0 ∧
      t.chip.phy = { s.chip.phy with absent := s.chip.phy.absent &&& ~~~1#8 } ∧
      changesOnly [.tmb, .phy] [at0 (PG_EVT_PEND .tmb) 0] s t) ∧
  (∀ (pa : Path) (v : Word) (s : State), pageOpen s.chip pa .tmb 0 →
    ∃ t, exec (.tmbOfsLoWrite pa v) s = .next t ∧ (latchOf t.chip pa).wrAddr = some 0xE0048 ∧
      (latchOf t.chip pa).wrVal = v.toNat ∧ t.chip.tmb.now = s.chip.tmb.now ∧ changesOnly [.tmb] [] s t) ∧
  (∀ (pa : Path) (v : Word) (s : State), pageOpen s.chip pa .tmb 0 →
    (latchOf s.chip pa).wrAddr = some 0xE0048 → (latchOf s.chip pa).wrVal < 2 ^ 32 →
    ∃ t, exec (.tmbOfsHiWrite pa v) s = .next t ∧ getF t.chip TMB_OFS_HI_OFS 0 = v.toNat ∧
      getF t.chip TMB_OFS_LO_OFS 0 = (latchOf s.chip pa).wrVal ∧ (latchOf t.chip pa).wrAddr = none ∧
      changesOnly [.tmb] [at0 TMB_OFS_LO_OFS 0, at0 TMB_OFS_HI_OFS 0] s t) ∧
  (∀ (pa : Path) (v : Word) (s : State), pageOpen s.chip pa .tmb 0 → (latchOf s.chip pa).wrAddr = none →
    getF s.chip TMB_OFS_LO_OFS 0 < 2 ^ 32 →
    ∃ t, exec (.tmbOfsHiWrite pa v) s = .next t ∧ getF t.chip TMB_OFS_HI_OFS 0 = v.toNat ∧
      getF t.chip TMB_OFS_LO_OFS 0 = getF s.chip TMB_OFS_LO_OFS 0 ∧ changesOnly [] [at0 TMB_OFS_LO_OFS 0, at0 TMB_OFS_HI_OFS 0] s t) ∧
  (∀ (pa : Path) (s : State), pageOpen s.chip pa .tmb 0 →
    ∃ t, exec (.tmbRackLoRead pa) s = .next t ∧
      t.chip.sent = .pathRead pa (rackTime s.chip % 2 ^ 32) :: s.chip.sent ∧
      (latchOf t.chip pa).rdVal = (s.chip.tmb.now + tmbOfs s.chip) % 2 ^ 64 ∧ changesOnly [.tmb, .sent] [] s t)

/-- Counter selects and values, freezes, snapshots and locks, and the counter window of a tenant. On a reachable page:
PG_CSEL takes a select that names an event of the page's block, and any other is refused and counted in
CNT_STAT.REFUSED; the low word of PG_CVAL is held and the high word writes all 64 bits with it, or with the present
low word; a low-word read latches the value. The freezes set FREEZE and FROZEN; a snapshot copies every counter of a
started page, one that comes while another runs is owed and raises CNT_SNAP_BUSY, and its end sets SEQ, its time and
length, clears GO, raises the event and starts the owed one; PG_LOCK sets the lock. A read of the counter window over
a pool face that carries traffic returns, where the tenancy's page admits it, the 64-bit value of the TEN or SHP
counter, 0 where TVIS is 0; a 4-byte read returns its half; a misaligned read, and one that the page does not admit,
is answered Unsupported Request. (derived; R584, R585, R587, R588, R589, R590, R604, R607, R453, R591.) -/
def Obligations.CounterCommands : Prop :=
  (∀ (pa : Path) (pg : PageNo) (i : Fin 16) (v : Word) (k : PK) (n : Nat) (s : State), pageKind pg.val = some (k, n) →
    pageOpen s.chip pa k n → selectOk k v.toNat = true →
    ∃ t, exec (.pgCselWrite pa pg i v) s = .next t ∧
      ctrOf t.chip pg.val i.val = { ctrOf s.chip pg.val i.val with sel := selectBits v.toNat } ∧ changesOnly [.cnt] [] s t) ∧
  (∀ (pa : Path) (pg : PageNo) (i : Fin 16) (v : Word) (k : PK) (n : Nat) (s : State), pageKind pg.val = some (k, n) →
    pageOpen s.chip pa k n → selectOk k v.toNat = false →
    ∃ t, exec (.pgCselWrite pa pg i v) s = .next t ∧
      getF t.chip CNT_STAT_REFUSED 0 = satAdd CNT_STAT_REFUSED.w (getF s.chip CNT_STAT_REFUSED 0) 1 ∧
      changesOnly [] [at0 CNT_STAT_REFUSED 0] s t) ∧
  (∀ (pa : Path) (pg : PageNo) (i : Fin 16) (v : Word) (k : PK) (n : Nat) (s : State), pageKind pg.val = some (k, n) →
    pageOpen s.chip pa k n →
    (∃ t, exec (.pgCvalLoWrite pa pg i v) s = .next t ∧ (latchOf t.chip pa).wrVal = v.toNat ∧
      (latchOf t.chip pa).wrAddr = some (pg.val * 4096 + 0xF00 + 8 * i.val) ∧ changesOnly [.tmb] [] s t) ∧
    (∃ t, exec (.pgCvalHiWrite pa pg i v) s = .next t ∧
      ((latchOf s.chip pa).wrAddr = some (pg.val * 4096 + 0xF00 + 8 * i.val) →
        ctrOf t.chip pg.val i.val =
          { ctrOf s.chip pg.val i.val with val := v.toNat * 2 ^ 32 + (latchOf s.chip pa).wrVal }) ∧
      ((latchOf s.chip pa).wrAddr ≠ some (pg.val * 4096 + 0xF00 + 8 * i.val) →
        ctrOf t.chip pg.val i.val =
          { ctrOf s.chip pg.val i.val with val := v.toNat * 2 ^ 32 + (ctrOf s.chip pg.val i.val).val % 2 ^ 32 }) ∧
      changesOnly [.tmb, .cnt] [] s t) ∧
    (∃ t, exec (.pgCvalLoRead pa pg i) s = .next t ∧
      t.chip.sent = .pathRead pa ((ctrOf s.chip pg.val i.val).val % 2 ^ 32) :: s.chip.sent ∧
      (latchOf t.chip pa).rdVal = (ctrOf s.chip pg.val i.val).val ∧ changesOnly [.tmb, .sent] [] s t) ∧
    (∃ t, exec (.pgLockWrite pa pg) s = .next t ∧ pageLocked t.chip k n = true ∧ changesOnly [] [at0 (PG_LOCK k) n] s t)) ∧
  (∀ (pa : Path) (on : Bool) (s : State),
    (pageOpen s.chip pa .cnt 0 → ∃ t, exec (.cntFreezeWrite pa on) s = .next t ∧
      getF t.chip CNT_CTRL_FREEZE 0 = b2n on ∧ getF t.chip CNT_CTRL_FROZEN 0 = b2n on ∧
      changesOnly [.cnt] [at0 CNT_CTRL_FREEZE 0, at0 CNT_CTRL_FROZEN 0] s t) ∧
    (pageOpen s.chip pa .glb 0 → ∃ t, exec (.glbFreezeWrite pa on) s = .next t ∧
      getF t.chip GLB_FREEZE_FREEZE 0 = b2n on ∧ getF t.chip GLB_FREEZE_FROZEN 0 = b2n on ∧
      changesOnly [.cnt] [at0 GLB_FREEZE_FREEZE 0, at0 GLB_FREEZE_FROZEN 0, at0 (PG_EVT_PEND .glb) 0] s t)) ∧
  (∀ (pa : Path) (s : State), pageOpen s.chip pa .cnt 0 → s.chip.cnt.snapRuns = false →
    ∃ t, exec (.cntSnapGo pa) s = .next t ∧ t.chip.cnt.snapRuns = true ∧ t.chip.cnt.snapAt = s.chip.tmb.now ∧
      getF t.chip CNT_SNAP_GO 0 = 1 ∧
      t.chip.cnt.ctr = s.chip.cnt.ctr.map (fun e =>
        if ctrPageStarted s.chip (e.1 / 16) then (e.1, { e.2 with snap := e.2.val }) else e) ∧
      changesOnly [.cnt] [at0 CNT_SNAP_GO 0, at0 CNT_SNAP_PART 0] s t) ∧
  (∀ (pa : Path) (s : State), pageOpen s.chip pa .cnt 0 → s.chip.cnt.snapRuns = true →
    ∃ t, exec (.cntSnapGo pa) s = .next t ∧ t.chip.cnt = { s.chip.cnt with snapOwed := true } ∧ errBit t.chip .cnt 0 0 ∧
      changesOnly [.cnt, .flt] [at0 (PG_ERR .cnt) 0] s t) ∧
  (∀ s : State, pageStarted s.chip .cnt 0 = true → tmbRuns s.chip = true → getF s.chip CNT_CTRL_PERIOD 0 ≠ 0 →
    s.chip.cnt.snapRuns = false →
    ∃ t, exec .cntSnapPeriod s = .next t ∧ t.chip.cnt.snapRuns = true ∧ getF t.chip CNT_SNAP_GO 0 = 1 ∧
      changesOnly [.cnt] [at0 CNT_SNAP_GO 0, at0 CNT_SNAP_PART 0] s t) ∧
  (∀ (dur : Nat) (s : State), s.chip.cnt.snapRuns = true → dur < 2 ^ 32 →
    ∃ t, exec (.cntSnapDone dur) s = .next t ∧ t.chip.cnt.snapRuns = s.chip.cnt.snapOwed ∧ t.chip.cnt.snapOwed = false ∧
      getF t.chip CNT_SNAP_GO 0 = b2n s.chip.cnt.snapOwed ∧
      getF t.chip CNT_SNAP_SEQ 0 = (getF s.chip CNT_SNAP_SEQ 0 + 1) % 2 ^ 16 ∧ getF t.chip CNT_SNAP_DUR_NS 0 = dur ∧
      getF t.chip CNT_SNAP_TLO_TIME 0 = s.chip.cnt.snapAt % 2 ^ 32 ∧
      getF t.chip CNT_SNAP_THI_TIME 0 = s.chip.cnt.snapAt / 2 ^ 32 % 2 ^ 32 ∧ evtBit t.chip .cnt 0 0 ∧
      changesOnly [.cnt] [at0 CNT_SNAP_GO 0, at0 CNT_SNAP_PART 0, at0 CNT_SNAP_SEQ 0, at0 CNT_SNAP_DUR_NS 0,
        at0 CNT_SNAP_TLO_TIME 0, at0 CNT_SNAP_THI_TIME 0, at0 (PG_EVT_PEND .cnt) 0] s t) ∧
  (∀ (p : Port) (off : Fin 1048576) (pasid : Option (Fin 1048576)) (tag : Nat) (s : State),
    carriesMem s.chip p.val = true →
    (pageAdmits s.chip p.val (off.val / 256) (pasid.map (·.val)) = true →
      (off.val % 8 = 0 → exec (.tenantCounterRead p off true true pasid tag) s =
        .next (onChip s fun c => ioCredits p.val false
          (send (.host p.val tag (.ioData (windowValue s.chip (off.val / 256) (off.val % 256)))) c))) ∧
      (off.val % 4 = 0 → exec (.tenantCounterRead p off false true pasid tag) s =
        .next (onChip s fun c => ioCredits p.val false (send (.host p.val tag
          (.ioData (half (windowValue s.chip (off.val / 256) (off.val % 256)) (off.val % 8 == 4)))) c))) ∧
      (off.val % 8 ≠ 0 → exec (.tenantCounterRead p off true true pasid tag) s =
        .next (onChip s fun c => ioCredits p.val false (send (.host p.val tag .ur) c)))) ∧
    (∀ eight whole : Bool, pageAdmits s.chip p.val (off.val / 256) (pasid.map (·.val)) = false →
      ∃ t, exec (.tenantCounterRead p off eight whole pasid tag) s = .next t ∧
        t.chip.sent = .host p.val tag .ur :: s.chip.sent ∧ evtBit t.chip .ten (off.val / 256) 2 ∧
        t.chip.lnk = (ioCredits p.val false s.chip).lnk ∧
        changesOnly [.lnk, .cnt, .sent] [at0 (PG_EVT_PEND .ten) (off.val / 256)] s t))

/-- One fault code is captured: its record, its place, its count and its pending bit. The first code that waits, where
its link works, is taken by the record arbiter; of severity CE or UC, or FE with FE_ACT 0, where no freeze and no
queued event follows: the code leaves, the next SEQ is taken, and the record with VALID, severity and that SEQ goes
into FIRST where FIRST is empty, into NEXT where only NEXT is, and into neither else. It is the newest of the log,
whose oldest record it replaces, counted in FLT_LOG_LOST, where the log is full. The severity's pending bit is 1 and
its counter one more, saturating; nothing else changes. (derived; R497, R498, R501, R502.) -/
def Obligations.FaultCaptureAndRecords : Prop :=
  let recOf (x : FltCode) (s : State) : FltRec := fltRecord x false ((s.chip.flt.seq + 1) % 65536) s.chip
  let words (X : Fld) : List Nat := (List.range 5).map (fldKey X 0)
  let placed (x : FltCode) (s t : State) : Prop :=
    (recValid (firstWord s.chip 0) = false →
      (∀ i : Fin 5, firstWord t.chip i.val = (recWords (recOf x s)).getD i.val 0 % 2 ^ 32) ∧
      ∀ i : Fin 5, nextWord t.chip i.val = nextWord s.chip i.val) ∧
    (recValid (firstWord s.chip 0) = true → recValid (nextWord s.chip 0) = false →
      (∀ i : Fin 5, nextWord t.chip i.val = (recWords (recOf x s)).getD i.val 0 % 2 ^ 32) ∧
      ∀ i : Fin 5, firstWord t.chip i.val = firstWord s.chip i.val) ∧
    (recValid (firstWord s.chip 0) = true → recValid (nextWord s.chip 0) = true →
      ∀ i : Fin 5, firstWord t.chip i.val = firstWord s.chip i.val ∧ nextWord t.chip i.val = nextWord s.chip i.val)
  ∀ (x : FltCode) (r : List FltCode) (s : State), codeHere s.chip x = true → s.chip.flt.codes = x :: r → x.sev < 3 →
    (x.sev = 2 → getF s.chip FLT_CTRL_FE_ACT 0 = 0) → freezesOn s.chip x.sev = false →
    bit (getF s.chip BRG_ALERT_CFG_SEV 0) x.sev = false →
    ∃ t, exec (.fltCapture 1) s = .next t ∧ t.chip.flt.codes = r ∧ t.chip.flt.seq = (s.chip.flt.seq + 1) % 65536 ∧
      placed x s t ∧
      (s.chip.flt.log.length < 1024 → t.chip.flt.log = s.chip.flt.log ++ [recOf x s]) ∧
      (1024 ≤ s.chip.flt.log.length → t.chip.flt.log = s.chip.flt.log.drop 1 ++ [recOf x s] ∧
        getF t.chip FLT_LOG_LOST_N 0 = satAdd FLT_LOG_LOST_N.w (getF s.chip FLT_LOG_LOST_N 0) 1 ∧ evtBit t.chip .flt 0 0) ∧
      bit (getF t.chip FLT_PEND_SEV 0) x.sev = true ∧
      getF t.chip (sevCount x.sev) 0 = satAdd 32 (getF s.chip (sevCount x.sev) 0) 1 ∧
      changesOnly [.flt, .cnt] ([at0 FLT_PEND_SEV 0, at0 (sevCount x.sev) 0, at0 FLT_LOG_LOST_N 0,
        at0 (PG_EVT_PEND .flt) 0] ++ words FLT_FIRST_WORD ++ words FLT_NEXT_WORD) s t

/-- Fault links, error-bit injection, masks and clears, record clears and the ERR_N pulse. A heartbeat of a started
page whose link works and holds no code is noted with its time; any other changes nothing, and none is recorded. A
link, of a block that raises faults, whose rails show one of the conditions of R492, or which has sent no complete
code for 30 µs, joins the broken ones, and PG_ERR bit 0 of FLT is 1, with the broken page as the source of its code;
one that shows none is unchanged. A poll of a broken page reads its PG_ERR and sends a code with LINKPOLL where one
bit is new, none where none is. Codes raised together travel highest severity first. PG_ERR_INJ sets the bits written,
with INJ in the code of a bit that was 0 and is not masked; PG_ERR_MASK takes the mask; PG_ERR clears the bits written
1. FLT_CLR with the SEQ of FIRST or a later one removes FIRST: NEXT moves into it where its SEQ is later, and both are
empty else; a record of a later SEQ stays. The pulse of ERR_N ends; a RESET reaction's delay ends in a warm reset with
cause 4. (derived; R487, R488, R489, R491, R492, R493, R495, R499, R503, R504.) -/
def Obligations.FaultRegistersAndLinks : Prop :=
  let new (k : PK) (n was : Nat) (s : State) : List Nat :=
    (List.range 16).filter fun b => bit (getF s.chip (PG_ERR k) n) b && !bit was b
  let words (X : Fld) : List Nat := (List.range 5).map (fldKey X 0)
  let sound (pg : PageNo) (s : State) : Prop :=
    hasLink pg.val = true ∧ linkWorks s.chip pg.val = true ∧ linkBroken s.chip pg.val = false
  (∀ (pg : PageNo) (s : State), sound pg s → linkStarted s.chip pg.val = true → linkHolds s.chip pg.val = false →
    ∃ t, exec (.faultHeartbeat pg) s = .next t ∧
      t.chip.flt = { s.chip.flt with heard := kvSet 0 s.chip.flt.heard pg.val s.chip.slp.aux } ∧
      changesOnly [.flt] [] s t) ∧
  (∀ (pg : PageNo) (s : State), linkStarted s.chip pg.val = false ∨ linkHolds s.chip pg.val = true ∨ ¬ sound pg s →
    exec (.faultHeartbeat pg) s = .next s) ∧
  (∀ (pg : PageNo) (x : LinkSeen) (s : State), sound pg s → railsFail x = true ∨ linkSilent s.chip pg.val = true →
    ∃ t, exec (.fltLink pg x) s = .next t ∧ t.chip.flt.broken = s.chip.flt.broken ++ [(pg.val, pageErr s.chip pg.val)] ∧
      errBit t.chip .flt 0 0 ∧
      (bit (getF s.chip (PG_ERR .flt) 0) 0 = false → pgUnmasked s.chip .flt 0 0 = true → t.chip.flt.codes =
        queueCode { page := pg.val, sev := pgSev s.chip .flt 0 0, linkpoll := false, inj := false, isLink := true,
                    time := s.chip.slp.aux } s.chip.flt.codes) ∧
      changesOnly [.flt] [at0 (PG_ERR .flt) 0] s t) ∧
  (∀ (pg : PageNo) (x : LinkSeen) (s : State), railsFail x = false → linkSilent s.chip pg.val = false →
    exec (.fltLink pg x) s = .next s) ∧
  (∀ (pg : PageNo) (k : PK) (n was : Nat) (s : State), pageKind pg.val = some (k, n) →
    s.chip.flt.broken = [(pg.val, was)] →
    ∃ t, exec (.fltLinkPoll pg) s = .next t ∧ t.chip.flt.broken = [(pg.val, getF s.chip (PG_ERR k) n)] ∧
      (new k n was s = [] → t.chip.flt.codes = s.chip.flt.codes) ∧
      (∀ b : Fin 16, new k n was s = [b.val] → t.chip.flt.codes =
        queueCode { page := pg.val, sev := pgSev s.chip k n b.val, linkpoll := true, inj := false, isLink := false,
                    time := s.chip.slp.aux } s.chip.flt.codes) ∧
      changesOnly [.flt, .cnt] [] s t) ∧
  (∀ (pa : Path) (pg : PageNo) (k : PK) (n b : Nat) (v : BitVec 16) (s : State), pageKind pg.val = some (k, n) →
    pageOpen s.chip pa k n → b < (errSevs k).length → b < 16 → bit v.toNat b = true →
    ∃ t, exec (.pgErrInj pa pg v) s = .next t ∧ errBit t.chip k n b ∧ changesOnly [.flt] [at0 (PG_ERR k) n] s t) ∧
  (∀ (pa : Path) (pg : PageNo) (k : PK) (n : Nat) (b : Fin 16) (s : State), pageKind pg.val = some (k, n) →
    pageOpen s.chip pa k n → b.val < (errSevs k).length → bit (getF s.chip (PG_ERR k) n) b.val = false →
    pgUnmasked s.chip k n b.val = true → linkBroken s.chip (pageOf k n) = false →
    ∃ t, exec (.pgErrInj pa pg (1#16 <<< b.val)) s = .next t ∧ t.chip.flt.codes =
      queueCode { page := pageOf k n, sev := pgSev s.chip k n b.val, linkpoll := false, inj := true, isLink := false,
                  time := s.chip.slp.aux } s.chip.flt.codes) ∧
  (∀ (pa : Path) (pg : PageNo) (k : PK) (n : Nat) (v : BitVec 16) (s : State), pageKind pg.val = some (k, n) →
    pageOpen s.chip pa k n →
    (∃ t, exec (.pgErrMaskWrite pa pg v) s = .next t ∧ getF t.chip (PG_ERR_MASK k) n = v.toNat ∧
      changesOnly [.flt] [at0 (PG_ERR_MASK k) n] s t) ∧
    (∃ t, exec (.pgErrClear pa pg v) s = .next t ∧
      (getF s.chip (PG_ERR k) n < 2 ^ 16 → getF t.chip (PG_ERR k) n = andNot (getF s.chip (PG_ERR k) n) v.toNat) ∧
      changesOnly [] [at0 (PG_ERR k) n] s t)) ∧
  (∀ (pa : Path) (seq : Fin 65536) (s : State), pageOpen s.chip pa .flt 0 → recValid (firstWord s.chip 0) = true →
    seqLe16 (firstWord s.chip 0 % 65536) seq.val = true →
    ∃ t, exec (.fltClr pa seq) s = .next t ∧ recValid (nextWord t.chip 0) = false ∧
      (recValid (nextWord s.chip 0) = false ∨ seqLe16 (nextWord s.chip 0 % 65536) seq.val = true →
        recValid (firstWord t.chip 0) = false) ∧
      (recValid (nextWord s.chip 0) = true → seqLe16 (nextWord s.chip 0 % 65536) seq.val = false →
        ∀ i : Fin 5, firstWord t.chip i.val = nextWord s.chip i.val % 2 ^ 32) ∧
      changesOnly [] (words FLT_FIRST_WORD ++ words FLT_NEXT_WORD) s t) ∧
  (∀ (pa : Path) (seq : Fin 65536) (s : State), pageOpen s.chip pa .flt 0 →
    seqLe16 (firstWord s.chip 0 % 65536) seq.val = false → seqLe16 (nextWord s.chip 0 % 65536) seq.val = false →
    exec (.fltClr pa seq) s = .next s) ∧
  (∀ s : State, ∃ t, exec .errnPulseEnd s = .next t ∧ t.chip.flt = { s.chip.flt with pulse := false } ∧
    changesOnly [.flt] [] s t) ∧
  (∀ s : State, s.chip.flt.resetOwed = true →
    ∃ t, exec .feResetDelay s = .next t ∧ getF t.chip PWR_RSTCAUSE_CAUSE 0 = 4 ∧ t.recs = [] ∧ t.chip.txns = [] ∧
      t.chip.flt.resetOwed = false ∧ t.chip.tmb.now = s.chip.tmb.now ∧ t.pending = s.pending)

/-- A frame of the sideband chain. A frame puts the bits of the previous frame on the pins and shifts out the output
image of the configured length, zeros in the first frame after a reset; a frame that starts late, by the settings of
the frame before, is counted in LATE. Where its last eight input bits read 0xA5 it publishes the input image, sets the
CHG bits of the inputs that changed, raises the event where one did, mends BROKEN and starts the count of bad frames
again; else it keeps the image and counts the frame in BAD, and the third in a row sets BROKEN and raises PG_ERR bit
0. Nothing else changes. (derived; R75, R77, R78, R79, R80, R81.) -/
def Obligations.SidebandFrame : Prop :=
  let n (s : State) : Nat := 8 * getF s.chip BRG_SBC_CFG_LEN 0
  let sent (s t : State) : Prop :=
    t.chip.sbc.pins = s.chip.sbc.shifted ∧ t.chip.sbc.ran = true ∧
      t.chip.sbc.shifted = BitVec.ofNat 1024 (if s.chip.sbc.ran then outImage s.chip % 2 ^ n s else 0) ∧
      (frameLate s.chip = false → getF t.chip BRG_SBC_STAT_LATE 0 = getF s.chip BRG_SBC_STAT_LATE 0) ∧
      (frameLate s.chip = true →
        getF t.chip BRG_SBC_STAT_LATE 0 = satAdd BRG_SBC_STAT_LATE.w (getF s.chip BRG_SBC_STAT_LATE 0) 1)
  let diff (img : BitVec 1024) (s : State) : Nat := Nat.xor (img.toNat % 2 ^ n s) s.chip.sbc.inImg.toNat
  ∀ (img : BitVec 1024) (s : State), s.chip.pwr.chainUp = true → s.chip.tap.controlling = false →
    (bits img.toNat (n s - 8) 8 = 0xA5 →
      ∃ t, exec (.sbcFrame img) s = .next t ∧ sent s t ∧ t.chip.sbc.badRun = 0 ∧
        t.chip.sbc.inImg = BitVec.ofNat 1024 (img.toNat % 2 ^ n s) ∧ getF t.chip BRG_SBC_STAT_BROKEN 0 = 0 ∧
        (diff img s ≠ 0 → evtBit t.chip .brgSbc 0 0) ∧
        (∀ m : Fin 32, getFi s.chip BRG_SBC_CHG_CHG 0 m.val < 2 ^ 32 → getFi t.chip BRG_SBC_CHG_CHG 0 m.val =
          Nat.lor (getFi s.chip BRG_SBC_CHG_CHG 0 m.val) (diff img s / 2 ^ (32 * m.val) % 2 ^ 32)) ∧
        changesOnly [.sbc, .draws, .cnt] ([at0 BRG_SBC_STAT_LATE 0, at0 BRG_SBC_STAT_BROKEN 0,
          at0 (PG_EVT_PEND .brgSbc) 0] ++ (List.range 32).map (fldKey BRG_SBC_CHG_CHG 0)) s t) ∧
    (bits img.toNat (n s - 8) 8 ≠ 0xA5 →
      ∃ t, exec (.sbcFrame img) s = .next t ∧ sent s t ∧ t.chip.sbc.badRun = s.chip.sbc.badRun + 1 ∧
        t.chip.sbc.inImg = s.chip.sbc.inImg ∧
        getF t.chip BRG_SBC_STAT_BAD 0 = satAdd BRG_SBC_STAT_BAD.w (getF s.chip BRG_SBC_STAT_BAD 0) 1 ∧
        (s.chip.sbc.badRun = 2 → getF t.chip BRG_SBC_STAT_BROKEN 0 = 1 ∧ errBit t.chip .brgSbc 0 0) ∧
        changesOnly [.sbc, .draws, .cnt, .flt] [at0 BRG_SBC_STAT_LATE 0, at0 BRG_SBC_STAT_BAD 0,
          at0 BRG_SBC_STAT_BROKEN 0, at0 (PG_ERR .brgSbc) 0] s t)

/-- The instructions of the test access port and their data registers. With VAUX valid and the controller in
Test-Logic-Reset or Run-Test/Idle: a reset selects IDCODE; IDCODE, SAMPLE/PRELOAD, BYPASS and every opcode from 7 load
their instruction and leave the lands to functional logic; IDCODE returns 0x2102_4C3B, SAMPLE/PRELOAD the captured
cells while what is shifted in becomes the latches, BYPASS what is shifted in one bit later; they change nothing but
the port. EXTEST, HIGHZ, CLAMP, EXTEST_PULSE and EXTEST_TRAIN load their instruction and take the lands; with the part
held in reset, or the lands taken before, or no port enabled and no lane in use, they change nothing but the port.
(derived; R82, R83, R84, R85, R86, R88.) -/
def Obligations.TestPortInstructions : Prop :=
  let loaded (op : BitVec 8) (takes : Bool) (s t : State) : Prop :=
    t.chip.tap.ir = op ∧ t.chip.tap.irShift = op ∧ t.chip.tap.controlling = takes ∧ t.chip.tap.ctl = .runTestIdle ∧
      t.recs = s.recs ∧ t.pending = s.pending
  let quiet (x : TapScan) (op : BitVec 8) (i : Instr) (s : State) (out : Nat) (after : Tap → Prop) : Prop :=
    ∃ t, exec i s = .next t ∧ loaded op false s t ∧ changesOnly [.tap, .sent, .draws] [] s t ∧
      (x.tdi ≠ [] → t.chip.sent.head? = some (.tapShift false x.tdi.length (out % 2 ^ x.tdi.length)) ∧ after t.chip.tap)
  let takes (x : TapScan) (op : BitVec 8) (i : Instr) (s : State) : Prop :=
    ∃ t, exec i s = .next t ∧ loaded op true s t ∧
      (s.chip.pwr.vauxUp = false ∨ s.chip.tap.controlling = true ∨ (enabledPorts s.chip = [] ∧ s.chip.phy.lane = []) →
        changesOnly [.tap, .sent, .draws] [] s t) ∧
      (x.tdi.length = 3171 → op ≠ 3 → op ≠ 4 → t.chip.tap.latches = BitVec.ofNat 3171 (bitsNat x.tdi))
  (∀ s : State, s.chip.pwr.vaux = true →
    ∃ t, exec .tapReset s = .next t ∧ t.chip.tap.ir = 2 ∧ t.chip.tap.controlling = false ∧
      t.chip.tap.ctl = .testLogicReset ∧ changesOnly [.tap] [] s t) ∧
  (∀ (x : TapScan) (op : BitVec 8) (s : State), s.chip.pwr.vaux = true → s.chip.tap.ctl ∈ [.testLogicReset, .runTestIdle] →
    quiet x 1 (.tapSamplePreload x) s ((captured s.chip x.lands).toNat + 2 ^ 3171 * bitsNat x.tdi) (fun u =>
      x.tdi.length = 3171 → u.cells = BitVec.ofNat 3171 (bitsNat x.tdi) ∧ u.latches = BitVec.ofNat 3171 (bitsNat x.tdi)) ∧
    quiet x 2 (.tapIdcode x) s (0x21024C3B + 2 ^ 32 * bitsNat x.tdi) (fun _ => True) ∧
    (7 ≤ op.toNat → quiet x op (.tapBypass op x) s (2 * bitsNat x.tdi) (fun _ => True)) ∧
    takes x 0 (.tapExtest x) s ∧ takes x 3 (.tapHighz x) s ∧ takes x 4 (.tapClamp x) s ∧
    takes x 5 (.tapExtestPulse x) s ∧ takes x 6 (.tapExtestTrain x) s)

/-- Tracking, freezing, power-down, saturation and clock recovery of a lane. On a tracking lane a step moves the CTLE
peak by one within 0 to 31, a fixed tap by one code within its range (above 8 GT/s each of the twelve, at lower rates
taps 1 to 6 only) and above 8 GT/s a floating tap's value; above 8 GT/s a floating tap takes a position of 13 to 76
that no other holds. FREEZE shows FROZEN, its release the phase of the lane. PD of a lane of no enabled port acts at
once, and a powered-down lane has no lock and no loop. The end of a range raises bit 1 and a lost lock bit 0 of the
lane group's PG_ERR, is latched, and takes a link in L0 into Recovery (shown for faces without device or pool
traffic); a trained lane of a served tile locks again. (derived; R124, R126, R128, R130, R133, R140.) -/
def Obligations.LaneTracking : Prop :=
  (∀ (l : Lane) (up : Bool) (s : State), tracking s.chip l.val = true →
    ∃ t, exec (.trackingUpdate l 0 up) s = .next t ∧
      getLane t.chip PHY_LANE_CTLE_PEAK l.val =
        (if up then min 31 (getLane s.chip PHY_LANE_CTLE_PEAK l.val + 1)
         else getLane s.chip PHY_LANE_CTLE_PEAK l.val - 1) % 32 ∧
      changesOnly [] [atLane PHY_LANE_CTLE_PEAK l.val] s t) ∧
  (∀ (l : Lane) (k : Fin 16) (X : Fld) (up : Bool) (s : State), tracking s.chip l.val = true → 0 < k.val →
    (tapFlds ++ fvalFlds)[k.val - 1]? = some X → 2 < getLane s.chip PHY_LANE_STAT_RATE l.val ∨ k.val ≤ 6 →
    ∃ t, exec (.trackingUpdate l k up) s = .next t ∧
      getLane t.chip X l.val = stepCode 8 (getLane s.chip X l.val) up % 2 ^ X.w ∧ changesOnly [] [atLane X l.val] s t) ∧
  (∀ (l : Lane) (k : Fin 16) (up : Bool) (s : State), getLane s.chip PHY_LANE_STAT_RATE l.val ≤ 2 → 6 < k.val →
    exec (.trackingUpdate l k up) s = .next s) ∧
  (∀ (l : Lane) (i : Fin 3) (X : Fld) (pos : Fin 128) (s : State), tracking s.chip l.val = true →
    2 < getLane s.chip PHY_LANE_STAT_RATE l.val → 13 ≤ pos.val → pos.val ≤ 76 → fposFlds[i.val]? = some X →
    (fposFlds.filter (· != X)).all (fun Y => getLane s.chip Y l.val != pos.val) = true →
    ∃ t, exec (.floatingTapReeval l i pos) s = .next t ∧ getLane t.chip X l.val = pos.val ∧
      changesOnly [] [atLane X l.val] s t) ∧
  (∀ (l : Lane) (s : State), tracking s.chip l.val = true → saturated s.chip l.val = true →
    ∃ t, exec (.phyAdaptSat l) s = .next t ∧ errBit t.chip .phyG (l.val / 16) 1 ∧
      changesOnly [.cnt, .flt] [at0 (PG_ERR .phyG) (l.val / 16)] s t) ∧
  (∀ (pa : Path) (l : Lane) (on : Bool) (s : State), pageOpen s.chip pa .phyG (l.val / 16) →
    ∃ t, exec (.laneFreeze pa l on) s = .next t ∧ getLane t.chip PHY_LANE_CTRL_FREEZE l.val = b2n on ∧
      getLane t.chip PHY_LANE_STAT_ADAPT l.val = (if on then 3 else adaptPhase s.chip l.val) ∧
      changesOnly [] [atLane PHY_LANE_CTRL_FREEZE l.val, atLane PHY_LANE_STAT_ADAPT l.val] s t) ∧
  (∀ (pa : Path) (l : Lane) (on : Bool) (s : State), pageOpen s.chip pa .phyG (l.val / 16) →
    portOfLane (setLane PHY_LANE_CTRL_PD l.val (b2n on) s.chip) l.val = none →
    ∃ t, exec (.lanePowerDown pa l on) s = .next t ∧ getLane t.chip PHY_LANE_CTRL_PD l.val = b2n on ∧
      getLane t.chip PHY_LANE_STAT_PDACT l.val = b2n on ∧
      (on = true → getLane t.chip PHY_LANE_STAT_LBACT l.val = 0 ∧ getLane t.chip PHY_LANE_STAT_CDR_LOCK l.val = 0 ∧
        (laneSt t.chip l.val).genOn = false ∧ (laneSt t.chip l.val).chkOn = false) ∧
      changesOnly [.phy] [atLane PHY_LANE_CTRL_PD l.val, atLane PHY_LANE_STAT_PDACT l.val,
        atLane PHY_LANE_STAT_LBACT l.val, atLane PHY_LANE_STAT_CDR_LOCK l.val, atLane PHY_LANE_STAT_SIGDET l.val,
        atLane PHY_LANE_STAT_CHK_LOCK l.val] s t) ∧
  (∀ (l : Lane) (s : State), (laneSt s.chip l.val).trained = true → getLane s.chip PHY_LANE_STAT_CDR_LOCK l.val = 1 →
    (portOfLane s.chip l.val).all (fun p => !inL0 s.chip p) = true →
    ∃ t, exec (.phyCdrLoss l) s = .next t ∧ getLane t.chip PHY_LANE_STAT_CDR_LOCK l.val = 0 ∧
      getLane t.chip PHY_LANE_STAT_CDR_LOST l.val = 1 ∧ errBit t.chip .phyG (l.val / 16) 0 ∧
      changesOnly [.cnt, .flt] [atLane PHY_LANE_STAT_CDR_LOCK l.val, atLane PHY_LANE_STAT_CDR_LOST l.val,
        at0 (PG_ERR .phyG) (l.val / 16)] s t) ∧
  (∀ (l : Lane) (p : Nat) (s : State), (laneSt s.chip l.val).trained = true →
    getLane s.chip PHY_LANE_STAT_CDR_LOCK l.val = 1 → portOfLane s.chip l.val = some p → inL0 s.chip p = true →
    plainPort s.chip p →
    ∃ t, exec (.phyCdrLoss l) s = .next t ∧ getLane t.chip PHY_LANE_STAT_CDR_LOST l.val = 1 ∧ linkState t.chip p = 4 ∧
      errBit t.chip .phyG (l.val / 16) 0 ∧
      changesOnly [.cnt, .flt] ([atLane PHY_LANE_STAT_CDR_LOCK l.val, atLane PHY_LANE_STAT_CDR_LOST l.val,
        at0 (PG_ERR .phyG) (l.val / 16), at0 LNK_STAT_STATE p, at0 LNK_CTRL_RETRAIN p, at0 LNK_STAT_WIDTH p,
        at0 PRT_STAT_TWIDTH p] ++ (lanesOf s.chip p).map (atLane PHY_LANE_STAT_ADAPT)) s t) ∧
  (∀ (l : Lane) (s : State), (laneSt s.chip l.val).trained = true → tileOk s.chip (l.val / 128) = true →
    s.chip.tap.controlling = false →
    ∃ t, exec (.cdrRelock l) s = .next t ∧ getLane t.chip PHY_LANE_STAT_CDR_LOCK l.val = 1 ∧
      changesOnly [] [atLane PHY_LANE_STAT_CDR_LOCK l.val] s t)

/-- References and PLLs of the SerDes tiles. A lost input REFCLKk raises bit 0 of PG_ERR of each started tile that
takes its reference from it, and of no other, while no port is enabled, and takes the one enabled port's link in L0
there into Recovery (a face without device or pool traffic); its return ends the absence, and that of REFCLK0 lets a
stalled TMB run on. An unlocked PLL of a started, served tile raises bit 1 and stands until the relock, which needs
the reference. A measured offset is shown on a tile other than ST0 that uses its own reference, and one beyond 300 ppm
raises bit 2. A change of REFSEL on such a tile with no enabled port takes the other reference, clears REF_PPM where
it takes REFCLK0, and raises bit 0 where that reference is absent. (derived; R68, R134, R135, R154, R609.) -/
def Obligations.TileReferences : Prop :=
  (∀ (k : SerTile) (s : State), s.chip.phy.absent.getLsbD k.val = false → enabledPorts s.chip = [] →
    ∃ t, exec (.phyRefclkLoss k) s = .next t ∧ t.chip.phy = { s.chip.phy with absent := s.chip.phy.absent ||| (1#8 <<< k.val) } ∧
      (∀ j : SerTile, refOf s.chip j.val = k.val → pageStarted s.chip .phyT j.val = true → errBit t.chip .phyT j.val 0) ∧
      changesOnly [.phy, .flt] (((List.range 8).filter fun j => refOf s.chip j == k.val).map (at0 (PG_ERR .phyT))) s t) ∧
  (∀ (k : SerTile) (p : Nat) (s : State), s.chip.phy.absent.getLsbD k.val = false → enabledPorts s.chip = [p] →
    refOf s.chip (p / 128) = k.val → pageStarted s.chip .phyT (p / 128) = true → inL0 s.chip p = true →
    plainPort s.chip p →
    ∃ t, exec (.phyRefclkLoss k) s = .next t ∧ t.chip.phy.absent.getLsbD k.val = true ∧ linkState t.chip p = 4 ∧
      errBit t.chip .phyT (p / 128) 0 ∧ t.recs = s.recs ∧ t.pending = s.pending) ∧
  (∀ (k : SerTile) (s : State), ∃ t, exec (.phyRefclkReturn k) s = .next t ∧
    t.chip.phy.absent.getLsbD k.val = false ∧
    (∀ j : SerTile, j ≠ k → t.chip.phy.absent.getLsbD j.val = s.chip.phy.absent.getLsbD j.val) ∧
    (k.val ≠ 0 ∨ s.chip.tmb.stalled = false → changesOnly [.phy] [] s t) ∧
    (k.val = 0 → s.chip.tmb.started = true → s.chip.tmb.stalled = true → t.chip.tmb = { s.chip.tmb with stalled := false } ∧
      evtBit t.chip .tmb 0 0 ∧ changesOnly [.phy, .tmb] [at0 (PG_EVT_PEND .tmb) 0] s t)) ∧
  (∀ (k : SerTile) (s : State), pageStarted s.chip .phyT k.val = true → tileOk s.chip k.val = true →
    tilePorts s.chip k.val = [] →
    ∃ t, exec (.phyPllUnlock k) s = .next t ∧ t.chip.phy.pllLost.getLsbD k.val = true ∧ errBit t.chip .phyT k.val 1 ∧
      changesOnly [.phy, .flt] [at0 (PG_ERR .phyT) k.val] s t) ∧
  (∀ (k : SerTile) (s : State), refGone s.chip k.val = false →
    ∃ t, exec (.phyPllRelock k) s = .next t ∧ t.chip.phy.pllLost.getLsbD k.val = false ∧ changesOnly [.phy] [] s t) ∧
  (∀ (k : SerTile) (s : State), refGone s.chip k.val = true → exec (.phyPllRelock k) s = .next s) ∧
  (∀ (k : SerTile) (ppm : BitVec 16) (s : State), k.val ≠ 0 → isF s.chip PHY_ST_CTRL_REFSEL k.val = false →
    pageStarted s.chip .phyT k.val = true →
    ∃ t, exec (.phyRefPpm k ppm) s = .next t ∧ getF t.chip PHY_ST_STAT_REF_PPM k.val = ppm.toNat ∧
      (300 < (toInt 16 ppm.toNat).natAbs → errBit t.chip .phyT k.val 2) ∧
      changesOnly [.flt] [at0 PHY_ST_STAT_REF_PPM k.val, at0 (PG_ERR .phyT) k.val] s t) ∧
  (∀ (pa : Path) (k : SerTile) (sel : Bool) (s : State), pageOpen s.chip pa .phyT k.val → k.val ≠ 0 →
    isF s.chip PHY_ST_CTRL_REFSEL k.val = !sel → enabledPorts (setF PHY_ST_CTRL_REFSEL k.val (b2n sel) s.chip) = [] →
    ∃ t, exec (.refselWrite pa k sel) s = .next t ∧ getF t.chip PHY_ST_CTRL_REFSEL k.val = b2n sel ∧
      (sel = true → getF t.chip PHY_ST_STAT_REF_PPM k.val = 0) ∧
      (s.chip.phy.absent.getLsbD (if sel then 0 else k.val) = true → errBit t.chip .phyT k.val 0) ∧
      changesOnly [.phy, .flt] [at0 PHY_ST_CTRL_REFSEL k.val, at0 PHY_ST_STAT_REF_PPM k.val,
        at0 (PG_ERR .phyT) k.val] s t)

/-- Loopbacks, patterns, the checker and lane margining. On a powered lane whose port, if any, is down: LB 1 and 2
close a near-end loopback at once, LB 3 waits for signal and closes when it comes; other codes are ignored, and LB 0
ends the loopback. The follower makes the free lanes of a training port that is no trunk loop, and its end returns
them. The generator and the checker act where R149 lets them; CHK_EN from 0 to 1 clears the counts; the checker locks
on a pattern its rate allows, counts bits and errors while locked, and 1,024 errors of 4,096 bits lose the lock and
raise bit 2. A margin GO starts the measurement of PHY_LANE_MARGIN or is refused while one runs; its end leaves DONE
and the errors, at most the bits compared; a PCIe margining command is accepted or refused, and its result goes to the
partner. (derived; R142, R143, R144, R148, R149, R150, R151, R152.) -/
def Obligations.LoopbacksAndPatterns : Prop :=
  let quiet (l : Lane) (lb : Nat) (s : State) : Prop :=
    (portOfLane (setLane PHY_LANE_CTRL_LB l.val lb s.chip) l.val).all
      (fun p => !trunk s.chip p && linkState s.chip p == 0) = true ∧ lanePowered s.chip l.val = true
  let ofLane (s t : State) : Prop := keepsParts [.fld, .phy] s.chip t.chip ∧ t.recs = s.recs ∧ t.pending = s.pending
  (∀ (pa : Path) (l : Lane) (a : LaneAdapt) (s : State), pageOpen s.chip pa .phyG (l.val / 16) →
    (quiet l 3 s → ∃ t, exec (.loopbackEnter pa l 3 a) s = .next t ∧ getLane t.chip PHY_LANE_CTRL_LB l.val = 3 ∧
      (laneSt t.chip l.val).lb = .waitSignal ∧ getLane t.chip PHY_LANE_STAT_LBACT l.val = 0 ∧ ofLane s t) ∧
    (quiet l 1 s → ∃ t, exec (.loopbackEnter pa l 1 a) s = .next t ∧ getLane t.chip PHY_LANE_CTRL_LB l.val = 1 ∧
      (laneSt t.chip l.val).lb = .closed ∧ getLane t.chip PHY_LANE_STAT_LBACT l.val = 1 ∧
      getLane t.chip PHY_LANE_STAT_CDR_LOCK l.val = 1 ∧ ofLane s t) ∧
    (quiet l 2 s → ∃ t, exec (.loopbackEnter pa l 2 a) s = .next t ∧ getLane t.chip PHY_LANE_CTRL_LB l.val = 2 ∧
      (laneSt t.chip l.val).lb = .closed ∧ getLane t.chip PHY_LANE_STAT_LBACT l.val = 1 ∧ ofLane s t)) ∧
  (∀ (pa : Path) (l : Lane) (lb : Fin 8) (a : LaneAdapt) (s : State), pageOpen s.chip pa .phyG (l.val / 16) →
    lb.val = 0 ∨ 3 < lb.val → exec (.loopbackEnter pa l lb a) s = .next s) ∧
  (∀ (l : Lane) (a : LaneAdapt) (s : State), (laneSt s.chip l.val).lb = .waitSignal → lanePowered s.chip l.val = true → s.chip.tap.controlling = false →
    ∃ t, exec (.loopbackFeSignal l a) s = .next t ∧ (laneSt t.chip l.val).lb = .closed ∧
      getLane t.chip PHY_LANE_STAT_LBACT l.val = 1 ∧ getLane t.chip PHY_LANE_STAT_CDR_LOCK l.val = 1 ∧ ofLane s t) ∧
  (∀ (pa : Path) (l : Lane) (s : State), pageOpen s.chip pa .phyG (l.val / 16) →
    getLane s.chip PHY_LANE_CTRL_LB l.val ≠ 0 →
    ∃ t, exec (.loopbackExit pa l) s = .next t ∧ getLane t.chip PHY_LANE_CTRL_LB l.val = 0 ∧
      getLane t.chip PHY_LANE_STAT_LBACT l.val = 0 ∧ (laneSt t.chip l.val).lb = .none ∧
      (laneSt t.chip l.val).trained = false ∧ ofLane s t) ∧
  (∀ (p : Port) (s : State), portOn s.chip p.val = true → trunk s.chip p.val = false → s.chip.tap.controlling = false →
    isF s.chip PHY_LG_CTRL_FOLLOW (laneGroup p.val) = true →
    (linkState s.chip p.val = 0 → ∃ t, exec (.loopbackFollower p true) s = .next t ∧ linkState t.chip p.val = 1 ∧
      (∀ l ∈ freeLanes s.chip p.val, (laneSt t.chip l).lb = .follower ∧ getLane t.chip PHY_LANE_STAT_LBACT l = 1) ∧
      changesOnly [.phy, .lnk] (at0 LNK_STAT_STATE p.val :: (lanesOf s.chip p.val).map (atLane PHY_LANE_STAT_LBACT)) s t) ∧
    (linkState s.chip p.val = 1 → ∃ t, exec (.loopbackFollower p true) s = .next t ∧ linkState t.chip p.val = 1 ∧
      t.recs = s.recs ∧ t.pending = s.pending)) ∧
  (∀ (p : Port) (s : State), following s.chip p.val = true →
    ∃ t, exec (.loopbackFollower p false) s = .next t ∧ linkState t.chip p.val = 0 ∧
      (∀ l ∈ lanesOf s.chip p.val, (laneSt s.chip l).lb = .follower → (laneSt t.chip l).lb = .none ∧
        getLane t.chip PHY_LANE_STAT_LBACT l = 0) ∧ ofLane s t) ∧
  (∀ (pa : Path) (l : Lane) (on : Bool) (s : State), pageOpen s.chip pa .phyG (l.val / 16) →
    (∃ t, exec (.generatorEnable pa l on) s = .next t ∧ getLane t.chip PHY_LANE_PAT_GEN_EN l.val = b2n on ∧
      (laneSt t.chip l.val).genOn = (patternsAct s.chip l.val && lanePowered s.chip l.val && on) ∧
      changesOnly [.phy] [atLane PHY_LANE_PAT_GEN_EN l.val, atLane PHY_LANE_STAT_CHK_LOCK l.val] s t) ∧
    (∃ t, exec (.checkerEnable pa l on) s = .next t ∧ getLane t.chip PHY_LANE_PAT_CHK_EN l.val = b2n on ∧
      (laneSt t.chip l.val).chkOn = (patternsAct s.chip l.val && lanePowered s.chip l.val && on) ∧
      (on = true → getLane s.chip PHY_LANE_PAT_CHK_EN l.val = 0 → getLane t.chip PHY_LANE_BERR_ERRORS l.val = 0 ∧
        getLane t.chip PHY_LANE_BCNT_BITS l.val = 0 ∧ (laneSt t.chip l.val).compared = 0) ∧
      (on = false → getLane t.chip PHY_LANE_STAT_CHK_LOCK l.val = 0) ∧
      changesOnly [.phy] [atLane PHY_LANE_PAT_CHK_EN l.val, atLane PHY_LANE_BERR_ERRORS l.val,
        atLane PHY_LANE_BCNT_BITS l.val, atLane PHY_LANE_STAT_CHK_LOCK l.val] s t)) ∧
  (∀ (l : Lane) (s : State), (laneSt s.chip l.val).chkOn = true → patternLocks s.chip l.val = true →
    lanePowered s.chip l.val = true → checkerHears s.chip l.val = true →
    ∃ t, exec (.checkerLock l) s = .next t ∧ getLane t.chip PHY_LANE_STAT_CHK_LOCK l.val = 1 ∧
      changesOnly [] [atLane PHY_LANE_STAT_CHK_LOCK l.val] s t) ∧
  (∀ (l : Lane) (clean : Nat) (n : Fin 4097) (s : State), getLane s.chip PHY_LANE_STAT_CHK_LOCK l.val = 1 →
    ∃ t, exec (.phyChkLoss l clean n) s = .next t ∧
      getLane t.chip PHY_LANE_BERR_ERRORS l.val = satAdd 32 (getLane s.chip PHY_LANE_BERR_ERRORS l.val) n.val ∧
      getLane t.chip PHY_LANE_BCNT_BITS l.val = satAdd 32 (getLane s.chip PHY_LANE_BCNT_BITS l.val)
        (((laneSt s.chip l.val).compared + (clean + 4096)) / 2 ^ 20) ∧
      (n.val < 1024 → getLane t.chip PHY_LANE_STAT_CHK_LOCK l.val = 1) ∧
      (1024 ≤ n.val → getLane t.chip PHY_LANE_STAT_CHK_LOCK l.val = 0 ∧ errBit t.chip .phyG (l.val / 16) 2) ∧
      changesOnly [.phy, .cnt, .flt] [atLane PHY_LANE_STAT_CHK_LOCK l.val, atLane PHY_LANE_BERR_ERRORS l.val,
        atLane PHY_LANE_BCNT_BITS l.val, at0 (PG_ERR .phyG) (l.val / 16)] s t) ∧
  (∀ (pa : Path) (l : Lane) (s : State), pageOpen s.chip pa .phyG (l.val / 16) →
    ((laneSt s.chip l.val).margin = none →
      ∃ t, exec (.marginGo pa l) s = .next t ∧ (laneSt t.chip l.val).margin = some (registerMargin s.chip l.val) ∧
        getLane t.chip PHY_LANE_MARGIN_GO l.val = 1 ∧ getLane t.chip PHY_LANE_MRES_DONE l.val = 0 ∧
        getLane t.chip PHY_LANE_MRES_REFUSED l.val = 0 ∧
        changesOnly [.phy, .cnt] [atLane PHY_LANE_MARGIN_GO l.val, atLane PHY_LANE_MRES_DONE l.val,
          atLane PHY_LANE_MRES_REFUSED l.val] s t) ∧
    ((laneSt s.chip l.val).margin ≠ none →
      ∃ t, exec (.marginGo pa l) s = .next t ∧ getLane t.chip PHY_LANE_MRES_REFUSED l.val = 1 ∧
        changesOnly [.cnt] [atLane PHY_LANE_MRES_REFUSED l.val] s t)) ∧
  (∀ (l : Lane) (errs : Nat) (m : MarginRun) (s : State), (laneSt s.chip l.val).margin = some m →
    (m.pcie = false → ∃ t, exec (.marginDone l errs) s = .next t ∧ (laneSt t.chip l.val).margin = none ∧
      getLane t.chip PHY_LANE_MARGIN_GO l.val = 0 ∧ getLane t.chip PHY_LANE_MRES_DONE l.val = 1 ∧
      getLane t.chip PHY_LANE_MRES_ERRORS l.val = min (min errs (2 ^ (20 + m.dwell))) (2 ^ 30 - 1) ∧
      changesOnly [.phy] [atLane PHY_LANE_MARGIN_GO l.val, atLane PHY_LANE_MRES_DONE l.val,
        atLane PHY_LANE_MRES_ERRORS l.val] s t) ∧
    (m.pcie = true → ∃ t, exec (.marginDone l errs) s = .next t ∧ (laneSt t.chip l.val).margin = none ∧
      t.chip.sent = .marginResult l.val errs :: s.chip.sent ∧ changesOnly [.phy, .sent] [] s t)) ∧
  (∀ (l : Lane) (off : MarginStep) (eye : Fin 3) (p : Nat) (s : State), portOfLane s.chip l.val = some p →
    trunk s.chip p = false → inL0 s.chip p = true →
    ((laneSt s.chip l.val).margin = none → ∃ t, exec (.pcieMarginCommand l off eye) s = .next t ∧
      (laneSt t.chip l.val).margin = some (pcieMargin s.chip l.val off eye.val) ∧
      t.chip.sent = .margin l.val false :: s.chip.sent ∧ changesOnly [.phy, .cnt, .sent] [] s t) ∧
    ((laneSt s.chip l.val).margin ≠ none → ∃ t, exec (.pcieMarginCommand l off eye) s = .next t ∧
      t.chip.sent = .margin l.val true :: s.chip.sent ∧ changesOnly [.cnt, .sent] [] s t))

/-- What a receiver does with a flit. In L0 or L0P, with nothing waiting to be sent on the link: the expected flit,
clean or corrected, is accepted, LAST_RX is its number, its credits count as used, and the eighth accepted since the
last Ack sends one. A duplicate is discarded and acknowledged; one beyond the expected number and an uncorrectable
flit request replay from the expected number (the latter raises LNK_CRC_ERR), by a selective Nak where both ends
permit it. A message over the advertised credits raises LNK_CRED_OVF, takes the link into Recovery and lets credits
restart (a face without device or pool traffic). Credit return totals raise AVAIL by what they are ahead of the last
ones, modulo 4,096 and at most to 4,095 (that limit is the model's choice, log entry 100). (derived; R157, R158, R159,
R163, R165, R166.) -/
def Obligations.FlitsReceived : Prop :=
  let quiet (p : Nat) (s : State) : Prop :=
    inL0 s.chip p = true ∧ (lnkSt s.chip p).resend = [] ∧
      (trunk s.chip p = true → trunkOutOf s.chip (primaryOf s.chip p) = [])
  let sound (p : Nat) (f : FlitRx) (s : State) : Prop := flitOutcome s.chip p f.check ≠ .uncorrectable
  let taken (p : Nat) (f : FlitRx) (s t : State) : Prop :=
    getF t.chip LNK_SEQ_LAST_RX p = f.seq.val ∧
      ((lnkSt s.chip p).sinceAck < 7 → (lnkSt t.chip p).sinceAck = (lnkSt s.chip p).sinceAck + 1 ∧
        t.chip.sent = s.chip.sent) ∧
      (7 ≤ (lnkSt s.chip p).sinceAck → (lnkSt t.chip p).sinceAck = 0 ∧
        t.chip.sent = .ack p f.seq.val :: s.chip.sent)
  (∀ (p : Port) (f : FlitRx) (m : FlitMsg) (s : State), quiet p.val s → sound p.val f s → f.msg = some m → f.rets = [] →
    f.seq.val = expectedSeq s.chip p.val → overCredits s.chip p.val m = false →
    ∃ t, exec (.flitReceive p f) s = .next t ∧ taken p.val f s t ∧
      (lnkSt t.chip p.val).used = sumBy (lnkSt s.chip p.val).used (flitNeeds s.chip p.val m) ∧
      changesOnly [.lnk, .sent, .cnt] [at0 LNK_SEQ_LAST_RX p.val] s t) ∧
  (∀ (p : Port) (f : FlitRx) (m : FlitMsg) (s : State), inL0 s.chip p.val = true → sound p.val f s → f.msg = some m →
    512 ≤ flitDist (expectedSeq s.chip p.val) f.seq.val →
    ∃ t, exec (.flitReceive p f) s = .next t ∧
      t.chip.sent = .ack p.val (getF s.chip LNK_SEQ_LAST_RX p.val) :: s.chip.sent ∧
      lnkSt t.chip p.val = { lnkSt s.chip p.val with sinceAck := 0 } ∧ changesOnly [.sent, .cnt, .lnk] [] s t) ∧
  (∀ (p : Port) (f : FlitRx) (m : FlitMsg) (s : State), inL0 s.chip p.val = true → sound p.val f s → f.msg = some m →
    0 < flitDist (expectedSeq s.chip p.val) f.seq.val → flitDist (expectedSeq s.chip p.val) f.seq.val < 512 →
    ∃ t, exec (.flitReceive p f) s = .next t ∧
      t.chip.sent = .nak p.val (expectedSeq s.chip p.val) (selectiveNak s.chip p.val) :: s.chip.sent ∧
      changesOnly [.sent, .cnt] [] s t) ∧
  (∀ (p : Port) (f : FlitRx) (s : State), inL0 s.chip p.val = true → flitOutcome s.chip p.val f.check = .uncorrectable →
    ∃ t, exec (.flitReceive p f) s = .next t ∧ errBit t.chip .lnk p.val 0 ∧
      t.chip.sent = .nak p.val (expectedSeq s.chip p.val) (selectiveNak s.chip p.val) :: s.chip.sent ∧
      changesOnly [.sent, .cnt, .flt] [at0 (PG_ERR .lnk) p.val] s t) ∧
  (∀ (p : Port) (f : FlitRx) (m : FlitMsg) (s : State), quiet p.val s → sound p.val f s → f.msg = some m → f.rets = [] →
    plainPort s.chip p.val → f.seq.val = expectedSeq s.chip p.val → overCredits s.chip p.val m = true →
    ∃ t, exec (.flitReceive p f) s = .next t ∧ taken p.val f s t ∧
      linkState t.chip p.val = 4 ∧ errBit t.chip .lnk p.val 5 ∧ (lnkSt t.chip p.val).credRestart = true ∧
      (lnkSt t.chip p.val).used = (lnkSt s.chip p.val).used ∧
      changesOnly [.lnk, .flt, .sent, .cnt] ([at0 LNK_SEQ_LAST_RX p.val, at0 (PG_ERR .lnk) p.val, at0 LNK_STAT_STATE p.val,
        at0 LNK_CTRL_RETRAIN p.val, at0 LNK_STAT_WIDTH p.val, at0 PRT_STAT_TWIDTH p.val] ++
        (lanesOf s.chip p.val).map (atLane PHY_LANE_STAT_ADAPT)) s t) ∧
  (∀ (p : Port) (f : FlitRx) (s : State), quiet p.val s → trunk s.chip p.val = false → sound p.val f s → f.msg = none →
    f.rets.length = 5 →
    ∃ t, exec (.flitReceive p f) s = .next t ∧
      (∀ k : Fin 5, avail t.chip p.val k.val = min 4095 (avail s.chip p.val k.val +
        (((f.rets[k.val]?).getD 0).val + 4096 - nth (lnkSt s.chip p.val).lastRet k.val % 4096) % 4096)) ∧
      changesOnly [.lnk, .cnt] ((List.range 4).map (fldKey LNK_CRED_AVAIL p.val)) s t)

/-- Acknowledgement, credit returns and replay. An Ack is sent while flits are unacknowledged, with LAST_RX. An Ack
that advances the acknowledged number drops the flits it covers and zeroes the replay count (with nothing waiting to
be sent). A class's freed credits, and the posted headers of an edge link as class 4, are returned as their total
modulo 4,096. A Nak sends every kept flit from the requested number on again in its order with the credit returns of
now, and none where none is kept; the replay count rises where the acknowledged number has not advanced. Above
REPLAY_LIMIT an edge link (a face without device or pool traffic) raises LNK_REPLAY_LIMIT, sets RETRAIN_SPENT and
enters Recovery. RETRAIN_SPENT clears after 65,536 acknowledged flits, and a replay count still above the limit
retrains then. (derived; R158, R159, R161, R162, R165, R169.) -/
def Obligations.AcksAndReplay : Prop :=
  let retrains (p : Nat) (s t : State) : Prop :=
    linkState t.chip p = 4 ∧ getF t.chip LNK_STAT_RETRAIN_SPENT p = 1 ∧ errBit t.chip .lnk p 1 ∧
      changesOnly [.sent, .lnk, .cnt, .flt] ([at0 LNK_STAT_REPLAY_NUM p, at0 LNK_STAT_RETRAIN_SPENT p,
        at0 (PG_ERR .lnk) p, at0 LNK_STAT_STATE p, at0 LNK_CTRL_RETRAIN p, at0 LNK_STAT_WIDTH p,
        at0 PRT_STAT_TWIDTH p] ++ (lanesOf s.chip p).map (atLane PHY_LANE_STAT_ADAPT)) s t
  (∀ (p : Port) (s : State), inL0 s.chip p.val = true → (lnkSt s.chip p.val).sinceAck ≠ 0 →
    ∃ t, exec (.ackSend p) s = .next t ∧ t.chip.sent = .ack p.val (getF s.chip LNK_SEQ_LAST_RX p.val) :: s.chip.sent ∧
      lnkSt t.chip p.val = { lnkSt s.chip p.val with sinceAck := 0 } ∧ changesOnly [.sent, .lnk] [] s t) ∧
  (∀ (p : Port) (seq : Fin 1024) (s : State), inL0 s.chip p.val = true →
    flitDist (getF s.chip LNK_SEQ_ACKD p.val) seq.val ≠ 0 →
    flitDist (getF s.chip LNK_SEQ_ACKD p.val) seq.val <
      flitDist (getF s.chip LNK_SEQ_ACKD p.val) (getF s.chip LNK_SEQ_NEXT_TX p.val) →
    (lnkSt s.chip p.val).resend = [] → (trunk s.chip p.val = true → trunkOutOf s.chip (primaryOf s.chip p.val) = []) →
    ∃ t, exec (.ackReceive p seq) s = .next t ∧ getF t.chip LNK_SEQ_ACKD p.val = seq.val ∧
      (lnkSt t.chip p.val).unacked =
        (lnkSt s.chip p.val).unacked.filter (fun f => f.seq != seq.val && flitDist seq.val f.seq < 512) ∧
      (lnkSt t.chip p.val).replays = 0 ∧ getF t.chip LNK_STAT_REPLAY_NUM p.val = 0 ∧
      changesOnly [.lnk] [at0 LNK_SEQ_ACKD p.val, at0 LNK_STAT_REPLAY_NUM p.val] s t) ∧
  (∀ (p : Port) (k : Fin 5) (s : State), inL0 s.chip p.val = true →
    nth (lnkSt s.chip p.val).freed k.val ≠ nth (lnkSt s.chip p.val).told k.val →
    ∃ t, exec (.creditReturnSend p k) s = .next t ∧
      t.chip.sent = .credit p.val k.val (nth (lnkSt s.chip p.val).freed k.val % 4096) :: s.chip.sent ∧
      (lnkSt t.chip p.val).freed = (lnkSt s.chip p.val).freed ∧ changesOnly [.sent, .lnk] [] s t) ∧
  (∀ (p : Port) (seq : Fin 1024) (s : State), inL0 s.chip p.val = true → replayList s.chip p.val seq.val ≠ [] →
    replaysAfter s.chip p.val ≤ getF s.chip LNK_CTRL_REPLAY_LIMIT p.val ∨
      (trunk s.chip p.val = false ∧ getF s.chip LNK_STAT_RETRAIN_SPENT p.val = 1) →
    ∃ t, exec (.nakReceive p seq) s = .next t ∧
      t.chip.sent = ((replayList s.chip p.val seq.val).map fun f =>
        Out.flit p.val (flitTypeOf f.msg f.orig) f.seq f.msg (returnsNow s.chip p.val) f.orig).reverse ++ s.chip.sent ∧
      (lnkSt t.chip p.val).unacked = (lnkSt s.chip p.val).unacked ∧
      (lnkSt t.chip p.val).replays = (if (lnkSt s.chip p.val).lastReplayAck.all (· == getF s.chip LNK_SEQ_ACKD p.val)
        then (lnkSt s.chip p.val).replays + 1 else (lnkSt s.chip p.val).replays) ∧
      changesOnly [.sent, .lnk, .cnt] [at0 LNK_STAT_REPLAY_NUM p.val] s t) ∧
  (∀ (p : Port) (seq : Fin 1024) (s : State), inL0 s.chip p.val = true → replayList s.chip p.val seq.val = [] →
    exec (.nakReceive p seq) s = .next s) ∧
  (∀ (p : Port) (seq : Fin 1024) (s : State), inL0 s.chip p.val = true → plainPort s.chip p.val →
    trunk s.chip p.val = false → getF s.chip LNK_STAT_RETRAIN_SPENT p.val = 0 → replayList s.chip p.val seq.val ≠ [] →
    getF s.chip LNK_CTRL_REPLAY_LIMIT p.val < replaysAfter s.chip p.val →
    ∃ t, exec (.nakReceive p seq) s = .next t ∧ retrains p.val s t) ∧
  (∀ (p : Port) (s : State), getF s.chip LNK_STAT_RETRAIN_SPENT p.val = 1 →
    65536 ≤ (lnkSt s.chip p.val).ackedSinceRetrain →
    ((lnkSt s.chip p.val).replays ≤ getF s.chip LNK_CTRL_REPLAY_LIMIT p.val →
      ∃ t, exec (.retrainSpentClear p) s = .next t ∧ getF t.chip LNK_STAT_RETRAIN_SPENT p.val = 0 ∧
        changesOnly [] [at0 LNK_STAT_RETRAIN_SPENT p.val] s t) ∧
    (getF s.chip LNK_CTRL_REPLAY_LIMIT p.val < (lnkSt s.chip p.val).replays → trunk s.chip p.val = false →
      inL0 s.chip p.val = true → plainPort s.chip p.val →
      ∃ t, exec (.retrainSpentClear p) s = .next t ∧ retrains p.val s t))

/-- Training, entry to L0 and return from Recovery. An enabled port that may train trains: STATE reads TRAINING, the
Modified TS with its X128 bit are sent, and where lanes suffice the lanes used are trained at the settled rate, at
most what the lane group allows. A trunk that settles below 64 GT/s or without flit mode raises LNK_TRUNK_DOWN, one
without a fabric switch ID or whose partner reports the same raises LNK_TRUNK_ID_CLASH, and neither keeps a training
for L0. A trained link with its lanes ready enters L0 with the rate, width and credits of its training and sequence
numbers from 1 (which first number a link uses is the model's reading, log entry 22), and presents its face; a trunk
whose partner is not up carries all 256 buckets. A link returns from Recovery at its trained width. (derived; R155,
R163, R165, R175, R177, R182, R213, R630, R204.) -/
def Obligations.LinksTrainAndEnterL0 : Prop :=
  let trains (p : Port) (i : TrainInfo) (s : State) : Prop :=
    portOn s.chip p.val = true ∧ linkState s.chip p.val ≤ 1 ∧ mayTrain s.chip p.val = true ∧
      s.chip.tap.controlling = false ∧ following s.chip p.val = false ∧ trainable s.chip p.val i = true
  let trained (p : Port) (i : TrainInfo) (s t : State) : Prop :=
    linkState t.chip p.val = 1 ∧ t.chip.sent = .modifiedTs p.val (sendsX128 s.chip p.val) :: s.chip.sent ∧
      (∀ l ∈ usedLanes s.chip p.val i.width.val (reverses s.chip p.val i), (laneSt t.chip l).trained = true ∧
        getLane t.chip PHY_LANE_STAT_RATE l = settledRate s.chip p.val i) ∧
      keepsParts [.fld, .lnk, .phy, .prt, .flt, .cnt, .sent] s.chip t.chip ∧ t.recs = s.recs ∧ t.pending = s.pending
  (∀ (p : Port) (i : TrainInfo) (s : State), trains p i s → trunk s.chip p.val = false →
    ∃ t, exec (.linkTrain p i) s = .next t ∧ trained p i s t ∧
      ((lnkSt t.chip p.val).info.map (·.rate.val)) = some (settledRate s.chip p.val i) ∧
      settledRate s.chip p.val i ≤ getF s.chip PHY_LG_CTRL_RATECAP (laneGroup p.val)) ∧
  (∀ (p : Port) (i : TrainInfo) (s : State), trains p i s → trunk s.chip p.val = true →
    settledRate s.chip p.val i < 5 ∨ i.flit = false →
    ∃ t, exec (.linkTrain p i) s = .next t ∧ trained p i s t ∧ (lnkSt t.chip p.val).info = none ∧
      errBit t.chip .lnk p.val 3) ∧
  (∀ (p : Port) (i : TrainInfo) (s : State), trains p i s → trunk s.chip p.val = true → 5 ≤ settledRate s.chip p.val i →
    i.flit = true → getF s.chip BND_FSID_FSID 0 = 0 ∨ i.peerId.val = getF s.chip BND_FSID_FSID 0 →
    ∃ t, exec (.linkTrain p i) s = .next t ∧ trained p i s t ∧ (lnkSt t.chip p.val).info = none ∧
      errBit t.chip .lnk p.val 6) ∧
  (∀ (p : Port) (i : TrainInfo) (dev : DeviceInfo) (s : State), trunk s.chip p.val = false →
    deviceFace s.chip p.val = false → readyForL0 s.chip p.val = true → linkState s.chip p.val = 1 →
    (lnkSt s.chip p.val).info = some i →
    ∃ t, exec (.linkL0 p dev) s = .next t ∧ linkState t.chip p.val = 2 ∧
      getF t.chip LNK_STAT_RATE p.val = i.rate.val ∧ getF t.chip LNK_STAT_WIDTH p.val = i.width.val ∧
      getF t.chip LNK_SEQ_NEXT_TX p.val = 1 ∧ getF t.chip LNK_SEQ_LAST_RX p.val = 0 ∧
      (∀ k : Fin 5, avail t.chip p.val k.val = ((i.credits[k.val]?).getD 0).val) ∧ (lnkSt t.chip p.val).unacked = [] ∧
      t.chip.xbr.pkts = s.chip.xbr.pkts.map (fun k => if k.ingress = p.val then { k with repaid := true } else k) ∧
      t.chip.txns = s.chip.txns.map (fun u => if u.port = p.val then { u with owes := false } else u) ∧
      (passFace s.chip p.val = false → t.chip.sent = .presents p.val (faceShown s.chip p.val) :: s.chip.sent) ∧
      keepsParts [.fld, .lnk, .phy, .prt, .xbr, .txns, .sent] s.chip t.chip ∧ t.recs = s.recs ∧ t.pending = s.pending) ∧
  (∀ (p : Port) (i : TrainInfo) (dev : DeviceInfo) (s : State), trunk s.chip p.val = true →
    readyForL0 s.chip p.val = true → linkState s.chip p.val = 1 → (lnkSt s.chip p.val).info = some i →
    partnerOf s.chip p.val ≠ p.val → memberUp s.chip (partnerOf s.chip p.val) = false →
    inL0 s.chip (partnerOf s.chip p.val) = false →
    ∃ t, exec (.linkL0 p dev) s = .next t ∧ linkState t.chip p.val = 2 ∧
      getF t.chip LNK_TSTAT_PEER_ID p.val = i.peerId.val ∧
      (∀ b : Fin 256, carrierOf t.chip (primaryOf s.chip p.val) b.val = p.val) ∧
      keepsParts [.fld, .lnk, .phy, .xbr, .txns, .sent, .cnt] s.chip t.chip ∧ t.recs = s.recs ∧ t.pending = s.pending) ∧
  (∀ (p : Port) (i : TrainInfo) (dev : DeviceInfo) (s : State), trunk s.chip p.val = false →
    deviceFace s.chip p.val = false → readyForL0 s.chip p.val = true → linkState s.chip p.val = 4 →
    (lnkSt s.chip p.val).info = some i → (lnkSt s.chip p.val).credRestart = false →
    ∃ t, exec (.linkL0 p dev) s = .next t ∧ linkState t.chip p.val = 2 ∧
      getF t.chip LNK_STAT_WIDTH p.val = i.width.val ∧ getF t.chip PRT_STAT_TWIDTH p.val = i.width.val ∧
      changesOnly [.phy] ([at0 LNK_STAT_STATE p.val, at0 LNK_STAT_WIDTH p.val, at0 PRT_STAT_TWIDTH p.val] ++
        (lanesOf s.chip p.val).map (atLane PHY_LANE_STAT_ADAPT)) s t)

/-- Recovery and link-down of edge links. On a bridge or pass-through face or a trunk in L0, a Recovery shows STATE
RECOVERY with width 0; a write of RETRAIN stands until that Recovery begins. An edge link whose Recovery fails, or
whose replay count passes its limit while RETRAIN_SPENT is 1, goes down: STATE DOWN, nothing unacknowledged, no
credits, LNK_DOWN raised; with Disable from the partner STATE reads DISABLED, and its Hot Reset is a port reset, with
LNK_DOWN raised. A port reset that software asked for raises none (each with nothing in flight, on a bridge or a
pass-through face, which reports its slot to its host and answers its outstanding non-posted requests Unsupported
Request). (derived; R114, R168, R170, R171, R186, R196, R224.) -/
def Obligations.RecoveryAndLinkDown : Prop :=
  let down (p : Port) (s : State) : State := onChip s (setF LNK_STAT_STATE p.val 0)
  let still (p : Port) (s : State) : Prop :=
    portOn s.chip p.val = true ∧ plainPort s.chip p.val ∧ trunk s.chip p.val = false ∧ s.chip.idle = true
  let told (p : Port) (s t : State) : Prop :=
    (passFace s.chip p.val = true →
      t.chip.sent = (slotReport p.val false true true (answerAsked p.val (down p s).chip)).sent) ∧
    (passFace s.chip p.val = false → t.chip.sent = s.chip.sent) ∧
    keepsParts [.fld, .lnk, .phy, .prt, .flt, .sec, .cnt, .sent] s.chip t.chip ∧ t.recs = s.recs ∧ t.pending = s.pending
  (∀ (p : Port) (s : State), portOn s.chip p.val = true → inL0 s.chip p.val = true → plainPort s.chip p.val →
    ∃ t, exec (.linkRecovery p) s = .next t ∧ linkState t.chip p.val = 4 ∧ getF t.chip LNK_CTRL_RETRAIN p.val = 0 ∧
      getF t.chip LNK_STAT_WIDTH p.val = 0 ∧ changesOnly [] ([at0 LNK_STAT_STATE p.val, at0 LNK_CTRL_RETRAIN p.val,
        at0 LNK_STAT_WIDTH p.val, at0 PRT_STAT_TWIDTH p.val] ++
        (lanesOf s.chip p.val).map (atLane PHY_LANE_STAT_ADAPT)) s t) ∧
  (∀ (pa : Path) (p : Port) (s : State), pageOpen s.chip pa .lnk p.val → portOn s.chip p.val = true →
    inL0 s.chip p.val = true →
    ∃ t, exec (.lnkRetrain pa p) s = .next t ∧ getF t.chip LNK_CTRL_RETRAIN p.val = 1 ∧
      changesOnly [] [at0 LNK_CTRL_RETRAIN p.val] s t) ∧
  (∀ (p : Port) (cause : DownCause) (s : State), still p s → downHolds s.chip p.val cause = true →
    ∃ t, exec (.linkDown p cause) s = .next t ∧ linkState t.chip p.val = 0 ∧ lnkSt t.chip p.val = LnkSt.idle ∧
      errBit t.chip .lnk p.val 2 ∧ (∀ k : Fin 5, avail t.chip p.val k.val = 0) ∧
      getF t.chip LNK_STAT_RETRAIN_SPENT p.val = 0 ∧ told p s t) ∧
  (∀ (p : Port) (s : State), still p s → inL0 s.chip p.val = true ∨ linkState s.chip p.val = 4 →
    (∃ t, exec (.partnerHotReset p false) s = .next t ∧ linkState t.chip p.val = 6 ∧ errBit t.chip .lnk p.val 2 ∧
      told p s t) ∧
    (∃ t, exec (.partnerHotReset p true) s = .next t ∧ linkState t.chip p.val = 0 ∧ errBit t.chip .lnk p.val 2 ∧
      getF t.chip PRT_DEV_RESULT p.val = 0 ∧ told p s t) ∧
    (∀ kind : PortResetKind, ∃ t, exec (.portReset p kind) s = .next t ∧ linkState t.chip p.val = 0 ∧
      getF t.chip (PG_ERR .lnk) p.val = getF s.chip (PG_ERR .lnk) p.val ∧ getF t.chip PRT_DEV_RESULT p.val = 0 ∧
      told p s t))

/-- Failover and failback of a trunk pair. A trunk out of L0 for LOCK_TMR whose partner is in L0, and that resends
nothing itself, is declared down: it reads FAILED, LNK_TRUNK_DOWN is raised, every bucket it carried moves to the
survivor, which reads CARRYING, and its unacknowledged flits are the survivor's, sent on or waiting behind those that
waited there; its lanes are idle. The expected resend flit on a survivor whose partner is down moves LAST_RX on; its
credits count as used, and are freed again where the failed member had accepted its original. When the failback hold
ends buckets may move back, one command a bucket; a bucket moves to the member it is assigned to where none of its
flits is unacknowledged on the other or waits there to be sent again. A SPLIT written in the primary's page moves no
bucket by itself, though it may end a failback; one in any other page is stored and does nothing, and one above 256 is
ignored. (derived; R172, R174, R178, R179, R181, R184, R185, R196.) -/
def Obligations.TrunkPairs : Prop :=
  (∀ (p : Port) (q : Nat) (s : State), trunk s.chip p.val = true → linkState s.chip p.val = 4 →
    (lnkSt s.chip p.val).declaredDown = false → tmbRuns s.chip = true → q = partnerOf s.chip p.val → trunk s.chip q = true →
    inL0 s.chip q = true → (lnkSt s.chip q).declaredDown = false → (lnkSt s.chip p.val).resend = [] →
    trunkOutOf s.chip (primaryOf s.chip q) = [] →
    ∃ t, exec (.trunkLockTmrExpiry p) s = .next t ∧ linkState t.chip p.val = 5 ∧ errBit t.chip .lnk p.val 3 ∧
      (lnkSt t.chip p.val).declaredDown = true ∧ (lnkSt t.chip p.val).unacked = [] ∧
      getF t.chip LNK_TSTAT_CARRYING q = 1 ∧
      (∀ b : Fin 256, carrierOf s.chip (primaryOf s.chip p.val) b.val = p.val →
        carrierOf t.chip (primaryOf s.chip p.val) b.val = q) ∧
      (lnkSt t.chip q).unacked.length + (lnkSt t.chip q).resend.length =
        (lnkSt s.chip q).unacked.length + (lnkSt s.chip q).resend.length + (lnkSt s.chip p.val).unacked.length ∧
      getF t.chip LNK_TSTAT_CARRYING p.val = 0 ∧
      (∀ l ∈ lanesOf s.chip p.val, (laneSt t.chip l).trained = false) ∧
      keepsParts [.fld, .lnk, .phy, .xbr, .flt, .cnt, .sent] s.chip t.chip ∧ t.recs = s.recs ∧ t.pending = s.pending) ∧
  (∀ (p : Port) (f : FlitRx) (m : FlitMsg) (orig : Fin 1024) (s : State), trunk s.chip p.val = true →
    inL0 s.chip p.val = true → memberUp s.chip (partnerOf s.chip p.val) = false → partnerOf s.chip p.val ≠ p.val →
    flitOutcome s.chip p.val f.check ≠ .uncorrectable → f.msg = some m → f.rets = [] →
    f.seq.val = expectedSeq s.chip p.val → overCredits s.chip p.val m = false → (lnkSt s.chip p.val).resend = [] →
    trunkOutOf s.chip (primaryOf s.chip p.val) = [] →
    ∃ t, exec (.failoverResendReceive p f orig) s = .next t ∧ getF t.chip LNK_SEQ_LAST_RX p.val = f.seq.val ∧
      (lnkSt t.chip p.val).used = sumBy (lnkSt s.chip p.val).used (flitNeeds s.chip p.val m) ∧
      (lnkSt t.chip p.val).freed =
        (if flitDist orig.val (getF s.chip LNK_SEQ_LAST_RX (partnerOf s.chip p.val)) < 512 then
          sumBy (lnkSt s.chip p.val).freed (flitNeeds s.chip p.val m) else (lnkSt s.chip p.val).freed) ∧
      changesOnly [.lnk, .cnt, .sent] [at0 LNK_SEQ_LAST_RX p.val] s t) ∧
  (∀ (p : Port) (s : State), trunk s.chip p.val = true → inL0 s.chip p.val = true →
    (lnkSt s.chip p.val).holdRuns = true → tmbRuns s.chip = true →
    (owedBuckets s.chip p.val ≠ [] →
      ∃ t, exec (.failbackHoldExpiry p) s = .next t ∧
        lnkSt t.chip p.val = { lnkSt s.chip p.val with holdRuns := false, failback := true } ∧
        changesOnly [.lnk] [] s t) ∧
    (owedBuckets s.chip p.val = [] →
      ∃ t, exec (.failbackHoldExpiry p) s = .next t ∧ evtBit t.chip .lnk p.val 0 ∧
        lnkSt t.chip p.val = { lnkSt s.chip p.val with holdRuns := false, failback := false } ∧
        getF t.chip LNK_TSTAT_CARRYING (partnerOf s.chip p.val) = 0 ∧
        changesOnly [.lnk] [at0 LNK_TSTAT_CARRYING (partnerOf s.chip p.val), at0 (PG_EVT_PEND .lnk) p.val] s t)) ∧
  (∀ (p : Port) (b : Fin 256) (s : State), memberUp s.chip p.val = true → inL0 s.chip p.val = true →
    (lnkSt s.chip p.val).holdRuns = false → memberUp s.chip (partnerOf s.chip p.val) = true →
    b.val ∈ owedBuckets s.chip p.val → bucketHeld s.chip (partnerOf s.chip p.val) b.val = false →
    ∃ t, exec (.bucketMove p b) s = .next t ∧ carrierOf t.chip (primaryOf s.chip p.val) b.val = p.val ∧
      (∀ d : Fin 256, d ≠ b → carrierOf t.chip (primaryOf s.chip p.val) d.val =
        carrierOf s.chip (primaryOf s.chip p.val) d.val) ∧
      changesOnly [.lnk, .xbr, .cnt] [at0 LNK_TSTAT_CARRYING (partnerOf s.chip p.val), at0 (PG_EVT_PEND .lnk) p.val] s t) ∧
  (∀ (pa : Path) (p : Port) (v : Fin 512) (s : State), pageOpen s.chip pa .lnk p.val →
    (trunk s.chip p.val = true → isPrimary s.chip p.val = true → v.val ≤ 256 →
      ∃ t, exec (.pairSplitWrite pa p v) s = .next t ∧ getF t.chip LNK_PAIR_SPLIT p.val = v.val ∧
        (∀ b : Fin 256, carrierOf t.chip p.val b.val = carrierOf s.chip p.val b.val) ∧
        changesOnly [.lnk] [at0 LNK_PAIR_SPLIT p.val, at0 LNK_TSTAT_CARRYING p.val, at0 (PG_EVT_PEND .lnk) p.val,
          at0 LNK_TSTAT_CARRYING (partnerOf s.chip p.val), at0 (PG_EVT_PEND .lnk) (partnerOf s.chip p.val)] s t) ∧
    (trunk s.chip p.val = false ∨ isPrimary s.chip p.val = false → v.val ≤ 256 →
      ∃ t, exec (.pairSplitWrite pa p v) s = .next t ∧ getF t.chip LNK_PAIR_SPLIT p.val = v.val ∧
        changesOnly [] [at0 LNK_PAIR_SPLIT p.val] s t) ∧
    (256 < v.val → exec (.pairSplitWrite pa p v) s = .next s))

/-- Width changes and the marks channel. While no change of the link or its pair runs, GO starts the width change that
REQ names; where the partner's colliding request wins, ours ends withdrawn and the partner's change runs. A change
that completes on an edge link sets the width to at most the trained width and idles the trained lanes beyond it, and
DONE says so of the link's own request. On a pair the primary changes first and the change ends when both have it. A
marks flit carries up to 28 records of those held for the pair in a free slot, one in at most 2^SHARE flits; one
received sound adds its deltas to the marks of its tile, saturating, and an uncorrectable one is discarded with
LNK_CRC_ERR. A record older than AGE is dropped; a marks flit with more than 28 records is refused as ill formed.
(derived; R157, R188, R189, R191, R192, R193, R194, R195.) -/
def Obligations.WidthChangesAndMarks : Prop :=
  let asksNothing (p : Nat) (s : State) : Prop :=
    (widthPages s.chip p).all (fun r => (widthAsked s.chip r).isNone) = true
  let narrowed (p w : Nat) (s t : State) : Prop :=
    getF t.chip LNK_STAT_WIDTH p = min w (trainedWidth s.chip p) ∧
      (∀ l ∈ trainedLanes s.chip p, (laneSt t.chip l).idled =
        decide (min w (trainedWidth s.chip p) ≤ getLane s.chip PHY_LANE_STAT_LOGICAL l)) ∧
      changesOnly [.phy, .lnk] ([at0 LNK_STAT_WIDTH p, at0 LNK_STAT_STATE p, at0 LNK_WIDTH_GO p, at0 LNK_WIDTH_DONE p] ++
        (lanesOf s.chip p).map (atLane PHY_LANE_STAT_ADAPT)) s t
  (∀ (pa : Path) (p : Port) (peer : Option WidthPeer) (s : State), pageOpen s.chip pa .lnk p.val →
    inL0 s.chip p.val = true → asksNothing p.val s →
    ((peer.all fun w => !peerWins s.chip p.val w) = true →
      ∃ t, exec (.widthChangeGo pa p peer) s = .next t ∧ getF t.chip LNK_WIDTH_GO p.val = 1 ∧
        getF t.chip LNK_WIDTH_DONE p.val = 0 ∧ getF t.chip LNK_WIDTH_WITHDRAWN p.val = 0 ∧
        changesOnly [] [at0 LNK_WIDTH_GO p.val, at0 LNK_WIDTH_DONE p.val, at0 LNK_WIDTH_WITHDRAWN p.val] s t) ∧
    (∀ w : WidthPeer, peer = some w → peerWins s.chip p.val w = true →
      ∃ t, exec (.widthChangeGo pa p peer) s = .next t ∧ (lnkSt t.chip p.val).peerWidth = some w.width.val ∧
        getF t.chip LNK_WIDTH_WITHDRAWN p.val = 1 ∧
        changesOnly [.lnk] [at0 LNK_WIDTH_DONE p.val, at0 LNK_WIDTH_WITHDRAWN p.val] s t)) ∧
  (∀ (p : Port) (s : State), inL0 s.chip p.val = true → trunk s.chip p.val = false → trainedWidth s.chip p.val ≤ 16 →
    (getF s.chip LNK_WIDTH_GO p.val = 1 → ∃ t, exec (.widthChangeDone p) s = .next t ∧
      narrowed p.val (getF s.chip LNK_WIDTH_REQ p.val) s t ∧
      getF t.chip LNK_WIDTH_GO p.val = 0 ∧ getF t.chip LNK_WIDTH_DONE p.val = 1) ∧
    (∀ w : Nat, getF s.chip LNK_WIDTH_GO p.val = 0 → (lnkSt s.chip p.val).peerWidth = some w →
      ∃ t, exec (.widthChangeDone p) s = .next t ∧ narrowed p.val w s t ∧ (lnkSt t.chip p.val).peerWidth = none ∧
        getF t.chip LNK_WIDTH_DONE p.val = getF s.chip LNK_WIDTH_DONE p.val)) ∧
  (∀ (p : Port) (s : State), inL0 s.chip p.val = true → trunk s.chip p.val = true → trainedWidth s.chip p.val ≤ 16 →
    partnerOf s.chip p.val ≠ p.val → inL0 s.chip (partnerOf s.chip p.val) = true → getF s.chip LNK_WIDTH_GO p.val = 1 →
    atWidth s.chip (partnerOf s.chip p.val) (getF s.chip LNK_WIDTH_REQ p.val) = false →
    (isPrimary s.chip p.val = true → ∃ t, exec (.widthChangeDone p) s = .next t ∧
      narrowed p.val (getF s.chip LNK_WIDTH_REQ p.val) s t ∧ getF t.chip LNK_WIDTH_GO p.val = 1) ∧
    (isPrimary s.chip p.val = false → exec (.widthChangeDone p) s = .next s)) ∧
  (∀ (p : Port) (nops : Nat) (s : State), trunk s.chip p.val = true → inL0 s.chip p.val = true →
    getF s.chip LNK_MKCH_EN p.val = 1 → slotFree s.chip p.val = true →
    marksOn s.chip (primaryOf s.chip p.val) ≠ [] →
    2 ^ getF s.chip LNK_MKCH_SHARE p.val ≤ (lnkSt s.chip p.val).sinceMarks + nops + 1 →
    ∃ t, exec (.marksFlitSend p nops) s = .next t ∧
      t.chip.sent = .marksFlit p.val ((marksOn s.chip (primaryOf s.chip p.val)).take 28) :: s.chip.sent ∧
      marksOn t.chip (primaryOf s.chip p.val) = (marksOn s.chip (primaryOf s.chip p.val)).drop 28 ∧
      changesOnly [.sent, .lnk, .cnt] [] s t) ∧
  (∀ (p : Port) (k : FlitCheck) (recs : List MarkRec) (s : State), trunk s.chip p.val = true → inL0 s.chip p.val = true →
    recs.length ≤ 28 → flitOutcome s.chip p.val k = .uncorrectable →
    ∃ t, exec (.marksFlitReceive p k recs) s = .next t ∧ errBit t.chip .lnk p.val 0 ∧
      changesOnly [.cnt, .flt] [at0 (PG_ERR .lnk) p.val] s t) ∧
  (∀ (p : Port) (k : FlitCheck) (r : MarkRec) (e : Entry) (s : State), trunk s.chip p.val = true →
    inL0 s.chip p.val = true → flitOutcome s.chip p.val k ≠ .uncorrectable →
    mapRunning s.chip = true → r.tile.val < poolTiles s.chip → cachedEntry s.chip r.tile.val = some e →
    r.rd.val ≠ 0 ∨ r.wr.val ≠ 0 →
    ∃ t, exec (.marksFlitReceive p k [r]) s = .next t ∧
      (cachedEntry t.chip r.tile.val).map (fun x => (x.rmark, x.wmark)) =
        some (min 255 (e.rmark + r.rd.val), min 255 (e.wmark + r.wr.val)) ∧
      t.recs = s.recs ∧ t.pending = s.pending) ∧
  (∀ (p : Port) (k : FlitCheck) (recs : List MarkRec) (s : State), 28 < recs.length →
    exec (.marksFlitReceive p k recs) s = .refused .illFormed) ∧
  (∀ (p : Port) (s : State), trunk s.chip p.val = true → marksOn s.chip (primaryOf s.chip p.val) ≠ [] →
    tmbRuns s.chip = true →
    ∃ t, exec (.marksRecordAgeDrop p) s = .next t ∧
      marksOn t.chip (primaryOf s.chip p.val) = (marksOn s.chip (primaryOf s.chip p.val)).drop 1 ∧
      changesOnly [.lnk, .cnt] [] s t)

/-- Enabling and disabling a port. On a reachable page of a disabled port, an enable whose checks pass sets EN and
CFG_STATUS 1 with the link DOWN and nothing unacknowledged; one that fails a check leaves EN 0, shows the first
failing check's code and raises PRT_CFG. A disable clears EN and takes the link DOWN on every personality; on a bridge
or pass-through face with nothing in flight it raises no LNK_DOWN, and a pass-through face whose link was up reports
its slot to its hosts and answers what its device still owed Unsupported Request. (derived; R199, R200, R201, R202,
R216, R224.) -/
def Obligations.PortsEnableAndDisable : Prop :=
  (∀ (pa : Path) (p : Port) (s : State), pageOpen s.chip pa .prt p.val → portOn s.chip p.val = false →
    enableCode s.chip p.val = 1 →
    ∃ t, exec (.portEnable pa p) s = .next t ∧ portOn t.chip p.val = true ∧ getF t.chip PRT_STAT_CFG_STATUS p.val = 1 ∧
      linkState t.chip p.val = 0 ∧ (lnkSt t.chip p.val).unacked = [] ∧
      kvFind t.chip.xbr.laneAt p.val = some (getF s.chip XBR_ALLOT_LANE 0) ∧
      keepsParts [.fld, .lnk, .phy, .prt, .xbr, .slp, .sec, .cnt] s.chip t.chip ∧ t.recs = s.recs ∧ t.pending = s.pending) ∧
  (∀ (pa : Path) (p : Port) (s : State), pageOpen s.chip pa .prt p.val → portOn s.chip p.val = false →
    enableCode s.chip p.val ≠ 1 →
    ∃ t, exec (.portEnable pa p) s = .next t ∧ portOn t.chip p.val = false ∧
      getF t.chip PRT_STAT_CFG_STATUS p.val = enableCode s.chip p.val ∧ errBit t.chip .prt p.val 4 ∧
      changesOnly [.cnt, .flt] [at0 PRT_STAT_CFG_STATUS p.val, at0 (PG_ERR .prt) p.val] s t) ∧
  (∀ (pa : Path) (p : Port) (s : State), pageOpen s.chip pa .prt p.val →
    ∃ t, exec (.portDisable pa p) s = .next t ∧ portOn t.chip p.val = false ∧
      getF t.chip PRT_STAT_CFG_STATUS p.val = 0 ∧ (portOn s.chip p.val = true → linkState t.chip p.val = 0) ∧
      t.chip.plane = s.chip.plane ∧ t.recs = s.recs ∧ t.pending = s.pending) ∧
  (∀ (pa : Path) (p : Port) (s : State), pageOpen s.chip pa .prt p.val → portOn s.chip p.val = true →
    plainPort s.chip p.val → trunk s.chip p.val = false → s.chip.idle = true →
    ∃ t, exec (.portDisable pa p) s = .next t ∧
      getF t.chip (PG_ERR .lnk) p.val = getF s.chip (PG_ERR .lnk) p.val ∧
      t.chip.sent = (if linkUp s.chip p.val ∧ passFace s.chip p.val = true then
        slotReport p.val false true true (answerAsked p.val (setF LNK_STAT_STATE p.val 0 s.chip)) else s.chip).sent ∧
      keepsParts [.fld, .lnk, .phy, .prt, .xbr, .sec, .sent] s.chip t.chip)

/-- Hot-add, removal and the slot of a port. PERST_N rises when a slotted port's power is good; a missing link ends
hot-add with RESULT 7, a device that does not become active with 4, one below 64 tiles of 2 MiB with 5, each raising
PRT_HOTADD_FAIL; a device of 64 tiles or more becomes READY with its whole tiles, capped at 4,194,304, its HDM decoder
is programmed over them, and CAR raises CAR_UNCARED where no page cares for it. The attention button, where the
published image shows it pressed and the chain is whole, is an event of a device face and a report to the host of a
pass-through face; a host's Slot Control sets the indicators. A removal request on a present device that nothing rests
on removes it with PRT_DEV_REMOVED, its link DOWN, and one on a device that holds a map copy ends in NOT_ALLOWED (5).
A malformed request on a pool face raises PRT_PROTO and a non-posted one is answered Unsupported Request. (That a
device without a care page is removed at once when nothing lies on it is the model's reading, log entry 25.) (derived;
R208, R212, R218, R219, R220, R223, R361, R387.) -/
def Obligations.HotAddOfDevices : Prop :=
  let pressed (p : Port) (s : State) : Prop :=
    chainIn s.chip (getF s.chip PRT_SLOT_IN_BTN p.val) = true ∧ chainBroken s.chip = false
  (∀ (p : Port) (s : State), deviceFacing s.chip p.val = true → slotted s.chip p.val = true →
    (prtSt s.chip p.val).hot = .waitPerst → slotPg s.chip p.val = true → tmbRuns s.chip = true →
    ∃ t, exec (.perstRelease p) s = .next t ∧
      prtSt t.chip p.val = { prtSt s.chip p.val with hot := .waitLink, perstHigh := true } ∧ changesOnly [.prt] [] s t) ∧
  (∀ (p : Port) (s : State), deviceFace s.chip p.val = true → (prtSt s.chip p.val).hot = .waitLink →
    inL0 s.chip p.val = false → tmbRuns s.chip = true →
    ∃ t, exec (.hotaddLinkTimeout p) s = .next t ∧ getF t.chip PRT_DEV_RESULT p.val = 7 ∧ errBit t.chip .prt p.val 1 ∧
      prtSt t.chip p.val = { prtSt s.chip p.val with hot := .failed } ∧
      changesOnly [.prt, .flt] [at0 PRT_DEV_RESULT p.val, at0 (PG_ERR .prt) p.val] s t) ∧
  (∀ (p : Port) (s : State), deviceFace s.chip p.val = true → (prtSt s.chip p.val).hot = .waitActive → tmbRuns s.chip = true →
    ∃ t, exec (.deviceActiveTimeout p) s = .next t ∧ getF t.chip PRT_DEV_RESULT p.val = 4 ∧ errBit t.chip .prt p.val 1 ∧
      prtSt t.chip p.val = { prtSt s.chip p.val with hot := .failed } ∧
      changesOnly [.prt, .flt] [at0 PRT_DEV_RESULT p.val, at0 (PG_ERR .prt) p.val] s t) ∧
  (∀ (p : Port) (dev : DeviceInfo) (s : State), deviceFace s.chip p.val = true →
    (prtSt s.chip p.val).hot = .waitActive → inL0 s.chip p.val = true → usedTiles dev < 64 →
    ∃ t, exec (.memoryActive p dev) s = .next t ∧ getF t.chip PRT_DEV_RESULT p.val = 5 ∧ errBit t.chip .prt p.val 1 ∧
      prtSt t.chip p.val = { prtSt s.chip p.val with hot := .failed } ∧
      changesOnly [.prt, .flt] [at0 PRT_DEV_RESULT p.val, at0 (PG_ERR .prt) p.val] s t) ∧
  (∀ (p : Port) (dev : DeviceInfo) (s : State), deviceFace s.chip p.val = true →
    (prtSt s.chip p.val).hot = .waitActive → inL0 s.chip p.val = true → 64 ≤ usedTiles dev → s.chip.idle = true →
    s.chip.rak.slots = [] → carePageOf s.chip p.val = none →
    ∃ t, exec (.memoryActive p dev) s = .next t ∧ getF t.chip PRT_DEV_RESULT p.val = 1 ∧
      getF t.chip PRT_DEV_CAP_TILES p.val = usedTiles dev ∧ usedTiles dev = min (dev.bytes / 2 ^ 21) 4194304 ∧
      .hdmProgram p.val (usedTiles dev) ∈ t.chip.sent ∧ evtBit t.chip .prt p.val 0 ∧
      (prtSt t.chip p.val).hot = .ready ∧ (prtSt t.chip p.val).lastSerial = some dev.serial ∧
      errBit t.chip .carC 0 5 ∧ t.chip.plane = s.chip.plane ∧ t.recs = s.recs ∧ t.pending = s.pending) ∧
  (∀ (p : Port) (s : State), deviceFace s.chip p.val = true → slotted s.chip p.val = true →
    getF s.chip PRT_SLOT_IN_BTN p.val ≠ 1023 → pressed p s →
    ∃ t, exec (.attentionButton p) s = .next t ∧ evtBit t.chip .prt p.val 2 ∧
      changesOnly [] [at0 (PG_EVT_PEND .prt) p.val] s t) ∧
  (∀ (p : Port) (s : State), passFace s.chip p.val = true → slotted s.chip p.val = true →
    getF s.chip PRT_SLOT_IN_BTN p.val ≠ 1023 → pressed p s →
    ∃ t, exec (.attentionButton p) s = .next t ∧ t.chip.sent = (slotReport p.val true false false s.chip).sent ∧
      changesOnly [.sent] [] s t) ∧
  (∀ (pa : Path) (p : Port) (d : Nat) (s : State), pageOpen s.chip pa .prt p.val → deviceFace s.chip p.val = true →
    getF s.chip PRT_SLOT_REMOVE_REQ p.val = 0 → (slotted s.chip p.val = true → slotPresent s.chip p.val = true) → carePageOf s.chip p.val = some d → holdsMapCopy s.chip p.val = true →
    ∃ t, exec (.removeReq pa p) s = .next t ∧ getF t.chip CAR_DEV_EVAC_STATUS d = 5 ∧
      getF t.chip PRT_SLOT_REMOVE_REQ p.val = 0 ∧ errBit t.chip .carD d 4 ∧
      t.chip.car = { s.chip.car with
        eol := if getF t.chip CAR_DEV_STAT_STATE d = 3 then addNew s.chip.car.eol d else s.chip.car.eol } ∧
      keepsParts [.fld, .car, .flt] s.chip t.chip ∧ t.recs = s.recs ∧ t.pending = s.pending) ∧
  (∀ (pa : Path) (p : Port) (s : State), pageOpen s.chip pa .prt p.val → deviceFace s.chip p.val = true →
    getF s.chip PRT_SLOT_REMOVE_REQ p.val = 0 → (slotted s.chip p.val = true → slotPresent s.chip p.val = true) →
    carePageOf s.chip p.val = none → holdsMapCopy s.chip p.val = false → locsOn s.chip p.val = [] →
    getF s.chip PRT_DEV_RESULT p.val = 1 →
    ∃ t, exec (.removeReq pa p) s = .next t ∧ getF t.chip PRT_DEV_RESULT p.val = 8 ∧ evtBit t.chip .prt p.val 1 ∧
      getF t.chip PRT_SLOT_REMOVE_REQ p.val = 0 ∧ linkState t.chip p.val = 0 ∧
      (slotted s.chip p.val = true → getF t.chip PRT_SLOT_PWR_REQ p.val = 0) ∧ (prtSt t.chip p.val).hot = .idle ∧
      (prtSt t.chip p.val).removed = true ∧ t.chip.plane = s.chip.plane ∧ t.recs = s.recs ∧ t.pending = s.pending) ∧
  (∀ (p : Port) (np : Bool) (tag : Nat) (s : State), poolFace s.chip p.val = true → inL0 s.chip p.val = true →
    ∃ t, exec (.prtProtoErr p np tag) s = .next t ∧ errBit t.chip .prt p.val 0 ∧
      t.chip.sent = (if np then [.host p.val tag .ur] else []) ++ s.chip.sent ∧
      changesOnly [.sent, .cnt, .flt] [at0 (PG_ERR .prt) p.val] s t) ∧
  (∀ (p : Port) (attn ind : Fin 4) (s : State), boundFace s.chip p.val = true → slotted s.chip p.val = true →
    attn.val < 3 → ind.val < 3 → getF s.chip PRT_SLOT_PWR_REQ p.val = 1 →
    ∃ t, exec (.slotControlWrite p false attn ind) s = .next t ∧ getF t.chip PRT_SLOT_ATTN p.val = attn.val ∧
      getF t.chip PRT_SLOT_PWR_IND p.val = ind.val ∧
      prtSt t.chip p.val = { prtSt s.chip p.val with removed := false } ∧
      changesOnly [.prt] [at0 PRT_SLOT_ATTN p.val, at0 PRT_SLOT_PWR_IND p.val] s t)

/-- Packets through the switch core. A packet's first cell between ports that its binding joins puts it in the buffer
with the forwarding mode its ports give (into an empty core); a non-posted CXL.io request from a bridge face to a
pass-through face that no binding joins to it is answered Unsupported Request (log entry 26); a CXL.cache packet that
does not go between a bridge face and a pass-through face is discarded with its credits returned; a packet whose PBR
ID no ROUTE window names is a BND_ROUTE_MISS, and a non-posted one is answered Unsupported Request. A slot of the
scheduler sends the cell of an eligible one-cell packet under the next sequence number, spending its credits, and
frees it; an uncorrectable error in that cell, which holds the header, drops it, raises XBR_CELL_UE and sends nothing.
An incomplete packet whose stall timer runs out is ended, recorded and raised; the last of its late cells frees it and
returns their credits. XBR_PMODE sets one port's byte and no other's. (derived; R211, R232, R235, R237, R240, R251,
R252, R254, R280.) -/
def Obligations.PacketsThroughTheCore : Prop :=
  let comes (k : PktIn) (s : State) : Prop :=
    pageStarted s.chip .xbrC 0 = true ∧ portOn s.chip k.ingress.val = true ∧ inL0 s.chip k.ingress.val = true ∧
      ideHeld s.chip k.ingress.val = false ∧ pktOf s.chip k.id = none
  let alone (k : Pkt) (e : Nat) (s : State) : Prop :=
    pageStarted s.chip .xbrC 0 = true ∧ s.chip.xbr.pkts = [k] ∧ k.egress = [e] ∧ eligiblePkt s.chip k = true ∧
      byTenancy s.chip k = false ∧ k.cells = 1 ∧ k.sent = 0
  (∀ (k : PktIn) (s : State), comes k s → inL0 s.chip k.egress.val = true → s.chip.xbr.pkts = [] → k.pbrId = none →
    boundWay s.chip k.ingress.val k.egress.val = true → cacheWay s.chip k.typ k.ingress.val k.egress.val = true →
    k.exportReq = none →
    (k.forerunner && frPort s.chip k.ingress.val && !frPort s.chip k.egress.val) = false →
    ∃ t, exec (.packetArrival k [] Ecc.none) s = .next t ∧
      (t.chip.xbr.pkts.map fun u => (u.id, u.ingress, u.egress, u.typ, u.sent)) =
        [(k.id, k.ingress.val, [k.egress.val], k.typ, 0)] ∧
      (t.chip.xbr.pkts.map (·.mode)) = [(modeOf s.chip k.pool k.ingress.val k.egress.val (clsOf k.typ)).1] ∧
      (k.answers = none → t.chip.prt = s.chip.prt) ∧ changesOnly [.xbr, .lnk, .cnt, .prt] [] s t) ∧
  (∀ (k : PktIn) (s : State), comes k s → k.pbrId = none → k.typ = .ioNonPosted → k.answers = none →
    boundWay s.chip k.ingress.val k.egress.val = false → bridgeFace s.chip k.ingress.val = true →
    ∃ t, exec (.packetArrival k [] Ecc.none) s = .next t ∧ t.chip.sent = .host k.ingress.val k.id .ur :: s.chip.sent ∧
      changesOnly [.xbr, .lnk, .cnt, .sent] [] s t ∧
      (k.cells ≤ k.arrived → t.chip.xbr = s.chip.xbr ∧
        t.chip.lnk = (freeCredits k.ingress.val k.typ k.lines.val s.chip).lnk)) ∧
  (∀ (k : PktIn) (s : State), comes k s → k.pbrId = none → k.typ ≠ .ioNonPosted → k.answers = none →
    cacheWay s.chip k.typ k.ingress.val k.egress.val = false → k.cells ≤ k.arrived →
    ∃ t, exec (.packetArrival k [] Ecc.none) s = .next t ∧ t.chip.xbr = s.chip.xbr ∧
      t.chip.lnk = (freeCredits k.ingress.val k.typ k.lines.val s.chip).lnk ∧ changesOnly [.xbr, .lnk, .cnt] [] s t) ∧
  (∀ (k : PktIn) (x : Fin 4096) (s : State), comes k s → k.pbrId = some x → x.val ≠ fsid s.chip →
    routeOf s.chip x.val = none → k.typ = .ioNonPosted → k.answers = none →
    ∃ t, exec (.packetArrival k [] Ecc.none) s = .next t ∧ errBit t.chip .bnd 0 1 ∧ getF t.chip BND_MISS_VALID 0 = 1 ∧
      t.chip.sent = .host k.ingress.val k.id .ur :: s.chip.sent ∧
      changesOnly [.xbr, .lnk, .cnt, .flt, .sent] [at0 BND_MISS_VALID 0, at0 BND_MISS_TYPE 0, at0 BND_MISS_PORT 0,
        at0 BND_MISS_ADDR_LO_ADDR 0, at0 BND_MISS_ADDR_HI_ADDR 0, at0 (PG_ERR .bnd) 0] s t) ∧
  (∀ (k : Pkt) (e : Nat) (s : State), alone k e s →
    (∃ t, exec (.schedulerSlot []) s = .next t ∧ t.chip.xbr.pkts = [] ∧
      getF t.chip LNK_SEQ_NEXT_TX e = (getF s.chip LNK_SEQ_NEXT_TX e + 1) % 1024 ∧
      (lnkSt t.chip e).unacked.length = (lnkSt s.chip e).unacked.length + 1 ∧
      (∀ i : Fin 5, avail s.chip e i.val < 4096 → avail t.chip e i.val = avail s.chip e i.val - nth (pktNeeds s.chip k) i.val) ∧
      (t.chip.sent.drop 1) = .cell e k.id k.poisoned :: s.chip.sent ∧
      keepsParts [.fld, .lnk, .prt, .xbr, .cnt, .sent] s.chip t.chip ∧ t.recs = s.recs ∧ t.pending = s.pending) ∧
    (∃ t, exec (.schedulerSlot [{ pkt := k.id, multicast := false, cell := 0, err := .uncorrectable }]) s = .next t ∧
      t.chip.xbr.pkts = [] ∧ t.chip.xbr.lost = s.chip.xbr.lost + 1 ∧ errBit t.chip .xbrG (groupOf k.ingress) 2 ∧
      keepsParts [.fld, .lnk, .xbr, .cnt, .flt] s.chip t.chip ∧ t.recs = s.recs ∧ t.pending = s.pending)) ∧
  (∀ (k : Pkt) (s : State), pktOf s.chip k.id = some k → k.stalled = false → k.arrived < k.cells →
    k.mode = .saf ∨ k.sent = k.arrived → tmbRuns s.chip = true →
    ∃ t, exec (.stallTimerExpiry k.id) s = .next t ∧ errBit t.chip .xbrG (groupOf k.ingress) 0 ∧
      getF t.chip XBR_GP_STALL_VALID (groupOf k.ingress) = 1 ∧
      (t.chip.xbr.pkts.any fun u => u.id == k.id && u.stalled) = true ∧
      keepsParts [.fld, .xbr, .lnk, .cnt, .flt, .sent] s.chip t.chip ∧ t.recs = s.recs ∧ t.pending = s.pending) ∧
  (∀ (k : Pkt) (n : Fin 128) (s : State), pktOf s.chip k.id = some k → k.stalled = true → k.cells ≤ k.arrived + n.val →
    ∃ t, exec (.lateRemainder k.id n) s = .next t ∧ pktOf t.chip k.id = none ∧
      t.chip.lnk = (whenB (owesCredits k) (freeNeeds k.ingress [0, 0, 0, min k.lines (4 * n.val), 0]) s.chip).lnk ∧
      changesOnly [.xbr, .lnk] [] s t) ∧
  (∀ (pa : Path) (p : Port) (fr : Bool) (ct : Fin 16) (s : State), pageOpen s.chip pa .xbrG (groupOf p.val) →
    ∃ t, exec (.xbrPmodeWrite pa p fr ct) s = .next t ∧ pmodeFr t.chip p.val = fr ∧ pmodeCt t.chip p.val = ct.val ∧
      (∀ q : Port, q ≠ p → pmodeFr t.chip q.val = pmodeFr s.chip q.val ∧ pmodeCt t.chip q.val = pmodeCt s.chip q.val) ∧
      changesOnly [] ([XBR_PMODE_B0_FR, XBR_PMODE_B0_CT, XBR_PMODE_B1_FR, XBR_PMODE_B1_CT, XBR_PMODE_B2_FR,
        XBR_PMODE_B2_CT, XBR_PMODE_B3_FR, XBR_PMODE_B3_CT].map fun X => fldKey X (groupOf p.val) (p.val % 16 / 4)) s t)

/-- Requests on a pool face. For a request served at once in a window (nothing else in flight, the window not sealed):
a read of an UNPLACED tile returns zeros, of a LOST tile poison, of a RESIDENT tile is sent to its device; a write to
an ordinary or device window of a RESIDENT tile is sent to its device with its mask and data; a write to a slate
window is merged into a new slate entry and answered Cmp at once; a MemInv outside shared windows is answered Cmp,
whatever the region type. A request that no window serves, as one in a sealed window at a port that waits for Link
IDE, is a BND_MISS, and a read is answered with poison. Each frees its link credits: one REQ, or for a write DATA with
one line. (derived; R266, R267, R295, R302, R429, R477, R481, R635.) -/
def Obligations.PoolReadsAndWrites : Prop :=
  (∀ (p : Port) (dpa tag : Nat) (mv : MetaVal) (x : Window) (e : Entry) (s : State),
    served s.chip p.val dpa x = true → x.shared = false → x.rtype < 3 →
    cachedEntry s.chip (tileOfLine (lineOf x dpa)) = some e → e.state = 0 ∨ e.state = 4 →
    ∃ t, exec (.memRd p dpa mv tag Ecc.none) s = .next t ∧
      t.chip.sent = .host p.val tag (.memData 0#512 (e.state == 4) none) :: s.chip.sent ∧ t.chip.txns = [] ∧
      t.chip.lnk = (requestCredits p.val false s.chip).lnk ∧
      keepsParts [.lnk, .txns, .map, .cnt, .sent] s.chip t.chip ∧ t.recs = s.recs ∧ t.pending = s.pending) ∧
  (∀ (p : Port) (dpa tag : Nat) (mv : MetaVal) (x : Window) (e : Entry) (s : State),
    served s.chip p.val dpa x = true → x.shared = false → x.rtype < 3 → residentAt s.chip (lineOf x dpa) e →
    ∃ t, exec (.memRd p dpa mv tag Ecc.none) s = .next t ∧
      t.chip.sent = .devRd (locPort e.loc0) (s.chip.nextTxn + 1) (locTile e.loc0) (lineInTile (lineOf x dpa)) :: s.chip.sent ∧
      (t.chip.txns.map fun u => (u.tag, u.stage)) = [(tag, .device)] ∧
      t.chip.lnk = (requestCredits p.val false s.chip).lnk ∧
      keepsParts [.lnk, .txns, .map, .cnt, .sent] s.chip t.chip ∧ t.recs = s.recs ∧ t.pending = s.pending) ∧
  (∀ (p : Port) (dpa tag : Nat) (mv : MetaVal) (mask : Mask) (data : Line) (x : Window) (e : Entry) (s : State),
    served s.chip p.val dpa x = true → x.shared = false → x.rtype = 0 ∨ x.rtype = 2 →
    residentAt s.chip (lineOf x dpa) e →
    ∃ t, exec (.memWr p dpa mv tag mask data Ecc.none) s = .next t ∧
      t.chip.sent = .devWr (locPort e.loc0) (s.chip.nextTxn + 1) (locTile e.loc0) (lineInTile (lineOf x dpa)) mask data false ::
        s.chip.sent ∧
      t.chip.lnk = (requestCredits p.val true s.chip).lnk ∧
      keepsParts [.lnk, .txns, .map, .cnt, .sent] s.chip t.chip ∧ t.recs = s.recs ∧ t.pending = s.pending) ∧
  (∀ (p : Port) (dpa tag : Nat) (mv : MetaVal) (mask : Mask) (data : Line) (x : Window) (s : State),
    served s.chip p.val dpa x = true → x.shared = false → x.rtype = 1 → s.chip.pwr.warn = false →
    1 ≤ getF s.chip SLT_WAT_HIWAT p.val →
    ∃ t, exec (.memWr p dpa mv tag mask data Ecc.none) s = .next t ∧
      t.chip.sent = .host p.val tag (.cmp none) :: s.chip.sent ∧ t.chip.txns = [] ∧
      (t.chip.slt.entries.map fun u => (u.port, u.line, u.ten)) = [(p.val, lineOf x dpa, x.ten)] ∧
      (t.chip.slt.entries.map fun u => (u.mask, u.data, u.draining)) = [(mask, mergeLine 0#512 data mask, false)] ∧
      t.chip.lnk = (requestCredits p.val true s.chip).lnk ∧
      keepsParts [.lnk, .fld, .txns, .slt, .cnt, .sent] s.chip t.chip ∧ t.recs = s.recs ∧ t.pending = s.pending) ∧
  (∀ (p : Port) (dpa tag : Nat) (mv : MetaVal) (x : Window) (s : State),
    served s.chip p.val dpa x = true → x.shared = false →
    ∃ t, exec (.memInv p dpa mv tag Ecc.none) s = .next t ∧ t.chip.sent = .host p.val tag (.cmp none) :: s.chip.sent ∧
      t.chip.txns = [] ∧ t.chip.lnk = (requestCredits p.val false s.chip).lnk ∧ changesOnly [.lnk, .txns, .cnt, .sent] [] s t) ∧
  (∀ (p : Port) (dpa tag : Nat) (mv : MetaVal) (s : State),
    carriesMem s.chip p.val = true ∨ sealedHere s.chip p.val dpa = true → s.chip.idle = true →
    servedWindow s.chip p.val dpa = none →
    ∃ t, exec (.memRd p dpa mv tag Ecc.none) s = .next t ∧ errBit t.chip .bnd 0 0 ∧
      t.chip.sent = .host p.val tag (.memData 0#512 true none) :: .hostErrLogged p.val :: s.chip.sent ∧
      t.chip.lnk = (requestCredits p.val false s.chip).lnk ∧
      keepsParts [.lnk, .fld, .cnt, .flt, .sent] s.chip t.chip ∧ t.recs = s.recs ∧ t.pending = s.pending)

/-- A shared read that takes ownership, and AtomicOps. A MemRd with MetaValue A of a shared line that the roll does
not list, by a host that has not departed, leaves the line OWNED by that host alone and is answered with the granted
state; an AtomicOp that belongs to no tenancy, or is misaligned, is answered Unsupported Request and changes nothing
else but the credits it frees; one to a device window, or to a sealed one under Link IDE, is answered Completer Abort;
one to an ordinary window of a RESIDENT tile reads its line at the device first. (derived; R392, R395, R412, R413,
R415, R416.) -/
def Obligations.SharedReadsAndAtomics : Prop :=
  (∀ (p : Port) (dpa tag h : Nat) (x : Window) (e : Entry) (s : State),
    served s.chip p.val dpa x = true → x.shared = true → x.rtype < 3 → hostOf s.chip p.val = some h →
    hostGone s.chip h = false → s.chip.rol.entries = [] →
    cachedEntry s.chip (tileOfLine (lineOf x dpa)) = some e → e.state = 0 →
    ∃ t, exec (.memRd p dpa .a tag Ecc.none) s = .next t ∧
      t.chip.sent = .host p.val tag (.memData 0#512 false (some .a)) :: s.chip.sent ∧
      (rolEntry t.chip (lineOf x dpa)).map (fun r => (r.owned, r.coarse, r.hosts)) = some (true, false, [h]) ∧
      t.chip.txns = [] ∧ t.chip.lnk = (requestCredits p.val false s.chip).lnk ∧
      keepsParts [.lnk, .txns, .map, .rol, .cnt, .sent] s.chip t.chip ∧ t.recs = s.recs ∧
      t.pending = s.pending) ∧
  (∀ (p : Port) (off : Fin 1048576) (pasid : Option (Fin 1048576)) (k : AtomicKind) (w : AtomicWidth)
    (a b : BitVec 128) (tag : Nat) (s : State), carriesMem s.chip p.val = true → s.chip.idle = true →
    (tenOfTlp s.chip p.val (pasid.map (·.val))).all
      (fun t => !atomFits k w (atomicBase s.chip t + off.val)) = true →
    ∃ t, exec (.atomicOp p off pasid k w a b tag Ecc.none) s = .next t ∧ t.chip.sent = .host p.val tag .ur :: s.chip.sent ∧
      t.chip.lnk = (ioCredits p.val false s.chip).lnk ∧
      changesOnly [.lnk, .sent] [] s t) ∧
  (∀ (p : Port) (off : Fin 1048576) (pasid : Option (Fin 1048576)) (k : AtomicKind) (w : AtomicWidth)
    (a b : BitVec 128) (tag : Nat) (x : Window) (s : State),
    tenOfTlp s.chip p.val (pasid.map (·.val)) = some x.ten → atomFits k w (atomicBase s.chip x.ten + off.val) = true →
    served s.chip p.val (atomicBase s.chip x.ten + off.val) x = true → 2 ≤ x.rtype →
    ∃ t, exec (.atomicOp p off pasid k w a b tag Ecc.none) s = .next t ∧ t.chip.sent = .host p.val tag .ca :: s.chip.sent ∧
      t.chip.txns = [] ∧ t.chip.lnk = (ioCredits p.val false s.chip).lnk ∧
      changesOnly [.lnk, .txns, .cnt, .sent] [] s t) ∧
  (∀ (p : Port) (off : Fin 1048576) (pasid : Option (Fin 1048576)) (k : AtomicKind) (w : AtomicWidth)
    (a b : BitVec 128) (tag : Nat) (x : Window) (e : Entry) (s : State),
    tenOfTlp s.chip p.val (pasid.map (·.val)) = some x.ten → atomFits k w (atomicBase s.chip x.ten + off.val) = true →
    served s.chip p.val (atomicBase s.chip x.ten + off.val) x = true → x.rtype = 0 → x.shared = false →
    residentAt s.chip (lineOf x (atomicBase s.chip x.ten + off.val)) e →
    ∃ t, exec (.atomicOp p off pasid k w a b tag Ecc.none) s = .next t ∧
      t.chip.sent = .devRd (locPort e.loc0) (s.chip.nextTxn + 1) (locTile e.loc0)
        (lineInTile (lineOf x (atomicBase s.chip x.ten + off.val))) :: s.chip.sent ∧
      t.chip.lnk = (ioCredits p.val false s.chip).lnk ∧
      keepsParts [.lnk, .txns, .map, .cnt, .sent] s.chip t.chip ∧ t.recs = s.recs ∧ t.pending = s.pending)

/-- Completions of device accesses. With one host read outstanding at one location, its device's data, with the slate
bytes that the read took, answer the host; a device error, or a completion timeout, in L0 or Recovery, which raises
PRT_CPL_TMO, answers it with poison where no other location can be read. With one host write outstanding, an OK
completes it with Cmp, and an error logs an error toward the host and completes it with Cmp. The completion of a read
frees DATA credits with one line and that of a write RSP. A completion that names nothing outstanding is discarded; a
timeout of a request that belongs to no line's access raises PRT_CPL_TMO. (derived; R207, R379, R481, R631.) -/
def Obligations.DeviceAnswersReachHosts : Prop :=
  let one (u : Txn) (g : Leg) (s : State) : Prop :=
    s.chip.txns = [u] ∧ u.legs = [g] ∧ g.st = .out ∧ u.stage = .device ∧
      (u.ten.all fun x => tenGen s.chip x == u.gen) = true ∧ u.lostLink = false ∧
      u.rtype = 0 ∧ u.shared = false ∧ u.line < 2 ^ 44 ∧ u.atom = none ∧ s.chip.slt.entries = [] ∧
      s.chip.slt.lost = [] ∧ s.chip.ten.st = [] ∧ s.chip.bnd.drainOwed = [] ∧ s.chip.map.splits = [] ∧
      carePageOf s.chip g.dport = none
  (∀ (u : Txn) (g : Leg) (p : Port) (d : Line) (s : State), one u g s → u.kind = .rd → g.write = false →
    g.dport = p.val →
    ∃ t, exec (.deviceCompletion p g.dtag .ok d) s = .next t ∧
      t.chip.sent = .host u.port u.tag (.memData (mergeLine d u.overData u.overMask) false none) :: s.chip.sent ∧ t.chip.txns = [] ∧
      t.chip.lnk = (answerCredits p.val g.dtag s.chip).lnk ∧
      changesOnly [.lnk, .txns, .sent] [] s t) ∧
  (∀ (u : Txn) (g : Leg) (p : Port) (d : Line) (s : State), one u g s → u.kind = .rd → g.write = false →
    g.dport = p.val →
    u.overMask ≠ fullMask → (usableLocs s.chip (tileOfLine u.line) (entryOf s.chip (tileOfLine u.line))).all
      (fun l => l.2 == locWord g.dport g.dtile) = true →
    (∃ t, exec (.deviceCompletion p g.dtag .error d) s = .next t ∧
      t.chip.sent = .host u.port u.tag (.memData 0#512 true none) :: s.chip.sent ∧ t.chip.txns = [] ∧
      t.chip.lnk = (answerCredits p.val g.dtag s.chip).lnk ∧
      changesOnly [.lnk, .txns, .sent] [] s t) ∧
    (deviceFace s.chip p.val = true → 2 ≤ linkState s.chip p.val → linkState s.chip p.val ≤ 4 → tmbRuns s.chip = true →
      ∃ t, exec (.prtCplTmo p (some g.dtag)) s = .next t ∧ errBit t.chip .prt p.val 5 ∧
        t.chip.sent = .host u.port u.tag (.memData 0#512 true none) :: s.chip.sent ∧ t.chip.txns = [] ∧
        changesOnly [.txns, .sent, .flt] [at0 (PG_ERR .prt) p.val] s t)) ∧
  (∀ (u : Txn) (g : Leg) (p : Port) (ok : Bool) (d : Line) (s : State), one u g s → u.kind = .wr → g.write = true →
    g.slot < 2 → g.dport = p.val →
    ∃ t, exec (.deviceCompletion p g.dtag (if ok then .ok else .error) d) s = .next t ∧
      t.chip.sent = [.host u.port u.tag (.cmp none)] ++ (if ok then [] else [.hostErrLogged u.port]) ++ s.chip.sent ∧
      t.chip.txns = [] ∧ t.chip.lnk = (answerCredits p.val g.dtag s.chip).lnk ∧
      changesOnly [.lnk, .txns, .sent] [] s t) ∧
  (∀ (p : Port) (s : State), deviceFace s.chip p.val = true → 2 ≤ linkState s.chip p.val → linkState s.chip p.val ≤ 4 → tmbRuns s.chip = true →
    ∃ t, exec (.prtCplTmo p none) s = .next t ∧ errBit t.chip .prt p.val 5 ∧
      changesOnly [.flt] [at0 (PG_ERR .prt) p.val] s t) ∧
  (∀ (p : Port) (dtag : Nat) (st : DevStatus) (d : Line) (s : State), s.chip.idle = true →
    exec (.deviceCompletion p dtag st d) s = .next s)

/-- Staging, discarding and committing windows. Outside a running commit, a write to a window word by a path that may
touch it changes the staged copy alone and marks the window dirty; a discard makes every staged window equal to its
live copy; GO sets BND_COMMIT.GO and waits where no tracker is free. While GO reads 1, each of these writes is held,
in order. A write that would stage or touches a sealed window, by a path without leave, is ignored and raises
SEC_POLICY. (derived; R263, R281, R282, R283, R580.) -/
def Obligations.WindowsAreStaged : Prop :=
  (∀ (pa : Path) (w : Win) (i : Fin 16) (v : Word) (s : State), pageOpen s.chip pa .bnd 0 →
    getF s.chip BND_COMMIT_GO 0 = 0 → touchesSealed s.chip w.val i.val v.toNat = false ∨ sealPermits s.chip pa = true →
    s.chip.bnd.dirty.length < 1024 →
    ∃ t, exec (.windowWrite pa w i v) s = .next t ∧ w.val ∈ t.chip.bnd.dirty ∧
      stagedWin t.chip w.val = { setWinWord (stagedWin s.chip w.val) i.val v.toNat with ue := false } ∧
      t.chip.bnd.live = s.chip.bnd.live ∧ (∀ u : Win, u ≠ w → stagedWin t.chip u.val = stagedWin s.chip u.val) ∧
      changesOnly [.bnd] [] s t) ∧
  (∀ (pa : Path) (w : Win) (i : Fin 16) (v : Word) (s : State), pageOpen s.chip pa .bnd 0 →
    getF s.chip BND_COMMIT_GO 0 = 0 → touchesSealed s.chip w.val i.val v.toNat = true → sealPermits s.chip pa = false →
    ∃ t, exec (.windowWrite pa w i v) s = .next t ∧ errBit t.chip .sec 0 3 ∧ t.chip.bnd = s.chip.bnd ∧
      changesOnly [.cnt, .flt] [at0 (PG_ERR .sec) 0] s t) ∧
  (∀ (pa : Path) (s : State), pageOpen s.chip pa .bnd 0 → getF s.chip BND_COMMIT_GO 0 = 0 →
    (∃ t, exec (.bndDiscard pa) s = .next t ∧ t.chip.bnd.dirty = [] ∧ t.chip.bnd.live = s.chip.bnd.live ∧
      (∀ u : Win, stagedWin t.chip u.val = liveWin s.chip u.val) ∧ changesOnly [.bnd] [] s t) ∧
    (∃ t, exec (.bndCommit pa) s = .next t ∧ getF t.chip BND_COMMIT_GO 0 = 1 ∧
      changesOnly [.cnt] [at0 BND_COMMIT_GO 0] s t)) ∧
  (∀ (pa : Path) (w : Win) (i : Fin 16) (v : Word) (s : State), pageOpen s.chip pa .bnd 0 →
    getF s.chip BND_COMMIT_GO 0 = 1 →
    (∃ t, exec (.windowWrite pa w i v) s = .next t ∧
      t.chip.bnd = { s.chip.bnd with held := s.chip.bnd.held ++ [.window pa w.val i.val v.toNat] } ∧ changesOnly [.bnd] [] s t) ∧
    (∃ t, exec (.bndDiscard pa) s = .next t ∧
      t.chip.bnd = { s.chip.bnd with held := s.chip.bnd.held ++ [.discard] } ∧ changesOnly [.bnd] [] s t) ∧
    (∃ t, exec (.bndCommit pa) s = .next t ∧
      t.chip.bnd = { s.chip.bnd with held := s.chip.bnd.held ++ [.go] } ∧ changesOnly [.bnd] [] s t))

/-- A commit applies every dirty window or none. With a tracker free and no write held, a commit whose windows pass
every check makes each of them live at once, raises the epoch by 1, clears the dirty marks, reads CODE 1 with GO 0 and
raises BND_COMMITTED; windows not staged keep their live copy. One that fails reads the code of the first dirty
window, in ascending order, that fails, raises BND_COMMIT_REFUSED, and no live window, no dirty mark and not the epoch
change. With no tracker free COMMIT_WAIT ends it with code 16. The prefects then act on what the commit left them,
which is nothing where no placement, TWIN change, misplaced tile or heat move waits. (derived; R264, R282, R284, R285,
R475.) -/
def Obligations.CommitsApplyAtOnce : Prop :=
  let seen (ps : List MovePick) (u : State) : State := onChip u (prefectsSee ps)
  (∀ (ps : List MovePick) (s : State), getF s.chip BND_COMMIT_GO 0 = 1 → trackerFree s.chip = true → commitFailure s.chip = none →
    s.chip.bnd.held = [] → s.chip.bnd.dirty.Nodup →
    ∃ u, exec (.commitApply false ps) s = .next (seen ps u) ∧ epochNow u.chip = (epochNow s.chip + 1) % 2 ^ 32 ∧ u.chip.bnd.dirty = [] ∧
      (∀ w ∈ s.chip.bnd.dirty,
        liveWin u.chip w = goesLive ((epochNow s.chip + 1) % 2 ^ 32) (liveWin s.chip w) (stagedWin s.chip w)) ∧
      (∀ w : Win, w.val ∉ s.chip.bnd.dirty → liveWin u.chip w.val = liveWin s.chip w.val) ∧
      getF u.chip BND_STATUS_CODE 0 = 1 ∧ getF u.chip BND_COMMIT_GO 0 = 0 ∧ evtBit u.chip .bnd 0 0 ∧
      changesOnly [.bnd, .mrk, .cnt, .sent] [at0 BND_EPOCH_EPOCH 0, at0 BND_STATUS_CODE 0, at0 BND_STATUS_DETAIL 0,
        at0 BND_STATUS_WINDOW 0, at0 BND_COMMIT_GO 0, at0 (PG_EVT_PEND .bnd) 0] s u ∧
      (prefectWork u.chip = false → seen ps u = u)) ∧
  (∀ (w code detail : Nat) (ps : List MovePick) (s : State), getF s.chip BND_COMMIT_GO 0 = 1 → trackerFree s.chip = true →
    commitFailure s.chip = some (w, code, detail) → s.chip.bnd.held = [] →
    ∃ u, exec (.commitApply false ps) s = .next (seen ps u) ∧ u.chip.bnd = s.chip.bnd ∧ epochNow u.chip = epochNow s.chip ∧
      getF u.chip BND_STATUS_CODE 0 = code ∧ getF u.chip BND_COMMIT_GO 0 = 0 ∧ errBit u.chip .bnd 0 2 ∧
      evtBit u.chip .bnd 0 0 ∧
      changesOnly [.cnt, .flt] [at0 BND_STATUS_CODE 0, at0 BND_STATUS_DETAIL 0, at0 BND_STATUS_WINDOW 0,
        at0 BND_COMMIT_GO 0, at0 (PG_ERR .bnd) 0, at0 (PG_EVT_PEND .bnd) 0] s u) ∧
  (∀ s : State, getF s.chip BND_COMMIT_GO 0 = 1 → trackerFree s.chip = false → tmbRuns s.chip = true →
    s.chip.bnd.held = [] →
    ∃ t, exec (.commitWaitTimeout false) s = .next t ∧ t.chip.bnd = s.chip.bnd ∧ getF t.chip BND_STATUS_CODE 0 = 16 ∧
      getF t.chip BND_COMMIT_GO 0 = 0 ∧ errBit t.chip .bnd 0 2 ∧
      changesOnly [.cnt, .flt] [at0 BND_STATUS_CODE 0, at0 BND_STATUS_DETAIL 0, at0 BND_STATUS_WINDOW 0,
        at0 BND_COMMIT_GO 0, at0 (PG_ERR .bnd) 0, at0 (PG_EVT_PEND .bnd) 0] s t)

/-- A host's Dynamic Capacity commands, its event log and epochs. Over a pool face in L0 none of whose commands waits:
with a tracker free each offered extent becomes ACCEPTED or REJECTED as the response lists it, an accepted one is
RELEASED by a release, both one epoch on; with none free the command waits. The oldest command that waits is applied
once a tracker is free, and is answered Busy with nothing else changed when COMMIT_WAIT ends with none free. The
extent list names the ACCEPTED extents; cleared records leave the log's front; a held record is placed once the log
has room; a drain target raises BND_DRAINED at once if OLDEST has reached it, else it is owed beside those owed
before, and raised then. A host programs its HDM decoders 0 to 3. (One waiting command a face is the model's reading,
log entry 32.) (derived; R205, R265, R271, R272, R274, R284, R634.) -/
def Obligations.DynamicCapacityAndEpochs : Prop :=
  let asks (p : Nat) (s : State) : Prop :=
    hostReaches s.chip p = true ∧ (s.chip.bnd.dcWait.any fun y => dcPort y == p) = false
  let next (s : State) : Nat := (epochNow s.chip + 1) % 2 ^ 32
  let answered (p : Nat) (acc : List Win) (s t : State) : Prop :=
    epochNow t.chip = next s ∧ t.chip.sent = .cmdStatus p false :: s.chip.sent ∧
      (∀ w ∈ offered s.chip p, (liveWin t.chip w).state = (if (acc.map (·.val)).contains w then 1 else 2) ∧
        (liveWin t.chip w).lepoch = next s) ∧
      changesOnly [.bnd, .sent] [at0 (PG_EVT_PEND .bnd) 0, at0 BND_EPOCH_EPOCH 0] s t
  (∀ (p : Port) (acc : List Win) (s : State), asks p.val s →
    (trackerFree s.chip = true → (offered s.chip p.val).Nodup →
      ∃ t, exec (.dcAddResponse p acc) s = .next t ∧ answered p.val acc s t) ∧
    (trackerFree s.chip = false → ∃ t, exec (.dcAddResponse p acc) s = .next t ∧
      t.chip.bnd = { s.chip.bnd with dcWait := s.chip.bnd.dcWait ++ [.add p.val (acc.map (·.val))] } ∧
      changesOnly [.bnd, .cnt] [] s t)) ∧
  (∀ (p : Port) (w : Win) (s : State), asks p.val s → w.val ∈ acceptedExtents s.chip p.val →
    (trackerFree s.chip = true → ∃ t, exec (.dcRelease p w) s = .next t ∧ epochNow t.chip = next s ∧
      liveWin t.chip w.val = { liveWin s.chip w.val with state := 3, lepoch := next s } ∧
      evtBit t.chip .bnd 0 4 ∧ t.chip.sent = .cmdStatus p.val false :: s.chip.sent ∧
      changesOnly [.bnd, .sent] [at0 (PG_EVT_PEND .bnd) 0, at0 BND_EPOCH_EPOCH 0] s t) ∧
    (trackerFree s.chip = false → ∃ t, exec (.dcRelease p w) s = .next t ∧
      t.chip.bnd = { s.chip.bnd with dcWait := s.chip.bnd.dcWait ++ [.release p.val w.val] } ∧
      changesOnly [.bnd, .cnt] [] s t)) ∧
  (∀ (p : Port) (acc : List Win) (l : List DcCmd) (ps : List MovePick) (s : State), s.chip.bnd.dcWait = .add p.val (acc.map (·.val)) :: l →
    (trackerFree s.chip = true → (offered s.chip p.val).Nodup →
      ∃ u, exec (.commitApply true ps) s = .next (onChip u (prefectsSee ps)) ∧ u.chip.bnd.dcWait = l ∧ answered p.val acc s u) ∧
    (trackerFree s.chip = false → tmbRuns s.chip = true →
      ∃ t, exec (.commitWaitTimeout true) s = .next t ∧ t.chip.sent = .cmdStatus p.val true :: s.chip.sent ∧
        t.chip.bnd = { s.chip.bnd with dcWait := l } ∧ changesOnly [.bnd, .sent] [] s t)) ∧
  (∀ (p : Port) (s : State), hostReaches s.chip p.val = true →
    exec (.dcGetExtentList p) s = .next (onChip s (send (.extents p.val (acceptedExtents s.chip p.val))))) ∧
  (∀ (p : Port) (n : Nat) (s : State), hostReaches s.chip p.val = true →
    ∃ t, exec (.clearEventRecords p n) s = .next t ∧
      dcLogOf t.chip p.val = { dcLogOf s.chip p.val with recs := (dcLogOf s.chip p.val).recs.drop n } ∧
      changesOnly [.bnd] [] s t) ∧
  (∀ (p : Port) (r : DcRec) (l : List DcRec) (s : State), (dcLogOf s.chip p.val).held = r :: l →
    ∃ t, exec (.dcEventRecordPlace p) s = .next t ∧
      ((dcLogOf s.chip p.val).recs.length < Config.dcLogRoom →
        dcLogOf t.chip p.val = { recs := (dcLogOf s.chip p.val).recs ++ [r], held := l } ∧
          t.chip.sent = .hostEvent p.val r :: s.chip.sent) ∧
      (Config.dcLogRoom ≤ (dcLogOf s.chip p.val).recs.length → t = s) ∧ changesOnly [.bnd, .sent] [] s t) ∧
  (∀ (pa : Path) (v : Word) (s : State), pageOpen s.chip pa .bnd 0 →
    ∃ t, exec (.bndDrainTgtWrite pa v) s = .next t ∧ getF t.chip BND_DRAIN_TGT_TGT 0 = v.toNat ∧
      (epochReached s.chip v.toNat = true → evtBit t.chip .bnd 0 1) ∧
      t.chip.bnd.drainOwed = (s.chip.bnd.drainOwed ++ [v.toNat]).filter (fun e => !epochReached s.chip e) ∧
      changesOnly [.bnd] [at0 BND_DRAIN_TGT_TGT 0, at0 (PG_EVT_PEND .bnd) 0] s t) ∧
  (∀ s : State, s.chip.bnd.drainOwed.any (epochReached s.chip) = true →
    ∃ t, exec .bndDrained s = .next t ∧ evtBit t.chip .bnd 0 1 ∧
      t.chip.bnd = { s.chip.bnd with drainOwed := s.chip.bnd.drainOwed.filter fun e => !epochReached s.chip e } ∧ changesOnly [.bnd] [at0 (PG_EVT_PEND .bnd) 0] s t) ∧
  (∀ (p : Port) (i hb n db : Nat) (on : Bool) (s : State), hostReaches s.chip p.val = true → i < 4 →
    ∃ t, exec (.hdmDecoderProgram p i hb n db on) s = .next t ∧
      kvFind t.chip.bnd.hdm (p.val * 4 + i) = some { hostBase := hb, size := n, dpaBase := db, committed := on } ∧
      changesOnly [.bnd] [] s t)

/-- The commands of the tile map. On a free interface, with nothing in flight, both copies live and not both copy
writes failing: PLACE makes an UNPLACED tile RESIDENT at its locations; MOVE makes a RESIDENT single tile MOVING, or
REWETTING for reason 2, toward A and queues it for the rake; FREE returns a RESIDENT single tile to UNPLACED and
releases its location; ABORT returns a moving tile to the state before and releases its destination; SETLOST makes it
LOST; RETIRE makes it RETIRED and releases; READ shows the entry's words; each ends with STATUS 1 and GO 0. A command
with a reserved OP ends with STATUS 2 and changes no entry, and PLACE of a RESIDENT tile with STATUS 5. (derived;
R297, R299, R300, R304, R306, R636.) -/
def Obligations.MapCommands : Prop :=
  let ready (i : MapIface) (cw : CopyWrites) (e : Entry) (s : State) : Prop :=
    ifaceFree s.chip (ifaceNum i) = true ∧ s.chip.idle = true ∧ s.chip.mapClear = true ∧ mapSingle s.chip = 0 ∧
      s.chip.rak.waiting = [] ∧ s.chip.map.rebuilding = false ∧ (cw.aFail && cw.bFail) = false ∧
      cmdTile s.chip (ifaceNum i) < poolTiles s.chip ∧ cachedEntry s.chip (cmdTile s.chip (ifaceNum i)) = some e ∧
      e.twin = false ∧ s.chip.map.ring.length + 2 ≤ 4096
  let ended (i : MapIface) (st : Nat) (n : Entry) (s t : State) : Prop :=
    getI t.chip (ifaceNum i) MAP_CMD_STATUS PFX_CMD_STATUS = st ∧ cmdGo t.chip (ifaceNum i) = false ∧
      cachedEntry t.chip (cmdTile s.chip (ifaceNum i)) = some n ∧
      keepsParts [.fld, .map, .media, .rak, .slt, .flt, .cnt] s.chip t.chip ∧ t.recs = s.recs ∧ t.pending = s.pending
  (∀ (i : MapIface) (cw : CopyWrites) (e : Entry) (s : State), ready i cw e s → e.state = 0 →
    placeRefusal s.chip (ifaceNum i) = 1 →
    ∃ t, exec (.mapPlace i cw) s = .next t ∧
      ended i 1 { Entry.zero with state := 1, twin := cmdTwin s.chip (ifaceNum i), loc0 := cmdA s.chip (ifaceNum i),
                                  loc1 := if cmdTwin s.chip (ifaceNum i) then cmdB s.chip (ifaceNum i) else 0 } s t) ∧
  (∀ (i : MapIface) (cw : CopyWrites) (e : Entry) (s : State), ready i cw e s → e.state = 1 →
    s.chip.rak.pending = [] → cmdMslot s.chip (ifaceNum i) = false → 0 < cmdReason s.chip (ifaceNum i) →
    cmdReason s.chip (ifaceNum i) < 6 → locValid s.chip (cmdA s.chip (ifaceNum i)) = true →
    sourceReach s.chip e = true →
    ∃ t, exec (.mapMove i cw) s = .next t ∧ t.chip.rak.pending = [cmdTile s.chip (ifaceNum i)] ∧
      ended i 1 { e with state := if cmdReason s.chip (ifaceNum i) = 2 then 3 else 2,
                         dest := cmdA s.chip (ifaceNum i), mslot := false,
                         reason := cmdReason s.chip (ifaceNum i) } s t) ∧
  (∀ (i : MapIface) (cw : CopyWrites) (e : Entry) (s : State), ready i cw e s → e.state = 1 →
    ∃ t, exec (.mapFree i cw) s = .next t ∧
      t.chip.map.ring = s.chip.map.ring ++ [{ kind := 2, tile := cmdTile s.chip (ifaceNum i), loc := e.loc0 }] ∧
      ended i 1 { e with state := 0, reason := 0, flips := (e.flips + 1) % 16, loc0 := 0, loc1 := 0 } s t) ∧
  (∀ (i : MapIface) (cw : CopyWrites) (e : Entry) (s : State), ready i cw e s → e.state = 2 →
    s.chip.rak.pending = [cmdTile s.chip (ifaceNum i)] →
    ∃ t, exec (.mapAbort i cw) s = .next t ∧ t.chip.rak.pending = [] ∧
      t.chip.map.ring = s.chip.map.ring ++ [{ kind := 2, tile := cmdTile s.chip (ifaceNum i), loc := e.dest }] ∧
      ended i 1 { e with state := beforeState s.chip (cmdTile s.chip (ifaceNum i)), dest := 0, mslot := false,
                         reason := 0 } s t) ∧
  (∀ (i : MapIface) (cw : CopyWrites) (e : Entry) (s : State), ready i cw e s → e.state = 1 →
    (∃ t, exec (.mapSetlost i cw) s = .next t ∧
      ended i 1 { e with state := 4, dest := 0, mslot := false, reason := 0 } s t) ∧
    (∃ t, exec (.mapRetire i cw) s = .next t ∧
      t.chip.map.ring = s.chip.map.ring ++ [{ kind := 2, tile := cmdTile s.chip (ifaceNum i), loc := e.loc0 }] ∧
      ended i 1 { e with state := 5, loc0 := 0, loc1 := 0, dest := 0, mslot := false, reason := 0 } s t) ∧
    (∃ t, exec (.mapPlace i cw) s = .next t ∧ ended i 5 e s t)) ∧
  (∀ (i : MapIface) (rd : CopyReads) (e : Entry) (s : State), ready i noWrites e s →
    (∃ t, exec (.mapRead i rd) s = .next t ∧ ended i 1 e s t ∧
      (∀ k : Fin 4, (match i with
        | .software => getFi t.chip MAP_CMD_E_WORD 0 k.val
        | .form f => getFi t.chip PFX_CMD_E_WORD f.val k.val) = entryWord e k.val % 2 ^ 32)) ∧
    (∃ t, exec (.mapCmdBadOp i) s = .next t ∧ ended i 2 e s t))

/-- Flips, the stored copies, RUN, INIT, scrub and rebuild. A move whose lines are all copied flips: the destination
becomes its location, the old one is released, its slot is free (nothing else in flight). An entry that neither copy
holds is written again until a write succeeds. RUN with every check passed and equal generations starts MAP on both
copies, and with a failing check RSTATUS shows the first; INIT with every check passed runs, and its end leaves both
copies all zeros under headers of one new generation. A line bad at copy A is rewritten from copy B with MAP_CE. A
rebuild begins at the first line of one copy; its end copies every line not copied yet from the survivor, which it
leaves as it was, writes headers of one new generation and SINGLE 0. (derived; R292, R304, R305, R306, R308, R310,
R318.) -/
def Obligations.MapFlipsAndCopies : Prop :=
  (∀ (u : Tile) (cw : CopyWrites) (e : Entry) (k : Nat) (r : RakSt) (s : State), s.chip.idle = true →
    mapSingle s.chip = 0 → (cw.aFail && cw.bFail) = false → s.chip.map.rebuilding = false → s.chip.rak.waiting = [] →
    s.chip.rak.slots = [(k, r)] → flipReady s.chip u.val = some (k, r) → s.chip.rak.pending = [u.val] →
    cachedEntry s.chip u.val = some e → e.state = 2 → e.twin = false → e.mslot = false → e.reason = 1 →
    s.chip.map.splits = [] → s.chip.mrk.secondMove = [] → prefectWork s.chip = false → s.chip.map.ring.length + 1 ≤ 4096 →
    ∃ t, exec (.mapFlip u cw) s = .next t ∧
      cachedEntry t.chip u.val = some { e with state := 1, reason := 0,
                                               flips := (e.flips + 1) % 16, loc0 := e.dest } ∧
      t.chip.map.ring = s.chip.map.ring ++ [{ kind := 2, tile := u.val, loc := e.loc0 }] ∧ t.chip.rak.slots = [] ∧
      t.chip.rak.pending = [] ∧ keepsParts [.fld, .map, .media, .rak, .cnt, .flt] s.chip t.chip ∧ t.recs = s.recs ∧
      t.pending = s.pending) ∧
  (∀ (u : Tile) (cw : CopyWrites) (x : CacheLine) (s : State), kvFind s.chip.map.cache (mapLineOf u.val) = some x →
    x.unwritten.contains u.val = true → tmbRuns s.chip = true → mapSingle s.chip = 0 →
    (cw.aFail && cw.bFail) = false →
    ∃ t, exec (.mapAbortRewrite u cw) s = .next t ∧
      (kvFind t.chip.map.cache (mapLineOf u.val)).map (·.unwritten) = some (without x.unwritten u.val) ∧
      (cw.aFail = false → storedOf t.chip 0 u.val = entryOf s.chip u.val) ∧
      (cw.bFail = false → storedOf t.chip 1 u.val = entryOf s.chip u.val) ∧
      changesOnly [.map, .media, .flt] [at0 (PG_ERR .map) 0] s t) ∧
  (∀ (pa : Path) (g : Nat) (s : State), pageOpen s.chip pa .map 0 → getF s.chip MAP_CTRL_RUN 0 = 0 →
    (mapCheck s.chip = 0 → copyGen s.chip 0 = some g → copyGen s.chip 1 = some g → copyReach s.chip 0 = true →
      copyReach s.chip 1 = true →
      ∃ t, exec (.mapRun pa) s = .next t ∧ mapRunning t.chip = true ∧ mapSingle t.chip = mapSingle s.chip ∧
        getF t.chip MAP_STAT_RSTATUS 0 = 1 ∧ getF t.chip MAP_CTRL_RUN 0 = 1 ∧
        changesOnly [.map] [at0 MAP_CTRL_RUN 0, at0 MAP_STAT_RUNNING 0, at0 MAP_STAT_RSTATUS 0, at0 MAP_STAT_OSCAN 0] s t) ∧
    (mapCheck s.chip ≠ 0 → ∃ t, exec (.mapRun pa) s = .next t ∧ getF t.chip MAP_STAT_RSTATUS 0 = mapCheck s.chip ∧
      mapRunning t.chip = mapRunning s.chip ∧ changesOnly [] [at0 MAP_STAT_RSTATUS 0] s t) ∧
    (mapCheck s.chip = 0 → ∃ t, exec (.mapInit pa) s = .next t ∧ getF t.chip MAP_CTRL_INIT 0 = 1 ∧
      changesOnly [] [at0 MAP_CTRL_INIT 0] s t)) ∧
  (∀ s : State, getF s.chip MAP_CTRL_INIT 0 = 1 →
    ∃ t, exec .mapInitDone s = .next t ∧ getF t.chip MAP_CTRL_INIT 0 = 0 ∧
      (∀ (i : Fin 2) (u : Tile), storedOf t.chip i.val u.val = Entry.zero) ∧
      (mapCheck s.chip = 0 → ∀ i : Fin 2, copyGen t.chip i.val = some (nextGen s.chip)) ∧ evtBit t.chip .map 0 2 ∧
      changesOnly [.media] [at0 MAP_CTRL_INIT 0, at0 (PG_EVT_PEND .map) 0] s t) ∧
  (∀ (l : Nat) (s : State), mapRunning s.chip = true → mapSingle s.chip = 0 → mapCheck s.chip = 0 →
    ∃ t, exec (.mapScrub [l] []) s = .next t ∧ errBit t.chip .map 0 1 ∧
      (∀ j : Fin 4, storedOf t.chip 0 (4 * l + j.val) = storedOf s.chip 1 (4 * l + j.val)) ∧
      changesOnly [.media, .flt] [at0 (PG_ERR .map) 0] s t) ∧
  (∀ (pa : Path) (s : State), pageOpen s.chip pa .map 0 → mapRunning s.chip = true →
    mapSingle s.chip = 1 ∨ mapSingle s.chip = 2 → s.chip.map.rebuilding = false →
    ∃ t, exec (.mapRebuild pa) s = .next t ∧ t.chip.map = { s.chip.map with rebuilding := true, rebuilt := 0 } ∧
      getF t.chip MAP_CTRL_REBUILD 0 = 1 ∧
      changesOnly [.map] [at0 MAP_CTRL_REBUILD 0] s t) ∧
  (∀ s : State, s.chip.map.rebuilding = true → canRebuild s.chip = true → mapSingle s.chip = 1 ∨ mapSingle s.chip = 2 →
    ∃ t, exec .mapRebuilt s = .next t ∧ mapSingle t.chip = 0 ∧ t.chip.map.rebuilding = false ∧ evtBit t.chip .map 0 0 ∧
      (∀ u : Tile, u.val < poolTiles s.chip →
        storedOf t.chip (1 - lostCopy s.chip) u.val = storedOf s.chip (1 - lostCopy s.chip) u.val ∧
        storedOf t.chip (lostCopy s.chip) u.val =
          storedOf s.chip (if mapLineOf u.val < s.chip.map.rebuilt then lostCopy s.chip else 1 - lostCopy s.chip) u.val) ∧
      (∀ i : Fin 2, copyGen t.chip i.val = some ((copyGen s.chip (1 - lostCopy s.chip)).getD 0 + 1)) ∧
      changesOnly [.map, .media] [at0 MAP_CTRL_REBUILD 0, at0 MAP_STAT_SINGLE 0, at0 (PG_EVT_PEND .map) 0] s t)

/-- Misses, held writes, the request ring and orphans. A miss fetch that a read waits for puts the line in the cache
from the copy that returns it, and the read goes on: zeros from an UNPLACED tile, poison from a LOST one, a device
read of a RESIDENT one (nothing else in flight). Where neither copy returns the line its entries are unreadable,
MAP_ENTRY_UE is raised and the read returns poison. When PLACE_WAIT expires the held first write of the tile fails
with an error logged toward its host, MAP_PLACE_TIMEOUT is raised and the tile holds no write any more. A read of
MAP_RING takes the oldest item and returns its word, 0 from an empty ring; a PLACE item that the prefects take so
places its tile where they choose, if the choice fits. The first work that waits goes on when the ring has room: an
item enters the ring, a command, flip or abort runs on. The end of the orphan scan clears OSCAN and posts one ORPHAN
item for each moving tile that no engine holds. (derived; R307, R309, R311, R314, R315, R334.) -/
def Obligations.MapMissesAndRing : Prop :=
  let alone (u : Txn) (s : State) : Prop :=
    s.chip.txns = [u] ∧ u.rtype = 0 ∧ u.shared = false ∧ u.atom = none ∧ u.lostLink = false ∧ u.ecc = Ecc.none ∧
      u.line < 2 ^ 44 ∧ (u.ten.all fun x => tenGen s.chip x == u.gen) = true ∧ s.chip.slt.entries = [] ∧
      s.chip.slt.lost = [] ∧ s.chip.ten.st = [] ∧ s.chip.bnd.drainOwed = [] ∧ mapRunning s.chip = true ∧
      s.chip.map.unreadable = []
  let misses (u : Txn) (l : Nat) (s : State) : Prop :=
    alone u s ∧ u.kind = .rd ∧ u.stage = .mapMiss ∧ u.marked = true ∧ u.overMask = 0 ∧ mapSingle s.chip ≠ 3 ∧
      s.chip.map.placing = [] ∧ s.chip.map.cache = [] ∧ getF s.chip MAP_STAT_OSCAN 0 = 0 ∧ l = mapLineOf (tileOfLine u.line)
  let filled (u : Txn) (l : Nat) (rd : CopyReads) (i : Nat) (e : Entry) (s : State) : Prop :=
    misses u l s ∧ fetchCopy s.chip rd = some i ∧ (∀ j : Fin 4, (storedOf s.chip i (4 * l + j.val)).state < 6) ∧
      e = storedOf s.chip i (tileOfLine u.line)
  let lineIn (l i : Nat) (s t : State) : Prop :=
    (kvFind t.chip.map.cache l).map (·.e) = some ((List.range 4).map fun j => storedOf s.chip i (4 * l + j))
  let found (bad : List Nat) (s : State) : List Nat :=
    (listedTiles (badLines bad s.chip)).filter (orphanTile (badLines bad s.chip))
  let used : List Nat := (List.range 4).map (fldKey MRK_PAN_USED_TILES 0)
  (∀ (u : Txn) (l i : Nat) (rd : CopyReads) (e : Entry) (s : State), filled u l rd i e s → e.state = 0 ∨ e.state = 4 →
    ∃ t, exec (.mapMissFill l rd) s = .next t ∧ lineIn l i s t ∧
      t.chip.sent = .host u.port u.tag (.memData 0#512 (e.state == 4) none) :: s.chip.sent ∧ t.chip.txns = [] ∧
      changesOnly [.map, .txns, .sent, .cnt] [] s t) ∧
  (∀ (u : Txn) (l i : Nat) (rd : CopyReads) (e : Entry) (s : State), filled u l rd i e s → e.state = 1 → e.twin = false →
    usableLocs s.chip (tileOfLine u.line) e = [(0, e.loc0)] →
    ∃ t, exec (.mapMissFill l rd) s = .next t ∧ lineIn l i s t ∧
      t.chip.sent = .devRd (locPort e.loc0) s.chip.nextTxn (locTile e.loc0) (lineInTile u.line) :: s.chip.sent ∧
      (t.chip.txns.map fun x => (x.tag, x.stage)) = [(u.tag, .device)] ∧
      changesOnly [.map, .txns, .sent, .cnt] [] s t) ∧
  (∀ (u : Txn) (l : Nat) (rd : CopyReads) (s : State), misses u l s → fetchCopy s.chip rd = none →
    ∃ t, exec (.mapMissFill l rd) s = .next t ∧
      t.chip.sent = .host u.port u.tag (.memData 0#512 true none) :: s.chip.sent ∧ t.chip.txns = [] ∧
      (∀ j : Fin 4, 4 * l + j.val ∈ t.chip.map.unreadable) ∧ errBit t.chip .map 0 4 ∧
      changesOnly [.map, .txns, .sent, .cnt, .flt]
        [at0 (PG_ERR .map) 0, at0 MAP_ERR_TILE_VALID 0, at0 MAP_ERR_TILE_TILE 0] s t) ∧
  (∀ (u : Txn) (n : Tile) (s : State), alone u s → u.kind = .wr → u.stage = .placeHold → n.val = tileOfLine u.line →
    s.chip.map.placing.contains n.val = true → tmbRuns s.chip = true →
    ∃ t, exec (.mapPlaceTimeout n) s = .next t ∧ errBit t.chip .map 0 6 ∧
      t.chip.map = { s.chip.map with placing := without s.chip.map.placing n.val } ∧ t.chip.txns = [] ∧
      t.chip.sent = .host u.port u.tag (.cmp none) :: .hostErrLogged u.port :: s.chip.sent ∧
      changesOnly [.map, .txns, .sent, .flt] [at0 (PG_ERR .map) 0] s t) ∧
  (∀ (pa : Path) (i : RingItem) (r : List RingItem) (s : State), pageOpen s.chip pa .map 0 →
    (s.chip.map.ring = i :: r → ∃ t, exec (.mapRingRead pa none) s = .next t ∧
      t.chip.sent = .pathRead pa (ringWord i) :: s.chip.sent ∧ t.chip.map = { s.chip.map with ring := r } ∧
      (2 ≤ i.kind → getF t.chip MAP_RING_LOC_LOC 0 = i.loc % 2 ^ 32) ∧
      changesOnly [.map, .sent] (at0 MAP_RING_LOC_LOC 0 :: used) s t) ∧
    (∀ ch : Option PlaceChoice, s.chip.map.ring = [] → ∃ t, exec (.mapRingRead pa ch) s = .next t ∧
      t.chip.sent = .pathRead pa 0 :: s.chip.sent ∧ changesOnly [.sent] [] s t)) ∧
  (∀ (pa : Path) (i : RingItem) (ch : PlaceChoice) (s : State), pageOpen s.chip pa .map 0 → prefectsRun s.chip = true →
    s.chip.map.ring = [i] → i.kind = 0 → i.tile < poolTiles s.chip → cachedEntry s.chip i.tile = some Entry.zero →
    placeFits s.chip i.tile ch = true → locValid s.chip (wordOf ch.a) = true → wantsTwin s.chip i.tile = false →
    ifaceFree s.chip (1 + formOf i.tile) = true → s.chip.idle = true → s.chip.mapClear = true → mapSingle s.chip = 0 →
    s.chip.rak.waiting = [] → s.chip.map.rebuilding = false → (ch.cw.aFail && ch.cw.bFail) = false →
    prefectWork s.chip = false →
    ∃ t, exec (.mapRingRead pa (some ch)) s = .next t ∧ t.chip.sent = .pathRead pa (ringWord i) :: s.chip.sent ∧
      t.chip.map.ring = [] ∧ cachedEntry t.chip i.tile = some { Entry.zero with state := 1, loc0 := wordOf ch.a } ∧
      keepsParts [.fld, .map, .media, .cnt, .flt, .sent] s.chip t.chip ∧ t.recs = s.recs ∧ t.pending = s.pending) ∧
  (∀ (r : List RingWait) (s : State),
    (∀ i : RingItem, s.chip.map.waiting = .item i :: r → s.chip.map.ring.length < 4096 →
      ∃ t, exec .ringItemPlace s = .next t ∧
        t.chip.map = { s.chip.map with ring := s.chip.map.ring ++ [i], waiting := r } ∧
        (s.chip.map.ring = [] → evtBit t.chip .map 0 1) ∧ changesOnly [.map] (at0 (PG_EVT_PEND .map) 0 :: used) s t) ∧
    (∀ i : RingItem, s.chip.map.waiting = .item i :: r → 4096 ≤ s.chip.map.ring.length →
      exec .ringItemPlace s = .next s) ∧
    (∀ (i : Nat) (cw : CopyWrites), s.chip.map.waiting = .command i cw :: r → exec .ringItemPlace s = .next (onChip s
      fun c => moveEnded (decideCmd i cw true { c with map := { c.map with waiting := r } }))) ∧
    (∀ (n : Nat) (cw : CopyWrites), s.chip.map.waiting = .abort n cw :: r → exec .ringItemPlace s = .next (onChip s
      fun c => moveEnded (askAbort n cw true { c with map := { c.map with waiting := r } })))) ∧
  (∀ (bad : List Nat) (s : State), getF s.chip MAP_STAT_OSCAN 0 = 1 →
    (listedTiles (badLines bad s.chip)).Nodup → s.chip.map.waiting = [] →
    s.chip.map.ring.length + (found bad s).length ≤ 4096 →
    ∃ t, exec (.orphanScanDone bad) s = .next t ∧ getF t.chip MAP_STAT_OSCAN 0 = 0 ∧
      t.chip.map.ring = s.chip.map.ring ++ (found bad s).map (fun u => { kind := 1, tile := u, loc := 0 }) ∧
      getF t.chip MAP_STAT_ORPHANS 0 =
        (if found bad s = [] then getF s.chip MAP_STAT_ORPHANS 0
         else satAdd MAP_STAT_ORPHANS.w (getF s.chip MAP_STAT_ORPHANS 0) (found bad s).length) ∧
      (∀ u ∈ found bad s, u ∈ t.chip.map.orphaned) ∧
      changesOnly [.map, .flt] [at0 MAP_STAT_OSCAN 0, at0 MAP_STAT_ORPHANS 0, at0 (PG_EVT_PEND .map) 0,
        at0 (PG_ERR .map) 0, at0 MAP_ERR_TILE_VALID 0, at0 MAP_ERR_TILE_TILE 0] s t)

/-- Terms, the sweep and its heat moves. EN of MRK_CTRL is as written and terms run by it. The end of a term counts it
in MRK_TERMNO, raises MRK_TERM_END and starts the sweep, which takes the marks of a RESIDENT tile (one listed tile, no
clamp) and puts its candidate record into the ring of its form; while a sweep runs, the end is deferred with
MRK_SWEEP_LATE. The end of the sweep shows its duration and counts, raises MRK_SWEEP_DONE and keeps the histogram;
with the prefects running and one confirmed candidate that they pick a device tile for, within MAXMOVES, by the
CONFIRM that stood when the sweep began, the tile becomes MOVING toward it with REASON HEAT and the rings are empty.
(derived; R324, R325, R326, R327, R329, R330, R332.) -/
def Obligations.MarksAndSweeps : Prop :=
  (∀ (pa : Path) (on : Bool) (s : State), pageOpen s.chip pa .mrk 0 →
    ∃ t, exec (.mrkEnable pa on) s = .next t ∧ getF t.chip MRK_CTRL_EN 0 = b2n on ∧
      t.chip.mrk = { s.chip.mrk with termRuns := on, deferred := s.chip.mrk.deferred && on } ∧
      changesOnly [.mrk] [at0 MRK_CTRL_EN 0] s t) ∧
  (∀ (u : Nat) (e : Entry) (d : Bool) (s : State), s.chip.mrk.termRuns = true → tmbRuns s.chip = true →
    s.chip.mrk.deferred = false → s.chip.mrk.sweeping = false → mapRunning s.chip = true → mapSingle s.chip = 0 →
    (List.range 4).any (clamped s.chip) = false → listedTiles s.chip = [u] → s.chip.map.unreadable = [] →
    cachedEntry s.chip u = some e → e.state = 1 → candDir s.chip e = some d →
    (kvGet [] s.chip.mrk.rings (formOf u)).length < 16384 →
    ∃ t, exec (.mrkTermEnd []) s = .next t ∧ t.chip.mrk.sweeping = true ∧ evtBit t.chip .mrk 0 0 ∧
      getF t.chip MRK_TERMNO_N 0 = (getF s.chip MRK_TERMNO_N 0 + 1) % 2 ^ MRK_TERMNO_N.w ∧
      t.chip.mrk.confirmNow = getF s.chip MRK_CTRL_CONFIRM 0 ∧
      cachedEntry t.chip u = some { e with rmark := 0, wmark := 0 } ∧
      kvGet [] t.chip.mrk.rings (formOf u) = kvGet [] s.chip.mrk.rings (formOf u) ++
        [{ tile := u, down := d, pan := locPan s.chip e.loc0, rmark := e.rmark, wmark := e.wmark,
           heat := heatOf s.chip e }] ∧
      changesOnly [.mrk, .map, .media, .car, .cnt] [at0 MRK_TERMNO_N 0, at0 (PG_EVT_PEND .mrk) 0] s t) ∧
  (∀ (bad : List Nat) (s : State), s.chip.mrk.termRuns = true → tmbRuns s.chip = true → s.chip.mrk.deferred = false →
    s.chip.mrk.sweeping = true →
    ∃ t, exec (.mrkTermEnd bad) s = .next t ∧ errBit t.chip .mrk 0 0 ∧ t.chip.mrk = { s.chip.mrk with deferred := true } ∧
      changesOnly [.mrk, .flt] [at0 (PG_ERR .mrk) 0] s t) ∧
  (∀ (us : Nat) (ps : List MovePick) (bad : List Nat) (s : State), s.chip.mrk.sweeping = true → s.chip.mrk.deferred = false →
    prefectsRun s.chip = false →
    ∃ t, exec (.mrkSweepDone us ps bad) s = .next t ∧ evtBit t.chip .mrk 0 1 ∧
      getF t.chip MRK_SWEEP_T_T 0 = us % 2 ^ MRK_SWEEP_T_T.w ∧
      getF t.chip MRK_CAND_UP_N 0 = kvGet 0 s.chip.mrk.histNext upKey % 2 ^ MRK_CAND_UP_N.w ∧
      getF t.chip MRK_CAND_DOWN_N 0 = kvGet 0 s.chip.mrk.histNext downKey % 2 ^ MRK_CAND_DOWN_N.w ∧
      getF t.chip MRK_CAND_DROP_N 0 = s.chip.mrk.dropped % 2 ^ MRK_CAND_DROP_N.w ∧
      t.chip.mrk = { s.chip.mrk with sweeping := false, hist := s.chip.mrk.histNext } ∧
      changesOnly [.mrk, .cnt] [at0 MRK_SWEEP_T_T 0, at0 MRK_CAND_UP_N 0, at0 MRK_CAND_DOWN_N 0, at0 MRK_CAND_DROP_N 0,
        at0 (PG_EVT_PEND .mrk) 0] s t) ∧
  (∀ (us u n k : Nat) (bad : List Nat) (x : Cand) (p : MovePick) (e : Entry) (s : State), s.chip.mrk.sweeping = true →
    s.chip.mrk.deferred = false → prefectsRun s.chip = true → s.chip.mrk.rings = [(formOf u, [x])] → x.tile = u →
    p.tile.val = u → s.chip.mrk.misplaced = [] → s.chip.mrk.twinOwed = [] →
    s.chip.mrk.places = [] → kvFind s.chip.mrk.confirm u = some (x.down, n) → s.chip.mrk.confirmNow ≤ n + 1 →
    s.chip.mrk.secondMove = [] → 0 < heatBudget s.chip → cachedEntry s.chip u = some e → e.state = 1 → e.twin = false →
    underDevice s.chip u = false → heatDest s.chip x = some k → takesLoc s.chip k .heat [] (wordOf p.dest) = true →
    ifaceFree s.chip (1 + formOf u) = true → s.chip.idle = true → s.chip.mapClear = true → mapSingle s.chip = 0 →
    s.chip.map.rebuilding = false → (p.cw.aFail && p.cw.bFail) = false → u < poolTiles s.chip → u < 2 ^ 32 →
    s.chip.rak.pending = [] → s.chip.rak.waiting = [] → sourceReach s.chip e = true →
    ∃ t, exec (.mrkSweepDone us [p] bad) s = .next t ∧
      cachedEntry t.chip u = some { e with state := 2, dest := wordOf p.dest, mslot := false, reason := 1 } ∧
      t.chip.rak.pending = [u] ∧ t.chip.mrk.rings = [] ∧ t.chip.mrk.sweeping = false ∧
      t.chip.mrk.issued = s.chip.mrk.issued + 1 ∧ t.chip.mrk.confirm = [(u, (x.down, n + 1))] ∧
      keepsParts [.fld, .mrk, .map, .media, .rak, .cnt, .flt] s.chip t.chip ∧ t.recs = s.recs ∧ t.pending = s.pending)

/-- A move in the rake: its slot, its lines, its end. A free slot takes the waiting move that comes first, counted
with its REASON. A claimed line is read from the source and written to the destination as it was read, poison with it;
its completion advances the slot's pointer by one and claims more lines, at most 16 beyond it (nothing in flight); a
poisoned line is counted and raises RAK_SRC_POISON; a line with an earlier write still on its way waits. A failed
destination raises RAK_DST_FAIL, and SRC_WAIT's end with no source RAK_SRC_LOST: each aborts the move, so that the
tile is as before it, its destination is released and the slot is free. A source that returns resumes the slot; a
stopped slot frees once its claimed lines are copied, or the last chunk of its job has ended. (derived; R338, R339,
R342, R346, R347, R349, R350.) -/
def Obligations.RakeMovesLines : Prop :=
  let aborts (u k : Nat) (e : Entry) (s t : State) : Prop :=
    cachedEntry t.chip u = some (abortedEntry s.chip u e) ∧ kvFind t.chip.rak.slots k = none ∧ t.chip.rak.pending = [] ∧
      t.chip.map.ring = s.chip.map.ring ++ [{ kind := 2, tile := u, loc := e.dest }] ∧
      keepsParts [.fld, .map, .media, .rak, .flt] s.chip t.chip ∧ t.recs = s.recs ∧ t.pending = s.pending
  let moves (u k : Nat) (e : Entry) (r : RakSt) (s : State) : Prop :=
    s.chip.rak.slots = [(k, r)] ∧ r.work = .move u ∧ r.stopping = false ∧ r.flipAsked = false ∧
      cachedEntry s.chip u = some e ∧ e.state = 2 ∧ e.twin = false ∧ s.chip.idle = true
  let slotOf (u n : Nat) (s : State) : RakSt := { slotFor (.move u) n with reason := (entryOf s.chip u).reason }
  let copied (w : Nat) (e : Entry) (r : RakSt) (d : Line) (poison : Bool) (s t : State) : Prop :=
    t.chip.sent = .devWr (locPort e.dest) (s.chip.nextTxn + 1) (locTile e.dest) r.c fullMask d poison ::
      .devRd (locPort w) s.chip.nextTxn (locTile w) r.c :: s.chip.sent ∧ t.chip.txns = s.chip.txns
  (∀ (k : RakSlot) (n : Fin 17) (u : Nat) (s : State), rakTakes s.chip = true → kvFind s.chip.rak.slots k.val = none →
    nextJob s.chip = none → nextMove s.chip = some u → moveSources s.chip u (entryOf s.chip u) ≠ [] →
    locReach s.chip (entryOf s.chip u).twin (entryOf s.chip u).dest = true →
    ∃ t, exec (.rakSlotAssign k n) s = .next t ∧
      t.chip.rak = { s.chip.rak with slots := kvPut s.chip.rak.slots k.val (slotOf u n.val s) } ∧
      changesOnly [.rak, .cnt] [] s t) ∧
  (∀ (k : RakSlot) (n : Fin 17) (u w : Nat) (ws : List Nat) (d : Line) (e : Entry) (r : RakSt) (s : State),
    moves u k.val e r s → r.c < r.claimed → r.waitSrc = false → r.dstFailed = false → moveSources s.chip u e = w :: ws →
    (∃ t, exec (.rakLineCopy k d false n) s = .next t ∧ copied w e r d false s t ∧
      t.chip.rak.slots = [(k.val, { r with c := r.c + 1,
                                           claimed := min 32768 (min (r.claimed + n.val) (r.c + 1 + 16)) })] ∧
      t.chip.rak = { s.chip.rak with slots := t.chip.rak.slots } ∧ changesOnly [.rak, .cnt, .sent, .txns] [] s t) ∧
    (∃ t, exec (.rakLineCopy k d true n) s = .next t ∧ copied w e r 0#512 true s t ∧ errBit t.chip .rak 0 1 ∧
      getF t.chip RAK_ERR_VALID 0 = 1 ∧
      t.chip.rak.slots = [(k.val, { r with c := r.c + 1,
                                           claimed := min 32768 (min (r.claimed + n.val) (r.c + 1 + 16)) })] ∧
      keepsParts [.fld, .rak, .car, .flt, .cnt, .sent, .txns] s.chip t.chip ∧ t.recs = s.recs ∧ t.pending = s.pending)) ∧
  (∀ (k : RakSlot) (n : Fin 17) (u : Nat) (d : Line) (poison : Bool) (r : RakSt) (s : State),
    kvFind s.chip.rak.slots k.val = some r → r.work = .move u → writeAhead s.chip u r.c = true →
    exec (.rakLineCopy k d poison n) s = .next s) ∧
  (∀ (k : RakSlot) (cw : CopyWrites) (u : Nat) (e : Entry) (r : RakSt) (s : State), moves u k.val e r s →
    s.chip.rak.pending = [u] → s.chip.rak.waiting = [] → s.chip.map.ring.length + 1 ≤ 4096 → mapSingle s.chip = 0 →
    s.chip.map.rebuilding = false → s.chip.mrk.secondMove = [] → prefectWork s.chip = false → (cw.aFail && cw.bFail) = false →
    (∃ t, exec (.rakDstFail k cw) s = .next t ∧ errBit t.chip .rak 0 0 ∧ getF t.chip RAK_ERR_VALID 0 = 1 ∧
      aborts u k.val e s t) ∧
    (r.waitSrc = true → moveSources s.chip u e = [] → tmbRuns s.chip = true →
      ∃ t, exec (.rakSrcWaitExpiry k cw) s = .next t ∧ errBit t.chip .rak 0 2 ∧ getF t.chip RAK_ERR_VALID 0 = 1 ∧
        aborts u k.val e s t)) ∧
  (∀ (k : RakSlot) (u : Nat) (e : Entry) (r : RakSt) (s : State), moves u k.val e r s → r.waitSrc = true →
    moveSources s.chip u e ≠ [] →
    ∃ t, exec (.rakSrcResume k) s = .next t ∧ t.chip.rak.slots = [(k.val, { r with waitSrc := false })] ∧
      t.chip.rak = { s.chip.rak with slots := t.chip.rak.slots } ∧ changesOnly [.rak] [] s t) ∧
  (∀ (k : RakSlot) (r : RakSt) (s : State), kvFind s.chip.rak.slots k.val = some r → r.stopping = true →
    (slotEnds s.chip r = true → ∃ t, exec (.rakSlotFree k) s = .next t ∧
      t.chip.rak = { s.chip.rak with slots := kvErase s.chip.rak.slots k.val } ∧ changesOnly [.rak] [] s t) ∧
    (slotEnds s.chip r = false → exec (.rakSlotFree k) s = .next s))

/-- Tenant jobs: submission, start and chunks. A submission on the control page of a tenancy with no job makes one
that waits, with the registers' kind, addresses and length, or ends with DENIED where R351 is broken. A job that may
start takes the lowest free slot and RUNs. A chunk of one line of a ZERO job ends the job with MISS where no pool
window serves it; in an ordinary window on a RESIDENT tile with nothing else in flight, it is running and its write of
zeros is sent to the device. (derived; R351, R352, R353, R339.) -/
def Obligations.TenantJobs : Prop :=
  (∀ (p : Port) (n : Ten) (pasid : Option (Fin 1048576)) (k : Fin 4) (s : State), carriesMem s.chip p.val = true →
    pageAdmits s.chip p.val n.val (pasid.map (·.val)) = true → (tenSt s.chip n.val).job.go = false →
    (jobLegal k.val (tenSt s.chip n.val).jSrc (tenSt s.chip n.val).jDst (tenSt s.chip n.val).jLen = true →
      ∃ t, exec (.tenJobSubmit p n pasid k) s = .next t ∧
        t.chip.ten = (setTenSt n.val { tenSt s.chip n.val with jKind := k.val, job := { Job.idle with
          kind := k.val, src := (tenSt s.chip n.val).jSrc, dst := (tenSt s.chip n.val).jDst,
          len := (tenSt s.chip n.val).jLen, status := (tenSt s.chip n.val).job.status, go := true,
          paused := tenState s.chip n.val == 2,
          waitLines := (s.chip.slt.entries.filter fun e => e.ten == n.val).map (·.id) } } s.chip).ten ∧
        t.chip.rak = { s.chip.rak with jobs := addNew s.chip.rak.jobs n.val } ∧
        t.chip.lnk = (ioCredits p.val true s.chip).lnk ∧ changesOnly [.lnk, .ten, .rak] [] s t) ∧
    (jobLegal k.val (tenSt s.chip n.val).jSrc (tenSt s.chip n.val).jDst (tenSt s.chip n.val).jLen = false →
      ∃ t, exec (.tenJobSubmit p n pasid k) s = .next t ∧
        t.chip.ten = (setTenSt n.val { tenSt s.chip n.val with
          jKind := k.val, job := { (tenSt s.chip n.val).job with status := 2 } } s.chip).ten ∧
        t.chip.lnk = (ioCredits p.val true s.chip).lnk ∧ changesOnly [.lnk, .ten] [] s t)) ∧
  (∀ (n : Ten) (k : Nat) (s : State), rakTakes s.chip = true → nextJob s.chip = some n.val → freeSlot s.chip = some k →
    ∃ t, exec (.tenJobStart n) s = .next t ∧
      t.chip.ten = (setTenSt n.val { tenSt s.chip n.val with
        job := { (tenSt s.chip n.val).job with started := true, status := 1 } } s.chip).ten ∧
      t.chip.rak = { s.chip.rak with slots := kvPut s.chip.rak.slots k (slotFor (.job n.val) 0),
                                     jobs := without s.chip.rak.jobs n.val } ∧ changesOnly [.ten, .rak] [] s t) ∧
  (∀ (n : Ten) (s : State), (tenSt s.chip n.val).job.go = true → (tenSt s.chip n.val).job.started = true →
    (tenSt s.chip n.val).job.paused = false → (tenSt s.chip n.val).job.chunk = false →
    (tenSt s.chip n.val).job.stopping = false → (jobSlot s.chip n.val).isSome = true → jobBarred s.chip = false → tenState s.chip n.val = 1 →
    (tenSt s.chip n.val).job.kind = 2 → (tenSt s.chip n.val).job.len = (tenSt s.chip n.val).job.bytes + 64 →
    (poolMatch s.chip (tenPort s.chip n.val) ((tenSt s.chip n.val).job.dst + (tenSt s.chip n.val).job.bytes) = none →
      ∃ t, exec (.tenJobChunk n []) s = .next t ∧ t.chip.ten = (setTenSt n.val { tenSt s.chip n.val with
          job := { (tenSt s.chip n.val).job with go := false, started := false, waitLines := [], status := 3 } } s.chip).ten ∧
        jobSlot t.chip n.val = none ∧ changesOnly [.ten, .rak, .cnt] [] s t) ∧
    (∀ (w : Nat) (x : Window) (e : Entry), s.chip.idle = true →
      poolMatch s.chip (tenPort s.chip n.val) ((tenSt s.chip n.val).job.dst + (tenSt s.chip n.val).job.bytes) = some (w, x) →
      x.ten = n.val → x.rtype = 0 → x.shared = false → x.remote = false →
      lineOf x ((tenSt s.chip n.val).job.dst + (tenSt s.chip n.val).job.bytes) < 2 ^ 44 →
      (tenSt s.chip n.val).sEn = false → mapRunning s.chip = true → s.chip.slt.lost = [] →
      s.chip.map.unreadable = [] → s.chip.map.placing = [] → s.chip.map.splits = [] →
      residentAt s.chip (lineOf x ((tenSt s.chip n.val).job.dst + (tenSt s.chip n.val).job.bytes)) e →
      ∃ t, exec (.tenJobChunk n []) s = .next t ∧ (tenSt t.chip n.val).job.chunk = true ∧
        t.chip.sent = .devWr (locPort e.loc0) (s.chip.nextTxn + 1) (locTile e.loc0)
          (lineInTile (lineOf x ((tenSt s.chip n.val).job.dst + (tenSt s.chip n.val).job.bytes))) fullMask 0#512 false ::
          s.chip.sent ∧
        keepsParts [.txns, .ten, .map, .cnt, .sent] s.chip t.chip ∧ t.recs = s.recs ∧ t.pending = s.pending))

/-- Care pages, health polls, the care ring and mends. A write of EN = 1 binds a device page and takes its settings,
or is refused with the CSTAT code of R360; EN = 0 unbinds it while its device is not READY. A health poll keeps the
status, life and temperature that it read, a DENSE device ages by it, and a defect it reports is counted on its device
tile with its fault; one that fails raises CAR_HEALTH_FAIL and the temperature in use is TDEF. A read of CAR_RING
takes the oldest item: on a LOST item the prefects SETLOST its tile, on a care item whose destination fits they MOVE
it with its REASON, unless its tile's state has changed since it was posted. A mend leaves the queue, reads its line
at the good location and writes all of it at the other, or is a defect of the location it reads where that does not
answer with sound data. (That a binding takes the settings is the model's reading, log entry 109.) (derived; R360,
R366, R367, R372, R375, R380.) -/
def Obligations.CarePagesAndHealth : Prop :=
  let issues (i : CareItem) (r : List CareItem) (ch : PlaceChoice) (e : Entry) (s : State) : Prop :=
    s.chip.car.ring = i :: r ∧ s.chip.car.posting = [] ∧ prefectsRun s.chip = true ∧ i.slot = false ∧
      ifaceFree s.chip (1 + formOf i.tile) = true ∧ i.tile < poolTiles s.chip ∧ i.tile < 2 ^ 29 ∧
      cachedEntry s.chip i.tile = some e ∧ e.state = 1 ∧ e.twin = false ∧ s.chip.idle = true ∧
      s.chip.mapClear = true ∧ mapSingle s.chip = 0 ∧ s.chip.map.rebuilding = false ∧ s.chip.rak.waiting = [] ∧
      s.chip.rak.pending = [] ∧ (ch.cw.aFail && ch.cw.bFail) = false
  (∀ (pa : Path) (d : CarePage) (s : State), pageOpen s.chip pa .carD d.val →
    (getF s.chip CAR_DEV_CFG_EN d.val = 0 → ∃ t, exec (.carDevBind pa d true) s = .next t ∧
      getF t.chip CAR_DEV_CFG_CSTAT d.val = bindCode s.chip d.val ∧
      getF t.chip CAR_DEV_CFG_EN d.val = b2n (bindCode s.chip d.val == 1) ∧
      t.chip.car = (if bindCode s.chip d.val = 1 then takeSettings d.val s.chip else s.chip).car ∧
      changesOnly [.car] [at0 CAR_DEV_CFG_EN d.val, at0 CAR_DEV_CFG_CSTAT d.val] s t) ∧
    (getF s.chip CAR_DEV_CFG_EN d.val = 1 → devReady s.chip (carPort s.chip d.val) = false → s.chip.idle = true →
      s.chip.rak.slots = [] →
      ∃ t, exec (.carDevBind pa d false) s = .next t ∧ getF t.chip CAR_DEV_CFG_EN d.val = 0 ∧
        getF t.chip CAR_DEV_CFG_CSTAT d.val = 0 ∧ getF t.chip CAR_DEV_STAT_STATE d.val = 0 ∧
        getF t.chip CAR_DEV_STAT_HOLD d.val = 0 ∧ keepsParts [.fld, .car, .map, .flt] s.chip t.chip ∧
        t.recs = s.recs ∧ t.pending = s.pending) ∧
    (getF s.chip CAR_DEV_CFG_EN d.val = 1 → devReady s.chip (carPort s.chip d.val) = true →
      exec (.carDevBind pa d false) s = .next s)) ∧
  (∀ (d : CarePage) (r : HealthReport) (s : State), carRuns s.chip = true → carReads s.chip d.val = true →
    r.defectTiles = [] →
    ∃ t, exec (.healthPoll d r) s = .next t ∧ getF t.chip CAR_DEV_STAT_TEMP d.val = r.temp.toNat ∧
      getF t.chip CAR_DEV_STAT_TVALID d.val = 1 ∧ getF t.chip CAR_DEV_STAT_LIFE d.val = r.life.val ∧
      getF t.chip CAR_DEV_STAT_MAINT d.val = b2n r.maint ∧ getF t.chip CAR_DEV_STAT_DEGRADED d.val = b2n r.degraded ∧
      getF t.chip CAR_DEV_STAT_REPLACE d.val = b2n r.replace ∧
      (healthNew s.chip d.val r = true → evtBit t.chip .carD d.val 0) ∧
      getF t.chip CAR_DEV_AGE_AGE d.val = (if isDense s.chip d.val then
        (getF s.chip CAR_DEV_AGE_AGE d.val + ageStep t.chip d.val r.secs) % 2 ^ CAR_DEV_AGE_AGE.w
        else getF s.chip CAR_DEV_AGE_AGE d.val) ∧
      t.chip.car = { s.chip.car with
        eol := if getF t.chip CAR_DEV_STAT_STATE d.val = 3 then addNew s.chip.car.eol d.val else s.chip.car.eol } ∧
      changesOnly [.car, .flt] [at0 CAR_DEV_STAT_TEMP d.val, at0 CAR_DEV_STAT_TVALID d.val, at0 CAR_DEV_STAT_LIFE d.val,
        at0 CAR_DEV_STAT_MAINT d.val, at0 CAR_DEV_STAT_DEGRADED d.val, at0 CAR_DEV_STAT_REPLACE d.val,
        at0 CAR_DEV_STAT_STATE d.val, at0 CAR_DEV_RETIRED_N d.val, at0 CAR_DEV_AGE_AGE d.val,
        at0 (PG_EVT_PEND .carD) d.val, at0 (PG_ERR .carD) d.val] s t) ∧
  (∀ (d : CarePage) (r : HealthReport) (u : Nat) (s : State), carRuns s.chip = true → carReads s.chip d.val = true →
    r.defectTiles = [u] → u < getF s.chip PRT_DEV_CAP_TILES (carPort s.chip d.val) →
    carePageOf s.chip (carPort s.chip d.val) = some d.val → carPort s.chip d.val < 1024 → u < 2 ^ 22 →
    ∃ t, exec (.healthPoll d r) s = .next t ∧ errBit t.chip .carD d.val 1 ∧
      t.chip.car = { s.chip.car with
        defects := kvMod 0 s.chip.car.defects (locWord (carPort s.chip d.val) u) (· + 1),
        eol := if getF t.chip CAR_DEV_STAT_STATE d.val = 3 then addNew s.chip.car.eol d.val else s.chip.car.eol } ∧
      keepsParts [.fld, .car, .cnt, .flt] s.chip t.chip ∧ t.recs = s.recs ∧ t.pending = s.pending) ∧
  (∀ (d : CarePage) (secs : Nat) (s : State), carRuns s.chip = true → getF s.chip CAR_DEV_CFG_EN d.val = 1 →
    devReady s.chip (carPort s.chip d.val) = true →
    ∃ t, exec (.carHealthFail d secs) s = .next t ∧ errBit t.chip .carD d.val 0 ∧
      getF t.chip CAR_DEV_STAT_TVALID d.val = 0 ∧
      careTemp t.chip d.val = ((2 * careF s.chip CAR_DEV_THR_TDEF d.val : Nat) : Int) ∧
      t.chip.car = { s.chip.car with
        eol := if getF t.chip CAR_DEV_STAT_STATE d.val = 3 then addNew s.chip.car.eol d.val else s.chip.car.eol } ∧
      changesOnly [.car, .flt] [at0 CAR_DEV_STAT_TEMP d.val, at0 CAR_DEV_STAT_TVALID d.val, at0 CAR_DEV_STAT_STATE d.val,
        at0 CAR_DEV_RETIRED_N d.val, at0 CAR_DEV_AGE_AGE d.val, at0 (PG_ERR .carD) d.val] s t) ∧
  (∀ (pa : Path) (s : State), pageOpen s.chip pa .carC 0 → s.chip.car.ring = [] →
    ∃ t, exec (.carRingRead pa none) s = .next t ∧ t.chip.sent = .pathRead pa 0 :: s.chip.sent ∧
      changesOnly [.sent] [] s t) ∧
  (∀ (pa : Path) (i : CareItem) (r : List CareItem) (s : State), pageOpen s.chip pa .carC 0 →
    s.chip.car.ring = i :: r → s.chip.car.posting = [] → prefectsRun s.chip = false →
    ∃ t, exec (.carRingRead pa none) s = .next t ∧ t.chip.sent = .pathRead pa (careWord i) :: s.chip.sent ∧
      t.chip.car = { s.chip.car with ring := r } ∧ getF t.chip CAR_RING_TILE_TILE 0 = i.tile % 2 ^ 29 ∧
      changesOnly [.car, .sent] [at0 CAR_RING_TILE_TILE 0] s t) ∧
  (∀ (pa : Path) (i : CareItem) (r : List CareItem) (ch : PlaceChoice) (e : Entry) (s : State),
    pageOpen s.chip pa .carC 0 → issues i r ch e s →
    (i.kind = 5 → ∃ t, exec (.carRingRead pa (some ch)) s = .next t ∧
      cachedEntry t.chip i.tile = some { e with state := 4, dest := 0, mslot := false, reason := 0 } ∧
      t.chip.sent = .pathRead pa (careWord i) :: s.chip.sent ∧ t.chip.car = { s.chip.car with ring := r } ∧
      keepsParts [.fld, .car, .map, .media, .rak, .sent, .cnt, .flt] s.chip t.chip ∧ t.recs = s.recs ∧ t.pending = s.pending) ∧
    (i.kind ≠ 5 → i.state ≠ 1 → ∃ t, exec (.carRingRead pa (some ch)) s = .next t ∧
      t.chip.sent = .pathRead pa (careWord i) :: s.chip.sent ∧ t.chip.car = { s.chip.car with ring := r } ∧
      keepsParts [.fld, .car, .sent] s.chip t.chip ∧ t.recs = s.recs ∧ t.pending = s.pending) ∧
    (i.kind < 4 → i.state = 1 → careFits s.chip i ch.a = true → sourceReach s.chip e = true →
      ∃ t, exec (.carRingRead pa (some ch)) s = .next t ∧
        cachedEntry t.chip i.tile = some { e with state := if i.kind = 0 then 3 else 2, dest := wordOf ch.a,
                                                  mslot := false, reason := careReason i.kind } ∧
        t.chip.rak.pending = [i.tile] ∧ t.chip.sent = .pathRead pa (careWord i) :: s.chip.sent ∧
        t.chip.car = { s.chip.car with ring := r } ∧
        keepsParts [.fld, .car, .map, .media, .rak, .sent, .cnt, .flt] s.chip t.chip ∧ t.recs = s.recs ∧
        t.pending = s.pending)) ∧
  (∀ (m : MendReq) (x y : Nat) (dat : Line) (w : Bool) (s : State), carRuns s.chip = true →
    getF s.chip CAR_CTRL_EN 0 = 1 ∨ s.chip.car.passRuns = true →
    careWrites s.chip = true → s.chip.car.mends = [m] → mendMay s.chip m = true →
    (x, y) = (if m.bad then ((entryOf s.chip (tileOfLine m.line)).loc1, (entryOf s.chip (tileOfLine m.line)).loc0)
      else ((entryOf s.chip (tileOfLine m.line)).loc0, (entryOf s.chip (tileOfLine m.line)).loc1)) →
    (∃ t, exec (.mend .ok dat w) s = .next t ∧ t.chip.car.mends = [] ∧
      t.chip.sent = .devWr (locPort x) (s.chip.nextTxn + 1) (locTile x) (lineInTile m.line) fullMask dat false ::
        .devRd (locPort y) s.chip.nextTxn (locTile y) (lineInTile m.line) :: s.chip.sent ∧ t.chip.txns = s.chip.txns ∧
      changesOnly [.car, .media, .cnt, .sent, .txns] [] s t) ∧
    (∀ (d : CarePage) (st : DevStatus), st ≠ .ok → carePageOf s.chip (locPort y) = some d.val →
      ∃ t, exec (.mend st dat w) s = .next t ∧ t.chip.car.mends = [] ∧ errBit t.chip .carD d.val 1 ∧
        t.chip.sent = .devRd (locPort y) s.chip.nextTxn (locTile y) (lineInTile m.line) :: s.chip.sent ∧
        t.chip.txns = s.chip.txns ∧ changesOnly [.car, .cnt, .flt, .sent, .txns] [at0 (PG_ERR .carD) d.val] s t))

/-- Care passes, rescans and evacuations. A pass over one cared DRAM device (nothing in flight) writes each record
that changes: a bare tile's record holds no tile and takes the pending charges; a pool tile's record whose defects
reach DEF_MAX posts RETIRE. A pass due while one runs raises CAR_PASS_LATE. Its end counts it, raises CAR_PASS_DONE
and writes the region's header, fresh list and mean wear. TWSTALE ends when no twin is left on the device; LOST_WAIT's
end posts LOST for its single tile. An evacuation ends DONE when nothing is left on the device, which is then removed;
TIMEOUT, NO_SPACE and CANCELLED end it with a fault. (derived; R369, R374, R381, R383, R384, R386, R387.) -/
def Obligations.CarePassesAndEvacuation : Prop :=
  let passes (d : CarePage) (s : State) : Prop :=
    passMay s.chip = true ∧ s.chip.car.passRuns = false ∧ carPages s.chip = [d.val] ∧ carReads s.chip d.val = true ∧
      s.chip.car.newDevice = [] ∧ s.chip.car.initOwed = [] ∧ getF s.chip CAR_DEV_STAT_HOLD d.val = 0 ∧ getF s.chip CAR_DEV_STAT_TWSTALE d.val = 0 ∧
      isDense s.chip d.val = false ∧ s.chip.idle = true ∧ s.chip.rak.slots = [] ∧ s.chip.car.ring = [] ∧
      s.chip.car.posting = []
  let ends (d : CarePage) (code : Nat) (s t : State) : Prop :=
    getF t.chip CAR_DEV_EVAC_STATUS d.val = code ∧ errBit t.chip .carD d.val 4 ∧
      getF t.chip PRT_SLOT_REMOVE_REQ (carPort s.chip d.val) = 0 ∧
      t.chip.car = { s.chip.car with
        eol := if getF t.chip CAR_DEV_STAT_STATE d.val = 3 then addNew s.chip.car.eol d.val else s.chip.car.eol } ∧
      changesOnly [.car, .flt] [at0 CAR_DEV_EVAC_STATUS d.val, at0 (PG_ERR .carD) d.val, at0 CAR_DEV_STAT_STATE d.val,
        at0 CAR_DEV_RETIRED_N d.val, at0 PRT_SLOT_REMOVE_REQ (carPort s.chip d.val)] s t
  (∀ (d : CarePage) (u : Nat) (s : State), passes d s → passTiles s.chip d.val = [u] →
    (locsOn s.chip (carPort s.chip d.val) = [] → s.chip.car.retireLeft = [] →
      ∃ t, exec (.carePassStart []) s = .next t ∧ t.chip.car.passRuns = true ∧ t.chip.car.ring = [] ∧
        recAt t.chip (carPort s.chip d.val) u = charged s.chip (locWord (carPort s.chip d.val) u)
          { recAt s.chip (carPort s.chip d.val) u with tile := none } ∧
        keepsParts [.fld, .car, .media, .cnt, .flt, .map] s.chip t.chip ∧ t.recs = s.recs ∧ t.pending = s.pending) ∧
    (∀ (l : Nat) (e : Entry) (x : CareRec), locsOn s.chip (carPort s.chip d.val) = [(l, false, e)] → e.twin = false →
      e.loc0 = locWord (carPort s.chip d.val) u →
      x = charged s.chip e.loc0 (arrived s.chip d.val (recAt s.chip (carPort s.chip d.val) u) l false (e.flips % 16)) →
      getF s.chip CAR_DEV_WEAR_DEF_MAX d.val ≤ x.defects →
      ∃ t, exec (.carePassStart []) s = .next t ∧ recAt t.chip (carPort s.chip d.val) u = x ∧
        t.chip.car.ring =
          [{ kind := 2, tile := l, slot := false, port := carPort s.chip d.val, state := (entryOf s.chip l).state }] ∧
        keepsParts [.fld, .car, .media, .cnt, .flt, .map] s.chip t.chip ∧ t.recs = s.recs ∧ t.pending = s.pending)) ∧
  (∀ (poison : List Loc) (s : State), passMay s.chip = true → s.chip.car.passRuns = true →
    ∃ t, exec (.carePassStart poison) s = .next t ∧ errBit t.chip .carC 0 3 ∧ t.chip.car = { s.chip.car with passLate := true } ∧
      changesOnly [.car, .flt] [at0 (PG_ERR .carC) 0] s t) ∧
  (∀ (d : CarePage) (n : Nat) (poison : List Loc) (s : State), s.chip.car.passRuns = true → s.chip.car.posting = [] →
    s.chip.car.passLate = false → careWrites s.chip = true → carPages s.chip = [d.val] → carReads s.chip d.val = true →
    getF s.chip CAR_DEV_STAT_HOLD d.val = 0 →
    ∃ t, exec (.carPassDone n poison) s = .next t ∧ t.chip.car.passRuns = false ∧ evtBit t.chip .carC 0 0 ∧
      getF t.chip CAR_PASSNO_N 0 = (getF s.chip CAR_PASSNO_N 0 + 1) % 2 ^ CAR_PASSNO_N.w ∧
      regionOf t.chip (carPort s.chip d.val) = { regionOf s.chip (carPort s.chip d.val) with
        age := getF s.chip CAR_DEV_AGE_AGE d.val, passes := (regionOf s.chip (carPort s.chip d.val)).passes + 1,
        fresh := freshList s.chip (carPort s.chip d.val) (regionOf s.chip (carPort s.chip d.val)) } ∧
      getF t.chip CAR_DEV_WMEAN_MEAN d.val =
        meanWear s.chip (carPort s.chip d.val) (regionOf s.chip (carPort s.chip d.val)) % 2 ^ CAR_DEV_WMEAN_MEAN.w ∧
      keepsParts [.fld, .car, .media, .cnt, .draws] s.chip t.chip ∧ t.recs = s.recs ∧ t.pending = s.pending) ∧
  (∀ (d : CarePage) (s : State), carRuns s.chip = true → getF s.chip CAR_DEV_STAT_TWSTALE d.val = 1 →
    (twinsOn s.chip (carPort s.chip d.val) = true → exec (.twstaleRescan d) s = .next s) ∧
    (twinsOn s.chip (carPort s.chip d.val) = false → s.chip.idle = true → s.chip.rak.slots = [] →
      ∃ t, exec (.twstaleRescan d) s = .next t ∧ getF t.chip CAR_DEV_STAT_TWSTALE d.val = 0 ∧
        t.chip.car = { s.chip.car with
        eol := if getF t.chip CAR_DEV_STAT_STATE d.val = 3 then addNew s.chip.car.eol d.val else s.chip.car.eol } ∧
        keepsParts [.fld, .car, .map, .flt] s.chip t.chip ∧ t.recs = s.recs ∧ t.pending = s.pending)) ∧
  (∀ (d : CarePage) (u : Nat) (e : Entry) (s : State), carRuns s.chip = true →
    s.chip.car.lostWait.contains d.val = true → devReady s.chip (carPort s.chip d.val) = false →
    locsOn s.chip (carPort s.chip d.val) = [(u, false, e)] → e.twin = false → e.state ≠ 4 → s.chip.car.ring = [] →
    s.chip.car.posting = [] →
    ∃ t, exec (.lostWaitExpiry d) s = .next t ∧ errBit t.chip .carC 0 1 ∧ evtBit t.chip .carC 0 1 ∧
      t.chip.car = { s.chip.car with
        lostWait := without s.chip.car.lostWait d.val,
        ring := [{ kind := 5, tile := u, slot := false, port := carPort s.chip d.val, state := (entryOf s.chip u).state }] } ∧
      changesOnly [.car, .cnt, .flt] [at0 (PG_ERR .carC) 0, at0 (PG_EVT_PEND .carC) 0] s t) ∧
  (∀ (d : CarePage) (s : State), carRuns s.chip = true → getF s.chip CAR_DEV_EVAC_STATUS d.val = 1 →
    (evacClear s.chip d.val = true → deviceFace s.chip (carPort s.chip d.val) = true →
      ∃ t, exec (.evacRescan d) s = .next t ∧ getF t.chip CAR_DEV_EVAC_STATUS d.val = 2 ∧
        (prtSt t.chip (carPort s.chip d.val)).removed = true ∧ getF t.chip PRT_DEV_RESULT (carPort s.chip d.val) = 8 ∧
        evtBit t.chip .carD d.val 1 ∧ t.chip.plane = s.chip.plane ∧ t.recs = s.recs ∧ t.pending = s.pending) ∧
    (∃ t, exec (.evacTimeout d) s = .next t ∧ ends d 4 s t) ∧
    (∀ (pa : Path) (code : Fin 8), pageOpen s.chip pa .carD d.val →
      ∃ t, exec (.evacAbort pa d code) s = .next t ∧ ends d (if code.val = 3 then 3 else 7) s t))

/-- Answers to snoops, departures and the roll's registers. With one request in flight, a shared read that takes
ownership of an UNPLACED tile's line: the awaited answer closes its snoop and the host gets the data and the line, an
answer that R396 does not allow counting as BIRspI with ROL_PROTO; a snoop timeout does the same after the silent host
has departed; and its line's release serves it from the lock queue. An answer to no open snoop raises ROL_PROTO.
BIConflict is acknowledged at once. BIRsp and BIConflict free one RSP credit. The scrub's end raises ROL_SCRUB_DONE
and frees a host whose face was down. A probe shows the line's entry, and PARK_HW is the park's present use. (derived;
R395, R396, R399, R402, R407, R409, R410, R421.) -/
def Obligations.SnoopsAndDepartures : Prop :=
  let asks (u : Txn) (h : Nat) (s : State) : Prop :=
    s.chip.txns = [u] ∧ u.kind = .rd ∧ u.mv = .a ∧ u.rtype < 2 ∧ u.shared = true ∧ u.host = some h ∧ u.atom = none ∧
      u.line < 2 ^ 44 ∧ u.lostLink = false ∧ u.marked = true ∧ u.ecc = Ecc.none ∧ u.overMask = 0#64 ∧ u.legs = [] ∧ u.holder = false ∧
      (u.ten.all fun x => tenGen s.chip x == u.gen) = true ∧ hostGone s.chip h = false ∧ s.chip.rol.entries = [] ∧
      s.chip.slt.entries = [] ∧ s.chip.slt.lost = [] ∧ s.chip.ten.st = [] ∧ s.chip.bnd.drainOwed = [] ∧
      mapRunning s.chip = true ∧ s.chip.map.unreadable = [] ∧ s.chip.map.placing = [] ∧
      cachedEntry s.chip (tileOfLine u.line) = some Entry.zero
  let owns (u : Txn) (h : Nat) (s t : State) : Prop :=
    t.chip.sent = .host u.port u.tag (.memData 0#512 false (some .a)) :: s.chip.sent ∧ t.chip.txns = [] ∧
      t.chip.rol.snoops = [] ∧
      (rolEntry t.chip u.line).map (fun r => (r.owned, r.coarse, r.hosts)) = some (true, false, [h]) ∧
      t.recs = s.recs ∧ t.pending = s.pending
  let awaits (u : Txn) (x : Snoop) (s : State) : Prop :=
    s.chip.rol.snoops = [x] ∧ x.txn = u.id ∧ x.line = u.line ∧ x.typ = .inv ∧ x.answered = false ∧ x.gone = false ∧
      u.stage = .snoop
  (∀ (u : Txn) (h : Nat) (x : Snoop) (p : Port) (r : BiRsp) (s : State), asks u h s → awaits u x s → x.port = p.val →
    carriesMem s.chip p.val = true →
    ∃ t, exec (.birspReceive p x.tag r) s = .next t ∧ owns u h s t ∧ (r ≠ .i → errBit t.chip .rolC 0 4) ∧
      t.chip.lnk = (freeCredits p.val .biRsp 0 s.chip).lnk ∧
      keepsParts [.lnk, .fld, .rol, .txns, .map, .flt, .cnt, .sent] s.chip t.chip) ∧
  (∀ (u : Txn) (h : Nat) (x : Snoop) (s : State), asks u h s → awaits u x s → tmbRuns s.chip = true → x.host ≠ h →
    x.host < 256 → h < 256 → hostGone s.chip x.host = false →
    ∃ t, exec (.rolSnpTimeout x.tag) s = .next t ∧ owns u h s t ∧ errBit t.chip .rolC 0 2 ∧ evtBit t.chip .rolC 0 0 ∧
      hostGone t.chip x.host = true ∧ getF t.chip ROL_STAT_SCRUB 0 = 1 ∧
      keepsParts [.fld, .rol, .txns, .map, .flt, .cnt, .sent] s.chip t.chip) ∧
  (∀ (u : Txn) (h : Nat) (l : PLine) (s : State), asks u h s → s.chip.rol.snoops = [] → u.stage = .lockWait →
    u.lock = false → l.val = u.line →
    ∃ t, exec (.lineLockRelease l) s = .next t ∧ owns u h s t ∧
      keepsParts [.rol, .txns, .map, .cnt, .sent] s.chip t.chip) ∧
  (∀ (l : PLine) (s : State), s.chip.idle = true → exec (.lineLockRelease l) s = .next s) ∧
  (∀ (p : Port) (tag : Nat) (r : BiRsp) (s : State), carriesMem s.chip p.val = true →
    snoopByTag s.chip p.val tag = none →
    ∃ t, exec (.birspReceive p tag r) s = .next t ∧ errBit t.chip .rolC 0 4 ∧ getF t.chip ROL_ERR_VALID 0 = 1 ∧
      t.chip.lnk = (freeCredits p.val .biRsp 0 s.chip).lnk ∧
      keepsParts [.fld, .lnk, .flt, .draws] s.chip t.chip ∧ t.recs = s.recs ∧ t.pending = s.pending) ∧
  (∀ (p : Port) (l : PLine) (tag : Nat) (s : State), carriesMem s.chip p.val = true →
    ∃ t, exec (.biconflictReceive p l tag) s = .next t ∧ t.chip.sent = .biConflictAck p.val tag :: s.chip.sent ∧
      t.chip.lnk = (freeCredits p.val .biConflict 0 s.chip).lnk ∧
      changesOnly [.lnk, .sent] [] s t) ∧
  (∀ (h : Fin 256) (s : State), getF s.chip ROL_STAT_SCRUB 0 = 1 → s.chip.txns = [] → s.chip.rol.goneMet = [h.val] →
    ∃ t, exec .rolScrubDone s = .next t ∧ getF t.chip ROL_STAT_SCRUB 0 = 0 ∧ evtBit t.chip .rolC 0 1 ∧
      hostGone t.chip h.val = false ∧ t.chip.rol = { s.chip.rol with goneMet := [] } ∧
      changesOnly [.rol] [at0 ROL_STAT_SCRUB 0, at0 (PG_EVT_PEND .rolC) 0, fldKey ROL_GONE_GONE 0 (h.val / 32)] s t) ∧
  (∀ (pa : Path) (l : Nat) (s : State), pageOpen s.chip pa .rolC 0 →
    l = getF s.chip ROL_PROBE_LINE_HI 0 * 2 ^ 32 + getF s.chip ROL_PROBE_LO_LINE_LO 0 →
    ∃ t, exec (.rolProbe pa) s = .next t ∧ getF t.chip ROL_PROBE_HIT 0 = b2n (rolEntry s.chip l).isSome ∧
      getF t.chip ROL_PROBE_LOCKED 0 = b2n (lineLocked s.chip l) ∧
      getF t.chip ROL_PROBE_E0_ENTRY 0 = ((rolEntry s.chip l).map (entryBits l)).getD 0 % 2 ^ 32 ∧
      getF t.chip ROL_PROBE_E1_ENTRY 0 = ((rolEntry s.chip l).map (entryBits l)).getD 0 / 2 ^ 32 % 2 ^ 32 ∧
      changesOnly [] [at0 ROL_PROBE_HIT 0, at0 ROL_PROBE_LOCKED 0, at0 ROL_PROBE_E0_ENTRY 0, at0 ROL_PROBE_E1_ENTRY 0] s t) ∧
  (∀ (pa : Path) (s : State), pageOpen s.chip pa .rolC 0 →
    ∃ t, exec (.rolParkHwClr pa) s = .next t ∧
      getF t.chip ROL_PARK_HW_HW 0 = parkUsed s.chip % 2 ^ ROL_PARK_HW_HW.w ∧
      changesOnly [] [at0 ROL_PARK_HW_HW 0] s t)

/-- Slate entries: drains, their ends, waiting writes and lost lines. One OPEN entry of an ordinary RESIDENT tile,
with nothing in flight: its age limit, and GO of SLT_DRAIN, make it DRAINING and send its bytes to the device; its
completed drain write frees it, and a failed one declares its line lost with the loss log, the lost-line table and
SLT_LOST; an uncorrectable entry is lost with cause SRAM. GO ends, with SLT_DRAIN_DONE, when every entry of it is
gone. A lone partial write that waited for an entry gets a new one once its slate has room, is answered Cmp, and frees
its credits if it withheld them. A lost line of a RESIDENT tile is written at the device with poison. SLT_OCC_HW_CLR
sets HW to the present occupancy, of the entries that no port reset has taken out of it. (derived; R430, R431, R433,
R441, R442, R443, R444.) -/
def Obligations.SlatesDrain : Prop :=
  let placed (l : Nat) (x : Entry) (s : State) : Prop :=
    l < 2 ^ 44 ∧ mapRunning s.chip = true ∧ s.chip.map.unreadable = [] ∧ s.chip.map.placing = [] ∧
      residentAt s.chip l x ∧ s.chip.bnd.drainOwed = [] ∧ (s.chip.ten.st.all fun y => !y.2.job.chunk) = true
  let only (e : SlateEntry) (x : Entry) (s : State) : Prop :=
    s.chip.slt.entries = [e] ∧ s.chip.txns = [] ∧ e.draining = false ∧ e.trig = none ∧ e.shared = false ∧
      e.ecc = Ecc.none ∧ placed e.line x s
  let goes (e : SlateEntry) (x : Entry) (s t : State) : Prop :=
    t.chip.sent = .devWr (locPort x.loc0) (s.chip.nextTxn + 1) (locTile x.loc0) (lineInTile e.line) e.mask e.data false ::
        s.chip.sent ∧
      t.chip.slt.entries = [{ e with draining := true, txn := some s.chip.nextTxn }] ∧
      keepsParts [.fld, .txns, .slt, .map, .cnt, .sent] s.chip t.chip ∧ t.recs = s.recs ∧ t.pending = s.pending
  let lost (e : SlateEntry) (cause : Nat) (s t : State) : Prop :=
    t.chip.slt.entries = [] ∧ t.chip.slt.lost = [(e.line, e.port)] ∧ errBit t.chip .slt e.port 0 ∧
      evtBit t.chip .slt e.port 0 ∧
      (tenSt t.chip e.ten).log = (tenSt s.chip e.ten).log ++ [{ line := e.line, cause := cause }] ∧
      (tenSt t.chip e.ten).nlost = (tenSt s.chip e.ten).nlost + 1 ∧
      keepsParts [.fld, .txns, .slt, .ten, .flt, .cnt] s.chip t.chip ∧ t.recs = s.recs ∧ t.pending = s.pending
  (∀ (p : Port) (l : PLine) (e : SlateEntry) (x : Entry) (s : State), only e x s → e.port = p.val → e.line = l.val →
    tmbRuns s.chip = true →
    (∃ t, exec (.slateAgeDrain p l 0) s = .next t ∧ goes e x s t) ∧
    (s.chip.slt.lost = [] → (tenSt s.chip e.ten).log.length < 64 →
      ∃ t, exec (.slateAgeDrain p l 2) s = .next t ∧ lost e 4 s t)) ∧
  (∀ (pa : Path) (p : Port) (e : SlateEntry) (x : Entry) (s : State), pageOpen s.chip pa .slt p.val → only e x s →
    e.port = p.val →
    ∃ t, exec (.sltDrain pa p) s = .next t ∧ goes e x s t ∧ getF t.chip SLT_DRAIN_GO p.val = 1) ∧
  (∀ (p : Port) (l : PLine) (e : SlateEntry) (u : Txn) (s : State), s.chip.slt.entries = [e] → s.chip.txns = [u] →
    e.draining = true → e.port = p.val → e.line = l.val → e.txn = some u.id → u.stage = .done →
    s.chip.bnd.drainOwed = [] → (s.chip.ten.st.all fun y => !y.2.job.chunk) = true → e.line < 2 ^ 44 →
    (u.res = 1 → ∃ t, exec (.slateDrainComplete p l 0) s = .next t ∧ t.chip.slt.entries = [] ∧ t.chip.txns = [] ∧
      keepsParts [.txns, .slt, .ten] s.chip t.chip ∧ t.recs = s.recs ∧ t.pending = s.pending) ∧
    (u.res = 2 → s.chip.slt.lost = [] → (tenSt s.chip e.ten).log.length < 64 →
      ∃ t, exec (.slateDrainComplete p l 0) s = .next t ∧ lost e 0 s t ∧ t.chip.txns = [])) ∧
  (∀ (p : Port) (s : State), getF s.chip SLT_DRAIN_GO p.val = 1 → kvGet [] s.chip.slt.drainAll p.val = [] →
    ∃ t, exec (.sltDrainDone p) s = .next t ∧ getF t.chip SLT_DRAIN_GO p.val = 0 ∧ evtBit t.chip .slt p.val 1 ∧
      changesOnly [.slt] [at0 SLT_DRAIN_GO p.val, at0 (PG_EVT_PEND .slt) p.val] s t) ∧
  (∀ (p : Port) (u : Txn) (s : State), s.chip.txns = [u] → u.port = p.val → u.stage = .slateIngress → u.kind = .wr →
    u.rtype = 1 → u.shared = false → u.lostLink = false → (u.ten.all fun x => tenGen s.chip x == u.gen) = true →
    s.chip.slt.entries = [] → s.chip.pwr.warn = false → 1 ≤ getF s.chip SLT_WAT_HIWAT p.val →
    s.chip.bnd.drainOwed = [] → (s.chip.ten.st.all fun y => !y.2.job.chunk) = true →
    ∃ t, exec (.slateWaitResume p) s = .next t ∧ t.chip.sent = .host p.val u.tag (.cmp none) :: s.chip.sent ∧
      t.chip.txns = [] ∧ t.chip.slt.entries = [newEntry u s.chip] ∧
      t.chip.lnk = (whenB u.owes (requestCredits p.val true) s.chip).lnk ∧
      changesOnly [.lnk, .txns, .slt, .cnt, .sent] [at0 SLT_OCC_HW_HW p.val] s t) ∧
  (∀ (l : PLine) (q : Nat) (x : Entry) (s : State), s.chip.slt.lost = [(l.val, q)] → placed l.val x s →
    s.chip.txns = [] → s.chip.slt.poisoning = [] →
    ∃ t, exec (.lostLinePoisonWrite l) s = .next t ∧
      t.chip.sent = .devWr (locPort x.loc0) (s.chip.nextTxn + 1) (locTile x.loc0) (lineInTile l.val) fullMask 0#512 true ::
        s.chip.sent ∧
      t.chip.slt.poisoning = [l.val] ∧ t.chip.slt.lost = [(l.val, q)] ∧
      keepsParts [.txns, .slt, .map, .cnt, .sent] s.chip t.chip ∧ t.recs = s.recs ∧ t.pending = s.pending) ∧
  (∀ (pa : Path) (p : Port) (s : State), pageOpen s.chip pa .slt p.val →
    ∃ t, exec (.sltOccHwClr pa p) s = .next t ∧
      getF t.chip SLT_OCC_HW_HW p.val = slateShown s.chip p.val % 2 ^ SLT_OCC_HW_HW.w ∧
      changesOnly [] [at0 SLT_OCC_HW_HW p.val] s t)

/-- Bells. A bell that covers nothing, with nothing in flight and no bell before it, completes at once with the bell
value of R440, the next SEQ and a lost count of 0; one that the control page does not admit is answered Unsupported
Request with TEN_PAGE_DENIED. A bell with one OPEN entry of its tenancy on a RESIDENT tile makes it DRAINING and waits
for it. An open bell of the tenancy's present generation that nothing keeps open completes, and one that an entry
keeps open does not. A bell gives back its request's credits. At the limit of the tenancy's one open bell the line of
an OPEN entry is lost with cause LIMIT, and the bell completes with LIMIT and that loss counted; of no other bell is
there a limit. (derived; R435, R436, R438, R439, R440.) -/
def Obligations.BellsComplete : Prop :=
  let answered (b : Bell) (x : Nat) (v : TenSt) (limit : Bool) (s t : State) : Prop :=
    t.chip.sent = .host b.port b.tag (.ioData (bellValue v limit)) :: s.chip.sent ∧
      (tenSt t.chip x).nlost = 0 ∧ (tenSt t.chip x).seq = ((tenSt s.chip x).seq + 1) % 65536 ∧ (tenSt t.chip x).bells = []
  (∀ (p : Port) (n : Ten) (pasid : Option (Fin 1048576)) (eight : Bool) (tag : Nat) (b : Bell) (s : State),
    carriesMem s.chip p.val = true → pageAdmits s.chip p.val n.val (pasid.map (·.val)) = true → s.chip.idle = true →
    (tenSt s.chip n.val).bells = [] → b.port = p.val → b.tag = tag →
    ∃ t, exec (.bell p n pasid eight tag) s = .next t ∧ answered b n.val (tenSt s.chip n.val) false s t ∧
      t.chip.lnk = (ioCredits p.val false s.chip).lnk ∧ changesOnly [.lnk, .ten, .cnt, .sent] [] s t) ∧
  (∀ (p : Port) (n : Ten) (pasid : Option (Fin 1048576)) (eight : Bool) (tag : Nat) (s : State),
    carriesMem s.chip p.val = true → pageAdmits s.chip p.val n.val (pasid.map (·.val)) = false →
    ∃ t, exec (.bell p n pasid eight tag) s = .next t ∧ t.chip.sent = .host p.val tag .ur :: s.chip.sent ∧
      evtBit t.chip .ten n.val 2 ∧ t.chip.lnk = (ioCredits p.val false s.chip).lnk ∧
      changesOnly [.lnk, .cnt, .sent] [at0 (PG_EVT_PEND .ten) n.val] s t) ∧
  (∀ (p : Port) (n : Ten) (pasid : Option (Fin 1048576)) (eight : Bool) (tag : Nat) (e : SlateEntry) (x : Entry)
    (s : State), carriesMem s.chip p.val = true → pageAdmits s.chip p.val n.val (pasid.map (·.val)) = true →
    (tenSt s.chip n.val).bells = [] → s.chip.slt.entries = [e] → s.chip.txns = [] → e.ten = n.val → e.draining = false →
    e.shared = false → e.ecc = Ecc.none → e.line < 2 ^ 44 → mapRunning s.chip = true → s.chip.map.unreadable = [] →
    s.chip.map.placing = [] → residentAt s.chip e.line x → s.chip.bnd.drainOwed = [] →
    (s.chip.ten.st.all fun y => !y.2.job.chunk) = true →
    ∃ t, exec (.bell p n pasid eight tag) s = .next t ∧
      (tenSt t.chip n.val).bells.map (fun b => (b.tag, b.covers)) = [(tag, [e.id])] ∧
      t.chip.slt.entries.map (fun y => (y.id, y.draining)) = [(e.id, true)] ∧
      t.chip.sent = .devWr (locPort x.loc0) (s.chip.nextTxn + 1) (locTile x.loc0) (lineInTile e.line) e.mask e.data false ::
        s.chip.sent ∧
      t.chip.lnk = (ioCredits p.val false s.chip).lnk ∧
      keepsParts [.lnk, .txns, .slt, .ten, .map, .cnt, .sent] s.chip t.chip ∧ t.recs = s.recs ∧ t.pending = s.pending) ∧
  (∀ (n : Ten) (b : Bell) (s : State), (tenSt s.chip n.val).bells = [b] → b.internal = false →
    (b.covers ≠ [] → exec (.bellComplete n) s = .next s) ∧
    (b.covers = [] → b.lostLink = false → b.gen = tenGen s.chip n.val →
      ∃ t, exec (.bellComplete n) s = .next t ∧ answered b n.val (tenSt s.chip n.val) b.limit s t ∧
        changesOnly [.ten, .cnt, .sent] [] s t)) ∧
  (∀ (n : Ten) (b : Bell) (e : SlateEntry) (s : State), (tenSt s.chip n.val).bells = [b] → b.internal = false →
    b.covers = [e.id] → b.lostLink = false → b.gen = tenGen s.chip n.val → tmbRuns s.chip = true →
    s.chip.slt.entries = [e] → e.ten = n.val → e.draining = false → e.line < 2 ^ 44 → s.chip.slt.lost = [] →
    s.chip.txns = [] → (tenSt s.chip n.val).log.length < 64 → s.chip.bnd.drainOwed = [] →
    (s.chip.ten.st.all fun y => !y.2.job.chunk) = true →
    ∃ t, exec (.bellLimit n 0) s = .next t ∧
      answered b n.val { tenSt s.chip n.val with nlost := (tenSt s.chip n.val).nlost + 1 } true s t ∧
      (tenSt t.chip n.val).log = (tenSt s.chip n.val).log ++ [{ line := e.line, cause := 3 }] ∧
      t.chip.slt.entries = [] ∧ t.chip.slt.lost = [(e.line, e.port)] ∧ errBit t.chip .slt e.port 0 ∧
      keepsParts [.fld, .slt, .ten, .flt, .cnt, .sent] s.chip t.chip ∧ t.recs = s.recs ∧ t.pending = s.pending) ∧
  (∀ (n : Ten) (k : Nat) (s : State), (tenSt s.chip n.val).bells.length ≤ k → exec (.bellLimit n k) s = .next s)

/-- Tenancy states, resets and freezes. A command of TEN_CMD is refused with the code of R456 where its state or a
check does not allow it, and changes nothing else. ENABLE turns an OFF tenancy ON; THAW turns a FROZEN one ON and
unpauses its job. FREEZE sets FROZEN at once and ends when its internal bell has completed and nothing of the tenancy
remains; at the drain limit it ends with TIMEOUT. RESET, DISABLE and an allowed TC_SELF (TEN_SELF_RST) put the tenancy
into RESETTING (nothing in flight, no job, empty queue), the job's status with it. Drained, or at the drain limit with
TEN_DRAIN_TIMEOUT, it returns to its state with the next generation, buckets at the bursts in use and SEQ 0, a DISABLE
to OFF with its log, job and record buffer cleared; not drained, it stays. (derived; R456, R463, R466.) -/
def Obligations.TenancyCommands : Prop :=
  let opened (pa : Path) (n : Ten) (s : State) : Prop :=
    pageOpen s.chip pa .ten n.val ∧ getF s.chip TEN_CMD_GO n.val = 0
  let ended (n : Ten) (op st : Nat) (ks : List Nat) (s t : State) : Prop :=
    getF t.chip TEN_CMD_OP n.val = op ∧ getF t.chip TEN_CMD_GO n.val = 0 ∧ getF t.chip TEN_CMD_STATUS n.val = st ∧
      evtBit t.chip .ten n.val 0 ∧
      changesOnly [.ten, .cnt] ([at0 TEN_CMD_OP n.val, at0 TEN_CMD_GO n.val, at0 TEN_CMD_STATUS n.val,
        at0 (PG_EVT_PEND .ten) n.val] ++ ks) s t
  let quiet (n : Ten) (s : State) : Prop :=
    s.chip.idle = true ∧ (tenSt s.chip n.val).queue = [] ∧ (tenSt s.chip n.val).job.go = false
  let resets (n : Ten) (self dis : Bool) (ks : List Nat) (s t : State) : Prop :=
    getF t.chip TEN_STAT_STATE n.val = 3 ∧
      t.chip.ten = (setTenSt n.val { tenSt s.chip n.val with
        prev := tenState s.chip n.val, resetting := true, disabling := dis, selfReset := self,
        job := { (tenSt s.chip n.val).job with status := 0 } } s.chip).ten ∧
      changesOnly (if self then [.ten, .lnk] else [.ten]) (at0 TEN_STAT_STATE n.val :: ks) s t
  let finished (n : Ten) (s t : State) : Prop :=
    getF t.chip TEN_STAT_GEN n.val = (tenGen s.chip n.val + 1) % 65536 ∧ (tenSt t.chip n.val).seq = 0 ∧
      getF t.chip TEN_STAT_STATE n.val = (if (tenSt s.chip n.val).disabling then 0
        else (tenSt s.chip n.val).prev % 2 ^ TEN_STAT_STATE.w) ∧
      getF t.chip SHP_PTOK_TOK n.val = (tenSt s.chip n.val).pBurst * 256 % 2 ^ SHP_PTOK_TOK.w ∧
      getF t.chip SHP_STOK_TOK n.val = (tenSt s.chip n.val).sBurst * 256 % 2 ^ SHP_STOK_TOK.w ∧
      (tenSt t.chip n.val).log = (if (tenSt s.chip n.val).disabling then [] else (tenSt s.chip n.val).log) ∧
      t.recs = (if (tenSt s.chip n.val).disabling then clearRec s.recs n.val else s.recs) ∧
      ((tenSt s.chip n.val).selfReset = false → getF t.chip TEN_CMD_GO n.val = 0 ∧ getF t.chip TEN_CMD_STATUS n.val = 1) ∧
      (tenSt t.chip n.val).job = (if (tenSt s.chip n.val).disabling then Job.idle else (tenSt s.chip n.val).job) ∧
      t.chip.rak = (if (tenSt s.chip n.val).disabling then forgetJob n.val s.chip else s.chip).rak ∧
      keepsParts [.fld, .ten, .rak, .cnt, .flt] s.chip t.chip ∧ t.pending = s.pending
  (∀ (pa : Path) (n : Ten) (s : State), opened pa n s →
    (tenState s.chip n.val ≠ 0 → ∃ t, exec (.tenEnable pa n) s = .next t ∧ ended n 1 3 [] s t) ∧
    (tenState s.chip n.val = 0 → enableStatus s.chip n.val ≠ 1 →
      ∃ t, exec (.tenEnable pa n) s = .next t ∧ ended n 1 (enableStatus s.chip n.val) [] s t) ∧
    (tenState s.chip n.val = 0 → enableStatus s.chip n.val = 1 →
      ∃ t, exec (.tenEnable pa n) s = .next t ∧ getF t.chip TEN_STAT_STATE n.val = 1 ∧
        ended n 1 1 [at0 TEN_STAT_STATE n.val] s t) ∧
    (tenState s.chip n.val ≠ 2 → ∃ t, exec (.tenThaw pa n) s = .next t ∧ ended n 4 3 [] s t) ∧
    (tenState s.chip n.val = 2 → ∃ t, exec (.tenThaw pa n) s = .next t ∧ getF t.chip TEN_STAT_STATE n.val = 1 ∧
      (tenSt t.chip n.val).job = { (tenSt s.chip n.val).job with paused := false } ∧
      ended n 4 1 [at0 TEN_STAT_STATE n.val] s t) ∧
    (∃ t, exec (.tenCmdBadOp pa n) s = .next t ∧ ended n 0 2 [] s t)) ∧
  (∀ (pa : Path) (n : Ten) (s : State), opened pa n s →
    (tenState s.chip n.val = 0 ∨ tenState s.chip n.val = 3 →
      (∃ t, exec (.tenDisable pa n) s = .next t ∧ ended n 2 3 [] s t) ∧
      (∃ t, exec (.tenReset pa n) s = .next t ∧ ended n 5 3 [] s t) ∧
      (∃ t, exec (.tenFreeze pa n) s = .next t ∧ ended n 3 3 [] s t)) ∧
    (tenState s.chip n.val = 1 ∨ tenState s.chip n.val = 2 → tenHasWindow s.chip n.val = true →
      ∃ t, exec (.tenDisable pa n) s = .next t ∧ ended n 2 7 [] s t) ∧
    (tenState s.chip n.val = 1 ∨ tenState s.chip n.val = 2 → tenHasWindow s.chip n.val = false → quiet n s →
      ∃ t, exec (.tenDisable pa n) s = .next t ∧ getF t.chip TEN_CMD_GO n.val = 1 ∧
        resets n false true [at0 TEN_CMD_OP n.val, at0 TEN_CMD_GO n.val] s t) ∧
    (tenState s.chip n.val = 1 ∨ tenState s.chip n.val = 2 → quiet n s →
      ∃ t, exec (.tenReset pa n) s = .next t ∧ getF t.chip TEN_CMD_GO n.val = 1 ∧
        resets n false false [at0 TEN_CMD_OP n.val, at0 TEN_CMD_GO n.val] s t) ∧
    (tenState s.chip n.val = 1 → quiet n s →
      ∃ t, exec (.tenFreeze pa n) s = .next t ∧ getF t.chip TEN_STAT_STATE n.val = 2 ∧
        getF t.chip TEN_CMD_GO n.val = 1 ∧
        t.chip.ten = (setTenSt n.val { tenSt s.chip n.val with
          freezing := true, bells := (tenSt s.chip n.val).bells ++ [internalBell s.chip n.val] } s.chip).ten ∧
        changesOnly [.ten] [at0 TEN_STAT_STATE n.val, at0 TEN_CMD_OP n.val, at0 TEN_CMD_GO n.val] s t)) ∧
  (∀ (n : Ten) (b : Bell) (s : State), (tenSt s.chip n.val).freezing = true → (tenSt s.chip n.val).bells = [b] →
    b.internal = true → b.covers = [] → (tenSt s.chip n.val).job.chunk = false →
    (tenDrained s.chip n.val = true → ∃ t, exec (.tenFreezeComplete n) s = .next t ∧
      (tenSt t.chip n.val).freezing = false ∧ (tenSt t.chip n.val).bells = [] ∧
      ended n (getF s.chip TEN_CMD_OP n.val) 1 [] s t) ∧
    (tenDrained s.chip n.val = false → tmbRuns s.chip = true → (tenSt s.chip n.val).resetting = false →
      ∃ t, exec (.tenDrainTimeout n) s = .next t ∧ (tenSt t.chip n.val).freezing = false ∧
        ended n (getF s.chip TEN_CMD_OP n.val) 9 [] s t)) ∧
  (∀ (p : Port) (n : Ten) (pasid : Option (Fin 1048576)) (s : State), carriesMem s.chip p.val = true →
    pageAdmits s.chip p.val n.val (pasid.map (·.val)) = true →
    (getF s.chip TEN_CFG_SELFRST n.val = 1 → getF s.chip TEN_CMD_GO n.val = 0 →
      tenState s.chip n.val = 1 ∨ tenState s.chip n.val = 2 → quiet n s →
      ∃ t, exec (.tcSelfReset p n pasid) s = .next t ∧ evtBit t.chip .ten n.val 1 ∧ t.chip.lnk = (ioCredits p.val true s.chip).lnk ∧
        resets n true false [at0 (PG_EVT_PEND .ten) n.val] s t) ∧
    (getF s.chip TEN_CFG_SELFRST n.val = 0 →
      ∃ t, exec (.tcSelfReset p n pasid) s = .next t ∧ t.chip.lnk = (ioCredits p.val true s.chip).lnk ∧
        changesOnly [.lnk, .cnt] [] s t)) ∧
  (∀ (n : Ten) (s : State), (tenSt s.chip n.val).resetting = true →
    (tenDrained s.chip n.val = true → ∃ t, exec (.tenResetDrained n) s = .next t ∧ finished n s t) ∧
    (tenDrained s.chip n.val = false → exec (.tenResetDrained n) s = .next s) ∧
    (tenDrained s.chip n.val = false → tmbRuns s.chip = true →
      ∃ t, exec (.tenDrainTimeout n) s = .next t ∧ errBit t.chip .ten n.val 0 ∧ finished n s t))

/-- The tenancy record. A SAVE of a FROZEN tenancy writes the 1,024 bytes of its record, its CRC last, into its buffer
and no other byte; in another state it is refused with BAD_STATE. A RESTORE of an OFF tenancy whose record passes the
checks leaves it FROZEN with the record's generation plus 1, the settings that their fields can hold (a PASID by its
low 20 bits, log entry 46), its loss log, counts and paused job, which waits for a slot, and every byte of the buffers
as before; one that fails a check is refused with its code. (derived; R456, R468, R470.) -/
def Obligations.RecordsSaveAndRestore : Prop :=
  let held (s : State) (n : Ten) (o k : Nat) : Nat := readLe s.recs (recAddr n.val o) k
  let opened (pa : Path) (n : Ten) (s : State) : Prop :=
    pageOpen s.chip pa .ten n.val ∧ getF s.chip TEN_CMD_GO n.val = 0
  let ended (n : Ten) (op st : Nat) (s t : State) : Prop :=
    getF t.chip TEN_CMD_OP n.val = op ∧ getF t.chip TEN_CMD_GO n.val = 0 ∧ getF t.chip TEN_CMD_STATUS n.val = st ∧
      evtBit t.chip .ten n.val 0 ∧ t.pending = s.pending
  let refused (n : Ten) (op st : Nat) (s t : State) : Prop :=
    ended n op st s t ∧ changesOnly [] [at0 TEN_CMD_OP n.val, at0 TEN_CMD_GO n.val, at0 TEN_CMD_STATUS n.val,
      at0 (PG_EVT_PEND .ten) n.val] s t
  (∀ (pa : Path) (n : Ten) (s : State), opened pa n s →
    (tenState s.chip n.val ≠ 2 → ∃ t, exec (.tenSave pa n) s = .next t ∧ refused n 6 3 s t) ∧
    (tenState s.chip n.val = 2 → s.lawful = true →
      ∃ t, exec (.tenSave pa n) s = .next t ∧ ended n 6 1 s t ∧ t.lawful = true ∧
        (∀ o : Fin 1024, some (readByte t.recs (recAddr n.val o.val)) = (recordBytes s.chip n.val)[o.val]?) ∧
        (∀ a : Nat, a / 1024 ≠ n.val → readByte t.recs a = readByte s.recs a) ∧
        keepsParts [.fld, .cnt] s.chip t.chip ∧
        keepsRegs [at0 TEN_CMD_OP n.val, at0 TEN_CMD_GO n.val, at0 TEN_CMD_STATUS n.val, at0 (PG_EVT_PEND .ten) n.val]
          s.chip t.chip)) ∧
  (∀ (pa : Path) (n : Ten) (s : State), opened pa n s →
    (tenState s.chip n.val ≠ 0 → ∃ t, exec (.tenRestore pa n) s = .next t ∧ refused n 7 3 s t) ∧
    (tenState s.chip n.val = 0 → restoreStatus s n.val ≠ 1 →
      ∃ t, exec (.tenRestore pa n) s = .next t ∧ refused n 7 (restoreStatus s n.val) s t) ∧
    (tenState s.chip n.val = 0 → restoreStatus s n.val = 1 →
      ∃ t, exec (.tenRestore pa n) s = .next t ∧ ended n 7 1 s t ∧ t.recs = s.recs ∧
        getF t.chip TEN_STAT_STATE n.val = 2 ∧
        getF t.chip TEN_STAT_GEN n.val = (held s n 0x00E 2 + 1) % 65536 ∧
        (∀ e ∈ recordSettings (held s n), getF t.chip e.1 n.val =
          if fldTakes e.1 e.2 then e.2 % 2 ^ e.1.w else getF s.chip e.1 n.val) ∧
        t.chip.ten = (setTenSt n.val (recordTenSt (held s n) (tenSt s.chip n.val)) s.chip).ten ∧
        t.chip.rak = (queueJob n.val (setTenSt n.val (recordTenSt (held s n) (tenSt s.chip n.val)) s.chip)).rak ∧
        keepsParts [.fld, .ten, .rak, .cnt] s.chip t.chip ∧
        keepsRegs ((recordSettings (held s n)).map (fun e => at0 e.1 n.val) ++ [at0 TEN_CMD_OP n.val, at0 TEN_CMD_GO n.val,
          at0 TEN_CMD_STATUS n.val, at0 (PG_EVT_PEND .ten) n.val]) s.chip t.chip))

/-- The control page, loss clears, buckets and shaper slots. A served read of a control page returns its word; a
served access changes nothing else but the link credits it frees; a read that the page does not admit
(TEN_PAGE_DENIED), or one that is misaligned or not of 4 or 8 bytes, is answered Unsupported Request; an aligned read
at 0x800 is the bell; a 4-byte write of the job's length is taken while no job runs and discarded while one runs. A
loss clear drops the oldest entries that it names, and clears the overflow count when bit 31 says so. A refill gives
the buckets of R458 and takes over the settings (one tenancy, empty queue). A read at the head of the shaper queue
goes on when its bucket holds its cost, which is taken, and waits otherwise. A change of the shaper slots or of the
enable that keeps the sum of R461 is taken; one that would break it is ignored and sets QREFUSED. (derived; R453,
R454, R458, R460, R461, R462.) -/
def Obligations.ControlPageAndShaping : Prop :=
  (∀ (p : Port) (off : Fin 16777216) (eight : Bool) (n : Ten) (pasid : Option (Fin 1048576)) (tag : Nat) (s : State),
    carriesMem s.chip p.val = true → n.val = off.val / 4096 →
    (pageAdmits s.chip p.val n.val (pasid.map (·.val)) = true → bellOffset (off.val % 4096) = false →
      (off.val % (if eight then 8 else 4) = 0 →
        ∃ t, exec (.controlPageAccess p off eight true none pasid tag) s = .next t ∧
        t.chip.sent = .host p.val tag (.ioData (ctlReadValue s.chip n.val (off.val % 4096) eight)) :: s.chip.sent ∧
        t.chip.lnk = (ioCredits p.val false s.chip).lnk ∧ changesOnly [.lnk, .sent] [] s t) ∧
      (∀ (whole : Bool), whole = false ∨ off.val % (if eight then 8 else 4) ≠ 0 →
        ∃ t, exec (.controlPageAccess p off eight whole none pasid tag) s = .next t ∧
        t.chip.sent = .host p.val tag .ur :: s.chip.sent ∧ t.chip.lnk = (ioCredits p.val false s.chip).lnk ∧
        changesOnly [.lnk, .sent] [] s t)) ∧
    (pageAdmits s.chip p.val n.val (pasid.map (·.val)) = false → bellOffset (off.val % 4096) = false →
      ∃ t, exec (.controlPageAccess p off eight true none pasid tag) s = .next t ∧
        t.chip.sent = .host p.val tag .ur :: s.chip.sent ∧ evtBit t.chip .ten n.val 2 ∧
        t.chip.lnk = (ioCredits p.val false s.chip).lnk ∧
        changesOnly [.lnk, .cnt, .sent] [at0 (PG_EVT_PEND .ten) n.val] s t) ∧
    (off.val % 4096 = 0x800 →
      exec (.controlPageAccess p off eight true none pasid tag) s = exec (.bell p n pasid eight tag) s)) ∧
  (∀ (p : Port) (off : Fin 16777216) (v : BitVec 64) (n : Ten) (pasid : Option (Fin 1048576)) (tag : Nat) (s : State),
    carriesMem s.chip p.val = true → n.val = off.val / 4096 → off.val % 4096 = 0x110 →
    pageAdmits s.chip p.val n.val (pasid.map (·.val)) = true →
    ((tenSt s.chip n.val).job.go = false →
      ∃ t, exec (.controlPageAccess p off false true (some v) pasid tag) s = .next t ∧
        t.chip.ten = (setTenSt n.val { tenSt s.chip n.val with jLen := v.toNat % 2 ^ 31 } s.chip).ten ∧
        t.chip.lnk = (ioCredits p.val true s.chip).lnk ∧ changesOnly [.lnk, .ten] [] s t) ∧
    ((tenSt s.chip n.val).job.go = true →
      exec (.controlPageAccess p off false true (some v) pasid tag) s = .next (onChip s (ioCredits p.val true)))) ∧
  (∀ (p : Port) (n : Ten) (pasid : Option (Fin 1048576)) (v : Word) (s : State),
    carriesMem s.chip p.val = true → pageAdmits s.chip p.val n.val (pasid.map (·.val)) = true →
    ∃ t, exec (.tcLossClr p n pasid v) s = .next t ∧
      t.chip.ten = (setTenSt n.val { tenSt s.chip n.val with
        log := (tenSt s.chip n.val).log.drop (v.toNat % 128),
        ovf := if bit v.toNat 31 then 0 else (tenSt s.chip n.val).ovf } s.chip).ten ∧
      t.chip.lnk = (ioCredits p.val true s.chip).lnk ∧ changesOnly [.lnk, .ten] [] s t) ∧
  (∀ (pa : Path) (n : Ten) (v : Word) (s : State), pageOpen s.chip pa .ten n.val →
    ∃ t, exec (.tenLossClr pa n v) s = .next t ∧
      t.chip.ten = (setTenSt n.val { tenSt s.chip n.val with
        log := (tenSt s.chip n.val).log.drop (v.toNat % 128),
        ovf := if bit v.toNat 31 then 0 else (tenSt s.chip n.val).ovf } s.chip).ten ∧
      changesOnly [.ten] [] s t) ∧
  (∀ (n : Ten) (s : State), tmbRuns s.chip = true → refillTens s.chip = [n.val] → s.chip.idle = true →
    (tenSt s.chip n.val).queue = [] →
    ∃ t, exec .bucketRefill s = .next t ∧
      getF t.chip SHP_PTOK_TOK n.val = refillBucket (tenSt s.chip n.val).pEn (getF s.chip SHP_PRATE_EN n.val != 0)
        (getF s.chip SHP_PTOK_TOK n.val) (getF s.chip SHP_PRATE_RATE n.val) (pFull s.chip n.val) % 2 ^ SHP_PTOK_TOK.w ∧
      getF t.chip SHP_STOK_TOK n.val = refillBucket (tenSt s.chip n.val).sEn (getF s.chip SHP_SRATE_EN n.val != 0)
        (getF s.chip SHP_STOK_TOK n.val) (getF s.chip SHP_SRATE_RATE n.val) (sFull s.chip n.val) % 2 ^ SHP_STOK_TOK.w ∧
      t.chip.ten = (setTenSt n.val { tenSt s.chip n.val with
        pEn := getF s.chip SHP_PRATE_EN n.val != 0, sEn := getF s.chip SHP_SRATE_EN n.val != 0,
        qmaxNow := getF s.chip SHP_SBURST_QMAX n.val, wNow := getF s.chip SHP_WEIGHT_W n.val,
        pBurst := getF s.chip SHP_PBURST_BURST n.val, sBurst := getF s.chip SHP_SBURST_BURST n.val } s.chip).ten ∧
      changesOnly [.ten] [at0 SHP_PTOK_TOK n.val, at0 SHP_STOK_TOK n.val] s t) ∧
  (∀ (n : Ten) (u : Txn) (x : Entry) (s : State), s.chip.txns = [u] → (tenSt s.chip n.val).queue = [u.id] →
    (tenSt s.chip n.val).sEn = true → u.stage = .shaper → u.kind = .rd → u.rtype = 0 → u.shared = false →
    u.atom = none → u.ecc = Ecc.none → u.legs = [] → u.line < 2 ^ 44 → u.readDone = false → mapRunning s.chip = true →
    s.chip.map.unreadable = [] → s.chip.map.placing = [] → s.chip.slt.lost = [] → s.chip.rak.slots = [] →
    residentAt s.chip u.line x → s.chip.bnd.drainOwed = [] → (s.chip.ten.st.all fun y => !y.2.job.chunk) = true →
    (256 ≤ getF s.chip SHP_STOK_TOK n.val → ∃ t, exec (.shaperRelease n) s = .next t ∧
      t.chip.sent = .devRd (locPort x.loc0) s.chip.nextTxn (locTile x.loc0) (lineInTile u.line) :: s.chip.sent ∧
      (tenSt t.chip n.val).queue = [] ∧ getF t.chip SHP_STOK_TOK n.val = (getF s.chip SHP_STOK_TOK n.val - 256) % 2 ^ SHP_STOK_TOK.w ∧
      keepsParts [.fld, .ten, .txns, .map, .cnt, .sent] s.chip t.chip ∧ t.recs = s.recs ∧ t.pending = s.pending) ∧
    (getF s.chip SHP_STOK_TOK n.val < 256 → exec (.shaperRelease n) s = .next s)) ∧
  (∀ (pa : Path) (n : Ten) (q : Fin 2048) (s : State), pageOpen s.chip pa .shpT n.val → q.val ≤ 1024 →
    (getF s.chip SHP_SRATE_EN n.val = 0 ∨ slotsHold s.chip n.val q.val = true →
      ∃ t, exec (.shaperSlotWrite pa n (some q) none) s = .next t ∧ getF t.chip SHP_SBURST_QMAX n.val = q.val ∧
        changesOnly [] [at0 SHP_SBURST_QMAX n.val] s t) ∧
    (getF s.chip SHP_SRATE_EN n.val = 1 → q.val ≠ getF s.chip SHP_SBURST_QMAX n.val →
      slotsHold s.chip n.val q.val = false →
      ∃ t, exec (.shaperSlotWrite pa n (some q) none) s = .next t ∧ getF t.chip SHP_SQ_QREFUSED n.val = 1 ∧
        changesOnly [] [at0 SHP_SQ_QREFUSED n.val] s t) ∧
    (∀ (en : Bool), en = false ∨ slotsHold s.chip n.val (getF s.chip SHP_SBURST_QMAX n.val) = true →
      ∃ t, exec (.shaperSlotWrite pa n none (some en)) s = .next t ∧ getF t.chip SHP_SRATE_EN n.val = b2n en ∧
        changesOnly [] [at0 SHP_SRATE_EN n.val] s t) ∧
    (getF s.chip SHP_SRATE_EN n.val = 0 → slotsHold s.chip n.val (getF s.chip SHP_SBURST_QMAX n.val) = false →
      ∃ t, exec (.shaperSlotWrite pa n none (some true)) s = .next t ∧ getF t.chip SHP_SQ_QREFUSED n.val = 1 ∧
        changesOnly [] [at0 SHP_SQ_QREFUSED n.val] s t))

/-- Slot power channels: requests, presence, ramp, power-good. EN and REQ are as written, REQ by software only while
no port names the channel and else by that port; an OFF channel with EN, REQ and presence enters HOLD, and EN = 0 or
REQ = 0 turns the gate off. Presence qualified or lost changes PRESENT with SLP_PRES_CHG, a removal into OFF with
RETRY 0; in a break of the sideband chain neither does anything. The admitted channel enters RAMP, a gate within 0.5 V
of GOV as RAMP was entered takes it to QUALIFY, its qualify time to ON with PG 1; SLP_GATE reads the driven gate.
Rail-good lost in ON drops PG with its fault, and its return sets it. RETRY_CLEAR (PG held for 1 s) clears RETRY; a
shorted FET is a fault; PEAK_CLR sets PEAK to the present value. (derived; R510, R511, R513, R514, R517, R519, R521,
R522, R527.) -/
def Obligations.SlotChannelsTurnOn : Prop :=
  let gate (n : Chan) : List Nat := [at0 SLP_STAT_STATE n.val, at0 SLP_STAT_PG n.val, at0 SLP_STAT_LIMIT n.val,
    at0 SLP_STAT_GATEFULL n.val, at0 SLP_GATE_VGS n.val, at0 (PG_EVT_PEND .slp) n.val]
  let off (n : Chan) (t : State) : Prop :=
    getF t.chip SLP_STAT_STATE n.val = 0 ∧ getF t.chip SLP_STAT_PG n.val = 0 ∧ getF t.chip SLP_STAT_LIMIT n.val = 0 ∧
      getF t.chip SLP_STAT_GATEFULL n.val = 0 ∧ getF t.chip SLP_GATE_VGS n.val = 0
  let holds (n : Chan) (en req pres : Nat) (s t : State) : Prop :=
    getF t.chip SLP_STAT_STATE n.val =
      (if chanState s.chip n.val = 0 ∧ en ≠ 0 ∧ req ≠ 0 ∧ pres ≠ 0 then 1 else chanState s.chip n.val)
  (∀ (pa : Path) (n : Chan) (s : State), pageOpen s.chip pa .slp n.val →
    (∃ t, exec (.slpCfgEn pa n true) s = .next t ∧ getF t.chip SLP_CFG_EN n.val = 1 ∧
      holds n 1 (getF s.chip SLP_CTRL_REQ n.val) (getF s.chip SLP_STAT_PRESENT n.val) s t ∧
      changesOnly [] [at0 SLP_CFG_EN n.val, at0 SLP_STAT_STATE n.val] s t) ∧
    (∃ t, exec (.slpCfgEn pa n false) s = .next t ∧ getF t.chip SLP_CFG_EN n.val = 0 ∧ off n t ∧
      changesOnly [.slp, .prt] (at0 SLP_CFG_EN n.val :: gate n) s t) ∧
    (portOfChan s.chip n.val = none → ∃ t, exec (.slpReqWrite (some pa) n true) s = .next t ∧
      getF t.chip SLP_CTRL_REQ n.val = 1 ∧
      holds n (getF s.chip SLP_CFG_EN n.val) 1 (getF s.chip SLP_STAT_PRESENT n.val) s t ∧
      changesOnly [] [at0 SLP_CTRL_REQ n.val, at0 SLP_STAT_STATE n.val] s t) ∧
    (portOfChan s.chip n.val = none → getF s.chip SLP_CFG_EN n.val = 1 →
      ∃ t, exec (.slpReqWrite (some pa) n false) s = .next t ∧ getF t.chip SLP_CTRL_REQ n.val = 0 ∧
        getF t.chip SLP_STAT_RETRY n.val = 0 ∧ off n t ∧
        changesOnly [.slp, .prt] ([at0 SLP_CTRL_REQ n.val, at0 SLP_STAT_RETRY n.val] ++ gate n) s t) ∧
    ((portOfChan s.chip n.val).isSome = true → exec (.slpReqWrite (some pa) n true) s = .next s) ∧
    (∃ t, exec (.slpPeakClr pa n) s = .next t ∧ getF t.chip SLP_PEAK_PEAK n.val = getF s.chip SLP_SENSE_ISNS n.val % 2 ^ 16 ∧
      changesOnly [] [at0 SLP_PEAK_PEAK n.val] s t)) ∧
  (∀ (n : Chan) (p : Nat) (s : State), s.chip.pwr.vauxUp = true → portOfChan s.chip n.val = some p →
    slotPresent s.chip p = true → slotChan s.chip p = n.val →
    ∃ t, exec (.slpReqWrite none n true) s = .next t ∧ getF t.chip SLP_CTRL_REQ n.val = 1 ∧
      holds n (getF s.chip SLP_CFG_EN n.val) 1 (getF s.chip SLP_STAT_PRESENT n.val) s t ∧
      keepsParts [.fld, .prt, .lnk] s.chip t.chip ∧ t.recs = s.recs ∧ t.pending = s.pending) ∧
  (∀ (n : Chan) (s : State), chainBroken s.chip = true →
    exec (.presenceQualified n) s = .next s ∧ exec (.presenceRemoval n) s = .next s) ∧
  (∀ (n : Chan) (s : State), s.chip.pwr.vauxUp = true → portOfChan s.chip n.val = none → chainBroken s.chip = false →
    (rawPresent s.chip n.val = true → getF s.chip SLP_STAT_PRESENT n.val = 0 →
      ∃ t, exec (.presenceQualified n) s = .next t ∧ getF t.chip SLP_STAT_PRESENT n.val = 1 ∧ evtBit t.chip .slp n.val 2 ∧
        holds n (getF s.chip SLP_CFG_EN n.val) (getF s.chip SLP_CTRL_REQ n.val) 1 s t ∧
        changesOnly [.cnt] [at0 SLP_STAT_PRESENT n.val, at0 SLP_STAT_STATE n.val, at0 (PG_EVT_PEND .slp) n.val] s t) ∧
    (rawPresent s.chip n.val = false → getF s.chip SLP_STAT_PRESENT n.val = 1 →
      ∃ t, exec (.presenceRemoval n) s = .next t ∧ getF t.chip SLP_STAT_PRESENT n.val = 0 ∧ evtBit t.chip .slp n.val 2 ∧
        getF t.chip SLP_STAT_RETRY n.val = 0 ∧ off n t ∧
        changesOnly [.slp, .prt, .cnt] ([at0 SLP_STAT_PRESENT n.val, at0 SLP_STAT_RETRY n.val] ++ gate n) s t)) ∧
  (∀ (n : Chan) (s : State), s.chip.pwr.vauxUp = true →
    (admitted s.chip n.val = true → ∃ t, exec (.rampAdmit n) s = .next t ∧ getF t.chip SLP_STAT_STATE n.val = 2 ∧
      (slpSt t.chip n.val).rampRuns = true ∧ (slpSt t.chip n.val).gov = getF s.chip SLP_CFG_GOV n.val ∧
      t.chip.slp.lastRamp = some s.chip.slp.aux ∧ changesOnly [.slp, .cnt] [at0 SLP_STAT_STATE n.val] s t) ∧
    (admitted s.chip n.val = false → exec (.rampAdmit n) s = .next s) ∧
    (∀ v : Fin 65536, chanState s.chip n.val = 2 → 1000 * (slpSt s.chip n.val).gov ≤ v.val + 500 →
      ∃ t, exec (.gateFull n v) s = .next t ∧ getF t.chip SLP_STAT_STATE n.val = 3 ∧
        getF t.chip SLP_STAT_GATEFULL n.val = 1 ∧ getF t.chip SLP_GATE_VGS n.val = v.val ∧
        changesOnly [.slp] [at0 SLP_STAT_STATE n.val, at0 SLP_STAT_GATEFULL n.val, at0 SLP_GATE_VGS n.val] s t) ∧
    (∀ v : Fin 65536, gateDriven s.chip n.val = true → v.val + 500 < 1000 * (slpSt s.chip n.val).gov →
      ∃ t, exec (.gateFull n v) s = .next t ∧ getF t.chip SLP_GATE_VGS n.val = v.val ∧
        changesOnly [] [at0 SLP_GATE_VGS n.val] s t) ∧
    (chanState s.chip n.val = 3 → (slpSt s.chip n.val).railLow = false → getF s.chip SLP_STAT_PG n.val = 0 →
      ∃ t, exec (.pgQualified n) s = .next t ∧ getF t.chip SLP_STAT_STATE n.val = 4 ∧
        getF t.chip SLP_STAT_PG n.val = 1 ∧ evtBit t.chip .slp n.val 0 ∧
        changesOnly [.prt] [at0 SLP_STAT_STATE n.val, at0 SLP_STAT_PG n.val, at0 (PG_EVT_PEND .slp) n.val] s t) ∧
    (getF s.chip SLP_STAT_PG n.val = 1 → ∃ t, exec (.retryClear n) s = .next t ∧
      getF t.chip SLP_STAT_RETRY n.val = 0 ∧ changesOnly [] [at0 SLP_STAT_RETRY n.val] s t)) ∧
  (∀ (n : Chan) (v : Fin 65536) (s : State), s.chip.pwr.vauxUp = true →
    (chanState s.chip n.val = 4 → getF s.chip SLP_STAT_PG n.val = 1 → v.val < warnLevel s.chip n.val →
      ∃ t, exec (.railGoodEnd n v) s = .next t ∧ getF t.chip SLP_STAT_PG n.val = 0 ∧ errBit t.chip .slp n.val 2 ∧
        evtBit t.chip .slp n.val 1 ∧ getF t.chip SLP_SENSE_SRAIL n.val = v.val ∧
        changesOnly [.slp, .prt, .flt, .cnt] [at0 SLP_STAT_PG n.val, at0 (PG_ERR .slp) n.val,
          at0 (PG_EVT_PEND .slp) n.val, at0 SLP_SENSE_SRAIL n.val] s t) ∧
    (chanState s.chip n.val = 4 → getF s.chip SLP_STAT_PG n.val = 0 → goodLevel s.chip n.val < v.val →
      ∃ t, exec (.railGoodReturn n v) s = .next t ∧ getF t.chip SLP_STAT_PG n.val = 1 ∧ evtBit t.chip .slp n.val 0 ∧
        getF t.chip SLP_SENSE_SRAIL n.val = v.val ∧
        changesOnly [.slp, .prt] [at0 SLP_STAT_PG n.val, at0 (PG_EVT_PEND .slp) n.val, at0 SLP_SENSE_SRAIL n.val] s t) ∧
    (gateDriven s.chip n.val = false → warnLevel s.chip n.val < v.val →
      ∃ t, exec (.slpFetShort n v) s = .next t ∧ errBit t.chip .slp n.val 4 ∧ getF t.chip SLP_SENSE_SRAIL n.val = v.val ∧
        changesOnly [.flt] [at0 (PG_ERR .slp) n.val, at0 SLP_SENSE_SRAIL n.val] s t))

/-- Current limit, trips, cooldown and HV_IN. A shunt voltage at VLIM puts a channel in RAMP, QUALIFY or ON into
LIMIT; its end, below that VLIM, takes it to ON while PG is 1, with PG 0 where the rail is not good, and else to RAMP.
The fault timer, the ramp timeout and the fast trip at 3 x VLIM turn the gate off with PG 0, their cause and the time,
into COOL, or into FAULT with SLP_LATCHED once RETRY has reached RETRIES, and start the cooldown, whose end takes COOL
to HOLD with one more retry, up to 7. HV_IN above 10.3 V is valid; at its loss below 10.0 V every driven channel
enters HOLD with its gate off and every enabled one raises SLP_HV_LOW. (derived; R514, R515, R516, R518, R520.) -/
def Obligations.SlotLimitsAndTrips : Prop :=
  let sense (n : Chan) : List Nat := [at0 SLP_SENSE_ISNS n.val, at0 SLP_PEAK_PEAK n.val]
  let trips (n : Chan) (cause : Nat) (ks : List Nat) (s t : State) : Prop :=
    getF t.chip SLP_STAT_STATE n.val =
        (if getF s.chip SLP_CFG_RETRIES n.val ≤ getF s.chip SLP_STAT_RETRY n.val then 7 else 6) ∧
      getF t.chip SLP_STAT_CAUSE n.val = cause ∧ getF t.chip SLP_STAT_PG n.val = 0 ∧
      getF t.chip SLP_STAT_LIMIT n.val = 0 ∧ getF t.chip SLP_STAT_GATEFULL n.val = 0 ∧ getF t.chip SLP_GATE_VGS n.val = 0 ∧
      getF t.chip SLP_TRIP_T_LO_TIME n.val = nowNs s.chip % 2 ^ 32 ∧
      getF t.chip SLP_TRIP_T_HI_TIME n.val = nowNs s.chip / 2 ^ 32 % 2 ^ 32 ∧ errBit t.chip .slp n.val 0 ∧
      (getF s.chip SLP_CFG_RETRIES n.val ≤ getF s.chip SLP_STAT_RETRY n.val → errBit t.chip .slp n.val 1) ∧
      (slpSt t.chip n.val).coolRuns = true ∧ getF t.chip SLP_STAT_RETRY n.val = getF s.chip SLP_STAT_RETRY n.val ∧
      changesOnly [.slp, .prt, .flt, .cnt] ([at0 SLP_STAT_STATE n.val, at0 SLP_STAT_CAUSE n.val, at0 SLP_STAT_PG n.val,
        at0 SLP_STAT_LIMIT n.val, at0 SLP_STAT_GATEFULL n.val, at0 SLP_GATE_VGS n.val, at0 SLP_TRIP_T_LO_TIME n.val, at0 SLP_TRIP_T_HI_TIME n.val,
        at0 SLP_COOL_LEFT_MS n.val, at0 (PG_ERR .slp) n.val, at0 (PG_EVT_PEND .slp) n.val] ++ ks) s t
  (∀ (n : Chan) (v : Fin 65536) (s : State), s.chip.pwr.vauxUp = true →
    (2 ≤ chanState s.chip n.val → chanState s.chip n.val ≤ 4 → limitLevel s.chip n.val ≤ v.val →
      ∃ t, exec (.limitOnset n v) s = .next t ∧ getF t.chip SLP_STAT_STATE n.val = 5 ∧
        getF t.chip SLP_STAT_LIMIT n.val = 1 ∧ getF t.chip SLP_STAT_GATEFULL n.val = 0 ∧
        (slpSt t.chip n.val).faultRuns = true ∧ (slpSt t.chip n.val).vlim = getF s.chip SLP_CFG_VLIM n.val ∧ getF t.chip SLP_SENSE_ISNS n.val = v.val ∧
        getF t.chip SLP_PEAK_PEAK n.val = max (getF s.chip SLP_PEAK_PEAK n.val) v.val % 2 ^ 16 ∧
        changesOnly [.slp] ([at0 SLP_STAT_STATE n.val, at0 SLP_STAT_LIMIT n.val, at0 SLP_STAT_GATEFULL n.val] ++ sense n)
          s t) ∧
    (v.val < limitLevel s.chip n.val → ∃ t, exec (.limitOnset n v) s = .next t ∧
      getF t.chip SLP_SENSE_ISNS n.val = v.val ∧ changesOnly [] (sense n) s t)) ∧
  (∀ (n : Chan) (v : Fin 65536) (good : Bool) (s : State), s.chip.pwr.vauxUp = true → chanState s.chip n.val = 5 →
    v.val < 100 * (slpSt s.chip n.val).vlim → getF s.chip SLP_STAT_PG n.val < 2 →
    ∃ t, exec (.limitEnd n v good) s = .next t ∧ getF t.chip SLP_STAT_LIMIT n.val = 0 ∧
      getF t.chip SLP_STAT_STATE n.val = (if getF s.chip SLP_STAT_PG n.val = 1 then 4 else 2) ∧
      getF t.chip SLP_STAT_PG n.val = (if good then getF s.chip SLP_STAT_PG n.val else 0) ∧
      (slpSt t.chip n.val).faultRuns = false ∧
      changesOnly [.slp, .prt] ([at0 SLP_STAT_STATE n.val, at0 SLP_STAT_LIMIT n.val, at0 SLP_STAT_GATEFULL n.val,
        at0 SLP_STAT_PG n.val, at0 (PG_EVT_PEND .slp) n.val] ++ sense n) s t) ∧
  (∀ (n : Chan) (s : State), s.chip.pwr.vauxUp = true →
    (chanState s.chip n.val = 5 → (slpSt s.chip n.val).faultRuns = true →
      ∃ t, exec (.faultTimerExpiry n) s = .next t ∧ trips n 1 [] s t) ∧
    (chanState s.chip n.val = 2 → ∃ t, exec (.rampTimeout n) s = .next t ∧ trips n 3 [] s t) ∧
    (∀ v : Fin 65536, gateDriven s.chip n.val = true → 3 * limitLevel s.chip n.val ≤ v.val →
      ∃ t, exec (.fastTrip n v) s = .next t ∧ trips n 2 (sense n) s t) ∧
    (chanState s.chip n.val = 6 → (slpSt s.chip n.val).coolRuns = true →
      ∃ t, exec (.cooldownEnd n) s = .next t ∧ getF t.chip SLP_STAT_STATE n.val = 1 ∧
        getF t.chip SLP_STAT_RETRY n.val = min 7 (getF s.chip SLP_STAT_RETRY n.val + 1) ∧
        (slpSt t.chip n.val).coolRuns = false ∧ coolLeft t.chip n.val = 0 ∧
        changesOnly [.slp, .cnt] [at0 SLP_STAT_STATE n.val, at0 SLP_STAT_RETRY n.val, at0 SLP_COOL_LEFT_MS n.val] s t)) ∧
  (∀ (v : Fin 4096) (s : State),
    (∃ t, exec (.hvInValid v) s = .next t ∧ t.chip.slp = { s.chip.slp with hvOk := s.chip.slp.hvOk || decide (1030 < v.val) } ∧
      getF t.chip PWR_HVSENSE_HV_IN 0 = v.val ∧ changesOnly [.slp] [at0 PWR_HVSENSE_HV_IN 0] s t) ∧
    (1000 ≤ v.val → ∃ t, exec (.hvInLost v) s = .next t ∧ changesOnly [] [at0 PWR_HVSENSE_HV_IN 0] s t) ∧
    (v.val < 1000 → s.chip.slp.hvOk = true →
      ∃ t, exec (.hvInLost v) s = .next t ∧ t.chip.slp.hvOk = false ∧ getF t.chip PWR_HVSENSE_HV_IN 0 = v.val ∧
        (∀ n : Chan, (gateDriven s.chip n.val = true → chanState t.chip n.val = 1 ∧ getF t.chip SLP_STAT_PG n.val = 0) ∧
          (gateDriven s.chip n.val = false → chanState t.chip n.val = chanState s.chip n.val) ∧
          (getF s.chip SLP_CFG_EN n.val = 1 → errBit t.chip .slp n.val 3) ∧
          getF t.chip SLP_STAT_RETRY n.val = getF s.chip SLP_STAT_RETRY n.val ∧
          (slpSt t.chip n.val).coolRuns = (slpSt s.chip n.val).coolRuns) ∧
        keepsParts [.fld, .slp, .prt, .flt] s.chip t.chip ∧ t.recs = s.recs ∧ t.pending = s.pending))

/-- Management cores and the interrupt controller. RST = 1 holds a released core in reset, its watchdog's period kept,
and completes the one ID it holds; RST = 0 restarts it from the verified image, or halts it without one. A kick runs
the watchdog for a period other than 0; its expiry, and a core memory error, raise their fault, restart a core that
holds no ID and count it. A running core sleeps unless its wake latch is set. An asserted level source and a write of
MGT_SWI to a software ID set the pending bit, which sets the wake latch of, and wakes, the cores it becomes eligible
for. A claim returns the pick of R534, 4,095 or 0, and clears the latch, which sets again while another ID is
eligible; a completion by the claimer clears the active bit, and the bit of an asserted source pends again. A
configuration word sets the priority and mask of its settable IDs. (derived; R529, R530, R531, R532, R534, R535, R539,
R541.) -/
def Obligations.CoresAndInterrupts : Prop :=
  let wakes : List Nat := (List.range 4).flatMap fun k => [at0 MGT_CORE_STAT_WAKE k, at0 MGT_CORE_STAT_STATE k]
  let word (X : Fld) (id : IrqId) : Nat := fldKey X 0 (id.val / 32)
  let woken (s t : State) : Prop :=
    ∀ k : Core, (eligibleIds t.chip k.val).any (fun i => !irqEligible s.chip k.val i) = true →
      getF t.chip MGT_CORE_STAT_WAKE k.val = 1 ∧ coreState t.chip k.val ≠ 2
  let completed (id : IrqId) (s t : State) : Prop :=
    isActive t.chip id.val = false ∧ kvFind t.chip.mgt.claimer id.val = none ∧
      isPending t.chip id.val = (isPending s.chip id.val || asserted s.chip id.val)
  let ran (c : Core) (s t : State) : Prop :=
    getF t.chip MGT_CORE_STAT_STATE c.val =
        (if coresReleased s.chip then (if getF s.chip MGT_CORE_CTRL_RST c.val ≠ 0 then 0 else 1) else 3) ∧
      getF t.chip MGT_CORE_STAT_RESTARTS c.val =
        satAdd MGT_CORE_STAT_RESTARTS.w (getF s.chip MGT_CORE_STAT_RESTARTS c.val) 1 ∧
      evtBit t.chip .mgtC 0 0 ∧
      changesOnly [.flt, .cnt] [at0 MGT_CORE_STAT_STATE c.val, at0 MGT_CORE_STAT_RESTARTS c.val, at0 (PG_EVT_PEND .mgtC) 0,
        at0 (PG_ERR .mgtCore) c.val] s t
  (∀ (pa : Path) (c : Core) (id : IrqId) (s : State), pageOpen s.chip pa .mgtCore c.val →
    getF s.chip MGT_CORE_CTRL_RST c.val = 0 → coresReleased s.chip = true → s.chip.mgt.claimer = [(id.val, c.val)] →
    isActive s.chip id.val = true →
    ∃ t, exec (.coreResetWrite pa c true) s = .next t ∧ getF t.chip MGT_CORE_CTRL_RST c.val = 1 ∧
      getF t.chip MGT_CORE_STAT_STATE c.val = 0 ∧ t.chip.mgt.wdt = s.chip.mgt.wdt ∧ completed id s t ∧
      changesOnly [.mgt, .cnt] ([at0 MGT_CORE_CTRL_RST c.val, at0 MGT_CORE_STAT_STATE c.val, word MGT_PEND_PEND id,
        word MGT_ACT_ACT id] ++ wakes) s t) ∧
  (∀ (pa : Path) (c : Core) (s : State), pageOpen s.chip pa .mgtCore c.val →
    (getF s.chip MGT_CORE_CTRL_RST c.val = 1 → ∃ t, exec (.coreResetWrite pa c false) s = .next t ∧
      getF t.chip MGT_CORE_CTRL_RST c.val = 0 ∧
      getF t.chip MGT_CORE_STAT_STATE c.val = (if coresReleased s.chip then 1 else 3) ∧
      changesOnly [] [at0 MGT_CORE_CTRL_RST c.val, at0 MGT_CORE_STAT_STATE c.val] s t) ∧
    (∃ t, exec (.watchdogKick pa c) s = .next t ∧
      t.chip.mgt.wdt.getLsbD c.val = (getF s.chip MGT_CORE_CTRL_WDT c.val != 0) ∧ changesOnly [.mgt] [] s t)) ∧
  (∀ (c : Core) (s : State), coreUp s.chip c.val = true → s.chip.mgt.claimer = [] →
    (s.chip.mgt.wdt.getLsbD c.val = true → ∃ t, exec (.watchdogExpiry c) s = .next t ∧
      errBit t.chip .mgtCore c.val 0 ∧ ran c s t) ∧
    (s.chip.mgt.wdt.getLsbD c.val = false → exec (.watchdogExpiry c) s = .next s) ∧
    (∃ t, exec (.mgtMemUe c) s = .next t ∧ errBit t.chip .mgtCore c.val 2 ∧ ran c s t)) ∧
  (∀ (c : Core) (s : State), coreState s.chip c.val = 1 →
    (getF s.chip MGT_CORE_STAT_WAKE c.val = 0 → ∃ t, exec (.coreEnterSleep c) s = .next t ∧
      coreState t.chip c.val = 2 ∧ changesOnly [] [at0 MGT_CORE_STAT_STATE c.val] s t) ∧
    (getF s.chip MGT_CORE_STAT_WAKE c.val = 1 → exec (.coreEnterSleep c) s = .next s)) ∧
  (∀ (id : IrqId) (s : State), s.chip.pwr.vauxUp = true → isPending s.chip id.val = false →
    isActive s.chip id.val = false →
    (asserted s.chip id.val = true → ∃ t, exec (.levelSourceAssert id) s = .next t ∧
      isPending t.chip id.val = true ∧ woken s t ∧ changesOnly [.cnt] (word MGT_PEND_PEND id :: wakes) s t) ∧
    (asserted s.chip id.val = false → exec (.levelSourceAssert id) s = .next s)) ∧
  (∀ (pa : Path) (id : IrqId) (s : State), pageOpen s.chip pa .mgtC 0 →
    (3968 ≤ id.val → id.val ≤ 4094 → ∃ t, exec (.mgtSwi pa id) s = .next t ∧ isPending t.chip id.val = true ∧
      woken s t ∧ changesOnly [.cnt] (word MGT_PEND_PEND id :: wakes) s t) ∧
    (id.val < 3968 → exec (.mgtSwi pa id) s = .next s)) ∧
  (∀ (c : Core) (s : State), coreUp s.chip c.val = true →
    (∀ id : IrqId, claimPick s.chip c.val = some id.val → ∃ t, exec (.mgtClaim c) s = .next t ∧
      t.chip.sent = .pathRead .core id.val :: s.chip.sent ∧ isPending t.chip id.val = false ∧
      isActive t.chip id.val = true ∧ kvFind t.chip.mgt.claimer id.val = some c.val ∧
      getF t.chip MGT_CORE_STAT_WAKE c.val = b2n (notified t.chip c.val) ∧
      changesOnly [.mgt, .cnt, .sent] [word MGT_PEND_PEND id, word MGT_ACT_ACT id, at0 MGT_CORE_STAT_WAKE c.val] s t) ∧
    (claimPick s.chip c.val = none → getF s.chip MGT_CORE_STAT_WAKE c.val = 1 → ∃ t, exec (.mgtClaim c) s = .next t ∧
      t.chip.sent = .pathRead .core 4095 :: s.chip.sent ∧
      getF t.chip MGT_SPUR_N c.val = satAdd MGT_SPUR_N.w (getF s.chip MGT_SPUR_N c.val) 1 ∧
      changesOnly [.cnt, .sent] [at0 MGT_SPUR_N c.val, at0 MGT_CORE_STAT_WAKE c.val] s t) ∧
    (claimPick s.chip c.val = none → getF s.chip MGT_CORE_STAT_WAKE c.val = 0 → ∃ t, exec (.mgtClaim c) s = .next t ∧
      t.chip.sent = .pathRead .core 0 :: s.chip.sent ∧ changesOnly [.sent] [at0 MGT_CORE_STAT_WAKE c.val] s t)) ∧
  (∀ (c : Core) (id : IrqId) (s : State), coreUp s.chip c.val = true →
    isActive s.chip id.val = true → kvFind s.chip.mgt.claimer id.val = some c.val →
    ∃ t, exec (.mgtComp c id) s = .next t ∧ completed id s t ∧ woken s t ∧
      changesOnly [.mgt, .cnt] ([word MGT_PEND_PEND id, word MGT_ACT_ACT id] ++ wakes) s t) ∧
  (∀ (pa : Path) (w : Fin 1024) (v : Word) (s : State), pageOpen s.chip pa .mgtCfg (w.val / 256) →
    ∃ t, exec (.irqConfigWrite pa w v) s = .next t ∧ woken s t ∧
      (∀ j : Fin 4, irqPrio t.chip (4 * w.val + j.val) = (if irqSettable (4 * w.val + j.val) then
          bits v.toNat (8 * j.val + 4) 3 else irqPrio s.chip (4 * w.val + j.val)) ∧
        irqMask t.chip (4 * w.val + j.val) = (if irqSettable (4 * w.val + j.val) then bits v.toNat (8 * j.val) 4
          else irqMask s.chip (4 * w.val + j.val))) ∧
      changesOnly [.cnt] (((List.range 4).flatMap fun j => [fldKey (prioFld j) (w.val / 256) (w.val % 256),
        fldKey (maskFld j) (w.val / 256) (w.val % 256)]) ++ wakes) s t)

/-- Register requests, posted writes and results of the management bridge. A read or a non-posted write that is
accepted counts in SEQ. With nothing ahead of it and its page started a read ends DONE with the word read, and a write
DONE with the word written (here the header's CFRZ). A read refused under R547 ends ERROR or DENIED with data 0; one
whose page has not started, or with posted writes ahead, runs on; one that arrives while another runs is only counted.
A port that does not answer takes nothing; a request whose SMBus transfer fails its PEC is not taken and raises
BRG_BUS_ERR. A posted write enters its port's queue of 16, or is discarded and raises BRG_PW_FAIL; the oldest is
applied once its page has started. RESULT sends six bytes, on SMBus with their count and the PEC (CRC-8 over the whole
transfer, log 131), and changes nothing else. A reserved command raises BRG_BUS_ERR and is not acknowledged. FETCH_TMO
ends a running request with TIMEOUT; that a request is judged when it starts, that a timed-out write may still be
applied, and what a bad PEC does to a register command are the model's choices (logs 87 and 112). (derived; R546,
R547, R548, R549, R550, R551, R600, R603.) -/
def Obligations.BridgeRequests : Prop :=
  let at1 (k : MgmtPort) (w : Bool) (a v : Word) (s : State) : State :=
    onChip s (setBrgPort k { brgPortOf s.chip k with req := some { addr := a.toNat, write := w, v := v.toNat, ahead := 0 }, res := .running, data := 0, seq := ((brgPortOf s.chip k).seq + 1) % 256 })
  let ended (k : MgmtPort) (res : BrgRes) (data : Nat) (s t : State) : Prop :=
    brgPortOf t.chip k = { brgPortOf s.chip k with req := none, res := res, data := data, seq := ((brgPortOf s.chip k).seq + 1) % 256 } ∧ brgPortOf t.chip (1 - k.val) = brgPortOf s.chip (1 - k.val)
  let six (k : MgmtPort) (s : State) : List Nat := [statusCode (brgPortOf s.chip k.val).res, (brgPortOf s.chip k.val).seq,
    (brgPortOf s.chip k.val).data % 256, (brgPortOf s.chip k.val).data / 256 % 256,
    (brgPortOf s.chip k.val).data / 65536 % 256, (brgPortOf s.chip k.val).data / 16777216 % 256]
  let badPec (k : MgmtPort) (s t : State) : Prop :=
    errBit t.chip .brgPort k.val 0 ∧ changesOnly [.flt] [at0 (PG_ERR .brgPort) k.val] s t
  let taken (k : MgmtPort) (pec : Bool) (s : State) : Prop := pec = true ∨ inI3c s.chip k.val = true
  let free (k : MgmtPort) (s : State) : Prop :=
    brgAnswers s.chip k.val = true ∧ (brgPortOf s.chip k.val).req = none ∧ (brgPortOf s.chip k.val).late = []
  (∀ (k : MgmtPort) (a v : Word) (s : State), brgAnswers s.chip k.val = false →
    (∀ pec : Bool, exec (.brgRead k a pec) s = .next s ∧ exec (.brgWrite k a v pec) s = .next s) ∧
      exec (.brgResult k) s = .next s) ∧
  (∀ (k : MgmtPort) (a v : Word) (s : State), brgAnswers s.chip k.val = true → inI3c s.chip k.val = false →
    (∃ t, exec (.brgRead k a false) s = .next t ∧ badPec k s t) ∧
    (∃ t, exec (.brgWrite k a v false) s = .next t ∧ badPec k s t)) ∧
  (∀ (k : MgmtPort) (a : Word) (pec : Bool) (s : State), free k s → taken k pec s → (brgPortOf s.chip k.val).posted = [] →
    (reqFault s.chip a.toNat = none → reqStarted s.chip a.toNat = true → ∃ t, exec (.brgRead k a pec) s = .next t ∧
      (brgPortOf t.chip k.val).res = .done ∧ (brgPortOf t.chip k.val).req = none ∧
      (brgPortOf t.chip k.val).data = (readThrough .bridge a.toNat (at1 k false a 0 s)).1 ∧
      (brgPortOf t.chip k.val).seq = ((brgPortOf s.chip k.val).seq + 1) % 256 ∧
      changesOnly [.brg, .cnt] [] (readThrough .bridge a.toNat (at1 k false a 0 s)).2 t) ∧
    (∀ res : BrgRes, reqFault s.chip a.toNat = some res → ∃ t, exec (.brgRead k a pec) s = .next t ∧
      ended k res 0 s t ∧ (res = .denied → errBit t.chip .sec 0 4) ∧
      (res = .error → pageStarted s.chip .glb 0 = true → errBit t.chip .glb 0 0) ∧
      keepsParts [.fld, .brg, .cnt, .flt] s.chip t.chip ∧ t.recs = s.recs ∧ t.pending = s.pending)) ∧
  (∀ (k : MgmtPort) (a : Word) (pec : Bool) (s : State), free k s → taken k pec s → reqFault s.chip a.toNat = none →
    reqStarted s.chip a.toNat = false ∨ (brgPortOf s.chip k.val).posted ≠ [] → ∃ t, exec (.brgRead k a pec) s = .next t ∧
      (brgPortOf t.chip k.val).res = .running ∧ (brgPortOf t.chip k.val).req.isSome = true ∧
      (brgPortOf t.chip k.val).seq = ((brgPortOf s.chip k.val).seq + 1) % 256 ∧
      (brgPortOf t.chip k.val).posted = (brgPortOf s.chip k.val).posted ∧ changesOnly [.brg] [] s t) ∧
  (∀ (k : MgmtPort) (a : Word) (pec : Bool) (s : State), brgAnswers s.chip k.val = true → taken k pec s → (brgPortOf s.chip k.val).req.isSome = true →
    ∃ t, exec (.brgRead k a pec) s = .next t ∧
      getF t.chip BRG_PORT_REQ_DISC k.val =
        satAdd BRG_PORT_REQ_DISC.w (getF s.chip BRG_PORT_REQ_DISC k.val) 1 ∧
      changesOnly [] [at0 BRG_PORT_REQ_DISC k.val] s t) ∧
  (∀ (k : MgmtPort) (a v : Word) (pec : Bool) (kd : PK) (n : Nat) (s : State), free k s → taken k pec s → (brgPortOf s.chip k.val).posted = [] →
    writePosted s.chip a.toNat = false → reqFault s.chip a.toNat = none → reqStarted s.chip a.toNat = true →
    pageKind (a.toNat / 4096) = some (kd, n) → a.toNat % 4096 = 0x010 → ∃ t, exec (.brgWrite k a v pec) s = .next t ∧
      getF t.chip (PG_CTRL_CFRZ kd) n = v.toNat % 2 ∧ ended k .done 0 s t ∧
      changesOnly [.brg, .cnt] [at0 (PG_CTRL_CFRZ kd) n] s t) ∧
  (∀ (k : MgmtPort) (a v : Word) (pec : Bool) (s : State), brgAnswers s.chip k.val = true → taken k pec s → writePosted s.chip a.toNat = true →
    (reqFault s.chip a.toNat = none → (brgPortOf s.chip k.val).posted.length < 16 →
      ∃ t, exec (.brgWrite k a v pec) s = .next t ∧
        brgPortOf t.chip k.val =
          { brgPortOf s.chip k.val with posted := (brgPortOf s.chip k.val).posted ++ [(a.toNat, v.toNat)] } ∧
        changesOnly [.brg, .cnt] [] s t) ∧
    ((reqFault s.chip a.toNat).isSome = true ∨ 16 ≤ (brgPortOf s.chip k.val).posted.length →
      ∃ t, exec (.brgWrite k a v pec) s = .next t ∧ errBit t.chip .brgPort k.val 1 ∧
        getF t.chip BRG_PORT_PWERR_VALID k.val ≠ 0 ∧
        (getF s.chip BRG_PORT_PWERR_VALID k.val = 0 → getF t.chip BRG_PORT_PWERR_ADDR k.val = a.toNat % 2 ^ 27) ∧
        keepsParts [.fld, .cnt, .flt] s.chip t.chip ∧ t.recs = s.recs ∧ t.pending = s.pending)) ∧
  (∀ (k : MgmtPort) (a v : Nat) (kd : PK) (n : Nat) (rest : List (Nat × Nat)) (s : State),
    (brgPortOf s.chip k.val).req = none → (brgPortOf s.chip k.val).late = [] →
    (brgPortOf s.chip k.val).posted = (a, v) :: rest → reqFault s.chip a = none →
    pageKind (a / 4096) = some (kd, n) → a % 4096 = 0x010 →
    (reqStarted s.chip a = true → ∃ t, exec (.postedWriteApply k) s = .next t ∧
      getF t.chip (PG_CTRL_CFRZ kd) n = v % 2 ∧
      brgPortOf t.chip k.val = { brgPortOf s.chip k.val with posted := rest } ∧
      changesOnly [.brg] [at0 (PG_CTRL_CFRZ kd) n] s t) ∧
    (reqStarted s.chip a = false → exec (.postedWriteApply k) s = .next s)) ∧
  (∀ (k : MgmtPort) (s : State), (brgPortOf s.chip k.val).posted = [] → exec (.postedWriteApply k) s = .next s) ∧
  (∀ (k : MgmtPort) (s : State), brgAnswers s.chip k.val = true → ∃ t, exec (.brgResult k) s = .next t ∧
    t.chip.sent = .brg k 0x12 (if inI3c s.chip k.val then six k s else 6 :: six k s ++ [pec ([2 * staticAddr s.chip k.val,
      0x12, 2 * staticAddr s.chip k.val + 1, 6] ++ six k s)]) :: s.chip.sent ∧
    changesOnly [.sent] [] s t) ∧
  (∀ (k : MgmtPort) (code : Fin 256) (s : State), brgAnswers s.chip k.val = true → inI3c s.chip k.val = false →
    (code.val < 0x0F ∨ 0x12 < code.val → ∃ t, exec (.brgReservedCommand k code) s = .next t ∧
      t.chip.sent = .brgNack k code :: s.chip.sent ∧ errBit t.chip .brgPort k.val 0 ∧
      changesOnly [.flt, .sent] [at0 (PG_ERR .brgPort) k.val] s t) ∧
    (0x0F ≤ code.val → code.val ≤ 0x12 → exec (.brgReservedCommand k code) s = .next s)) ∧
  (∀ (k : MgmtPort) (s : State),
    ((brgPortOf s.chip k.val).req = none → exec (.brgFetchTimeout k) s = .next s) ∧
    ((brgPortOf s.chip k.val).req.isSome = true → ∃ t, exec (.brgFetchTimeout k) s = .next t ∧
      (brgPortOf t.chip k.val).res = .timeout ∧ (brgPortOf t.chip k.val).req = none ∧
      (brgPortOf t.chip k.val).data = 0 ∧ (brgPortOf t.chip k.val).seq = (brgPortOf s.chip k.val).seq ∧
      (brgPortOf t.chip k.val).posted = (brgPortOf s.chip k.val).posted ∧
      keepsParts [.fld, .brg, .cnt, .flt, .draws] s.chip t.chip ∧ t.recs = s.recs ∧ t.pending = s.pending))

/-- I3C, MCTP reassembly, MCTP control and fabric manager commands. SETDASA and ENTDAA put a port into I3C mode with
the address assigned, RSTDAA returns it to SMBus mode. A packet for the endpoint starts or extends a message, or ends
it; out of sequence, too long, of another type, with a bad PEC or with eight messages open it is dropped and raises
BRG_BUS_ERR, as a message whose next packet stays out does. Set Endpoint ID sets BRG_EID and raises BRG_EID_SET. Every
other control command is answered as R552 says, from the part's EID to the one that asked, and changes nothing; none
is taken at another EID. A fabric manager command over MCTP takes one of four places, or is answered Busy, after the
commands that MC1 has served are answered to their endpoints and ports; one at a CCI mailbox is taken where the
manager function is enabled. Response layouts and completion codes are the model's (log 88). (derived; R544, R552,
R553, R554, R206.) -/
def Obligations.ManagementBusAndMctp : Prop :=
  let i3c (k : MgmtPort) : List Nat := [at0 BRG_PORT_STAT_I3C k.val, at0 BRG_PORT_STAT_DADDR k.val]
  let dropped (k : MgmtPort) (s t : State) : Prop := errBit t.chip .brgPort k.val 0 ∧
      changesOnly [.brg, .cnt, .flt] [at0 (PG_ERR .brgPort) k.val] s t
  let told (k : MgmtPort) (h : MctpHead) (cmd code : Nat) (data : List Nat) (s t : State) : Prop :=
    t.chip.sent = .mctp k (getF s.chip BRG_EID_EID 0) h.src 0 cmd code data :: s.chip.sent ∧ changesOnly [.sent] [] s t
  let toldOpen (k : MgmtPort) (h : MctpHead) (cmd : Nat) (data : List Nat) (s t : State) : Prop :=
    t.chip.sent = .mctp k (getF s.chip BRG_EID_EID 0) h.src 0 cmd 0 data :: s.chip.sent ∧ changesOnly [.sent, .draws] [] s t
  let reached (k : MgmtPort) (h : MctpHead) (s : State) : Prop :=
    brgAnswers s.chip k.val = true ∧ mctpReaches s.chip h.dst.val = true
  let answers (done : Nat) (s : State) : List Out :=
    ((s.chip.brg.fmOut.take done).map fun x => Out.fmAnswer x.port x.eid x.opcode).reverse
  (∀ (k : MgmtPort) (a : Fin 128) (s : State), brgAnswers s.chip k.val = true →
    (getF s.chip BRG_PORT_CFG_SMB_ONLY k.val = 0 → getF s.chip BRG_PORT_STAT_I3C k.val = 0 →
      (∃ t, exec (.i3cSetdasa k a) s = .next t ∧ getF t.chip BRG_PORT_STAT_I3C k.val = 1 ∧
        getF t.chip BRG_PORT_STAT_DADDR k.val = a.val ∧ changesOnly [] (i3c k) s t) ∧
      (∃ t, exec (.i3cEntdaa k a) s = .next t ∧ getF t.chip BRG_PORT_STAT_I3C k.val = 1 ∧
        getF t.chip BRG_PORT_STAT_DADDR k.val = a.val ∧ changesOnly [] (i3c k) s t)) ∧
    (∃ t, exec (.i3cRstdaa k) s = .next t ∧ getF t.chip BRG_PORT_STAT_I3C k.val = 0 ∧
      getF t.chip BRG_PORT_STAT_DADDR k.val = 0 ∧ changesOnly [] (i3c k) s t)) ∧
  (∀ (k : MgmtPort) (p : MctpPkt) (s : State), brgAnswers s.chip k.val = true → p.payload.length ≤ 64 →
    mctpReaches s.chip p.dstEid.val = true → p.som = true → s.chip.brg.asm = [] →
    (p.pecOk = true → p.msgType.val ∈ [0, 1, 5, 6, 7] → p.eom = true → ∃ t, exec (.mctpPacket k p) s = .next t ∧
      changesOnly [.cnt] [] s t) ∧
    (p.pecOk = true → p.msgType.val ∈ [0, 1, 5, 6, 7] → p.eom = false → ∃ t, exec (.mctpPacket k p) s = .next t ∧
      t.chip.brg.asm = [{ port := k, srcEid := p.srcEid, tag := p.tag, msgType := p.msgType, nextSeq := (p.seq.val + 1) % 4, data := p.payload }] ∧ changesOnly [.brg] [] s t) ∧
    (p.pecOk = false ∨ p.msgType.val ∉ [0, 1, 5, 6, 7] → ∃ t, exec (.mctpPacket k p) s = .next t ∧
      t.chip.brg.asm = [] ∧ dropped k s t)) ∧
  (∀ (k : MgmtPort) (p : MctpPkt) (m : MctpAsm) (s : State), brgAnswers s.chip k.val = true → p.payload.length ≤ 64 →
    mctpReaches s.chip p.dstEid.val = true → p.pecOk = true → p.som = false → s.chip.brg.asm = [m] → m.port = k.val →
    m.srcEid = p.srcEid.val → m.tag = p.tag.val →
    (m.nextSeq = p.seq.val → (m.data ++ p.payload).length ≤ 4096 → ∃ t, exec (.mctpPacket k p) s = .next t ∧
      t.chip.brg.asm = (if p.eom then [] else [{ m with data := m.data ++ p.payload, nextSeq := (m.nextSeq + 1) % 4 }]) ∧
      changesOnly [.brg, .cnt] [] s t) ∧
    (m.nextSeq ≠ p.seq.val ∨ 4096 < (m.data ++ p.payload).length → ∃ t, exec (.mctpPacket k p) s = .next t ∧
      t.chip.brg.asm = [] ∧ dropped k s t)) ∧
  (∀ (k : MgmtPort) (p : MctpPkt) (s : State), brgAnswers s.chip k.val = true → p.payload.length ≤ 64 →
    mctpReaches s.chip p.dstEid.val = true → p.som = true → 8 ≤ s.chip.brg.asm.length →
    asmOf s.chip k.val p.srcEid.val p.tag.val = none → p.pecOk = true → ∃ t, exec (.mctpPacket k p) s = .next t ∧
      t.chip.brg.asm = s.chip.brg.asm ∧ dropped k s t) ∧
  (∀ (k : MgmtPort) (src : Fin 256) (tag : Fin 8) (s : State),
    ((asmOf s.chip k.val src.val tag.val).isSome = true → ∃ t, exec (.mctpReassemblyTimeout k src tag) s = .next t ∧
      asmOf t.chip k.val src.val tag.val = none ∧ dropped k s t) ∧
    (asmOf s.chip k.val src.val tag.val = none → exec (.mctpReassemblyTimeout k src tag) s = .next s)) ∧
  (∀ (k : MgmtPort) (h : MctpHead) (op : Fin 4) (eid : Fin 256) (s : State), reached k h s →
    (op.val < 2 → 0 < eid.val → eid.val < 255 → ∃ t, exec (.mctpSetEndpointId k h op eid) s = .next t ∧
      getF t.chip BRG_EID_EID 0 = eid.val ∧ evtBit t.chip .brgC 0 0 ∧
      t.chip.sent = .mctp k eid.val h.src 0 1 0 [0, eid.val, 0] :: s.chip.sent ∧
      changesOnly [.sent] [at0 BRG_EID_EID 0, at0 (PG_EVT_PEND .brgC) 0] s t) ∧
    (2 ≤ op.val ∨ eid.val = 0 ∨ eid.val = 255 → ∃ t, exec (.mctpSetEndpointId k h op eid) s = .next t ∧
      told k h 1 2 [] s t)) ∧
  (∀ (k : MgmtPort) (h : MctpHead) (x : Fin 256) (s : State), reached k h s →
    (∃ t, exec (.mctpGetEndpointId k h) s = .next t ∧ told k h 2 0 [getF s.chip BRG_EID_EID 0, 0, 0] s t) ∧
    (∃ t, exec (.mctpGetEndpointUuid k h) s = .next t ∧ told k h 3 0 [Config.endpointUuid] s t) ∧
    (∃ t, exec (.mctpGetMessageTypeSupport k h) s = .next t ∧ told k h 5 0 [4, 1, 5, 6, 7] s t) ∧
    (∃ t, exec (.mctpGetVendorMsgSupport k h x) s = .next t ∧ toldOpen k h 6 [x.val, drawn s.chip] s t) ∧
    (x.val = 0 ∨ x.val = 255 → ∃ t, exec (.mctpGetVersionSupport k h x) s = .next t ∧ told k h 4 0 [1, 0xF1F3FF00] s t) ∧
    (x.val ∈ [1, 5, 6, 7] → ∃ t, exec (.mctpGetVersionSupport k h x) s = .next t ∧
      toldOpen k h 4 [1, drawn s.chip % 2 ^ 32] s t) ∧
    (x.val ∉ [0, 1, 5, 6, 7, 255] → ∃ t, exec (.mctpGetVersionSupport k h x) s = .next t ∧ told k h 4 0x80 [] s t) ∧
    (x.val ∉ [1, 2, 3, 4, 5, 6] → ∃ t, exec (.mctpUnsupportedCmd k h x) s = .next t ∧ told k h x.val 5 [] s t)) ∧
  (∀ (k : MgmtPort) (h : MctpHead) (x : Fin 256) (op : Fin 4) (s : State), mctpReaches s.chip h.dst.val = false →
    exec (.mctpSetEndpointId k h op x) s = .next s ∧ exec (.mctpGetEndpointId k h) s = .next s ∧
      exec (.mctpGetEndpointUuid k h) s = .next s ∧ exec (.mctpGetMessageTypeSupport k h) s = .next s ∧
      exec (.mctpGetVendorMsgSupport k h x) s = .next s ∧ exec (.mctpGetVersionSupport k h x) s = .next s ∧
      exec (.mctpUnsupportedCmd k h x) s = .next s) ∧
  (∀ (k : MgmtPort) (h : MctpHead) (code : Fin 65536) (done : Nat) (s : State), reached k h s →
    coreUp s.chip 1 = true →
    ((s.chip.brg.fmOut.drop done).length < 4 → ∃ t, exec (.fmApiCommand (.mctp k h) code done) s = .next t ∧
      t.chip.brg.fmOut = s.chip.brg.fmOut.drop done ++ [{ port := k, eid := h.src, opcode := code }] ∧
      t.chip.sent = .fm (.mctp k h) 0 :: (answers done s ++ s.chip.sent) ∧ changesOnly [.brg, .sent] [] s t) ∧
    (4 ≤ (s.chip.brg.fmOut.drop done).length → ∃ t, exec (.fmApiCommand (.mctp k h) code done) s = .next t ∧
      t.chip.brg.fmOut = s.chip.brg.fmOut.drop done ∧
      t.chip.sent = .fm (.mctp k h) 1 :: (answers done s ++ s.chip.sent) ∧ changesOnly [.brg, .sent] [] s t)) ∧
  (∀ (p : Port) (code : Fin 65536) (s : State), poolFace s.chip p.val = true → inL0 s.chip p.val = true →
    ∃ t, exec (.fmApiCommand (.cci p) code 0) s = .next t ∧
      t.chip.sent = .fm (.cci p) (if getF s.chip PRT_CFG_MGR p.val ≠ 0 then 0 else 2) :: s.chip.sent ∧
      changesOnly [.sent] [] s t)

/-- PLDM sensors, platform events and alerts. Every PLDM command that is answered is counted, and answered from the
part's EID to the one that asked. GetPDRRepositoryInfo gives the update time and the record count, GetPDR the terminus
locator, the sensor of an enabled entry, or no record; GetSensorReading the last reading of sensor e + 1,
SetNumericSensorEnable disables or enables its sampling, SetEventReceiver names where events go. PLDM Base is answered
(what its commands do is PRESUMED, log 118), and any other command with ERROR_UNSUPPORTED_PLDM_CMD. A poll returns the
oldest event and the next poll's acknowledgement removes it; PLATFORM_EVENT_SEND sends the oldest unsent one. A sample
forms each enabled entry's reading from its register word. An in-band interrupt is raised once an event on a port in
I3C mode, and the Alert Response Address is answered while ALERT_N is low, which releases it. Response layouts and
completion codes are the model's (log 88). (derived; R555, R556, R557, R559, R560.) -/
def Obligations.PldmAndEvents : Prop :=
  let toldOf (typ : Nat) (k : MgmtPort) (h : MctpHead) (cmd code : Nat) (data : List Nat) (ps : List Part) (s t : State) :
      Prop :=
    t.chip.sent = .mctp k (getF s.chip BRG_EID_EID 0) h.src 1 cmd code (typ :: data) :: s.chip.sent ∧
      changesOnly ([.sent, .cnt] ++ ps) [] s t
  let told (k : MgmtPort) (h : MctpHead) (cmd code : Nat) (data : List Nat) (ps : List Part) (s t : State) : Prop :=
    toldOf 2 k h cmd code data ps s t
  let reached (k : MgmtPort) (h : MctpHead) (s : State) : Prop :=
    brgAnswers s.chip k.val = true ∧ mctpReaches s.chip h.dst.val = true
  (∀ (k : MgmtPort) (h : MctpHead) (n : Nat) (x : Fin 256) (s : State), reached k h s →
    (∃ t, exec (.pldmGetPdrRepositoryInfo k h) s = .next t ∧
      told k h 0x50 0 [0, s.chip.brg.pdrTime, 1 + (enabledSensors s.chip).length] [] s t) ∧
    (n < 2 → ∃ t, exec (.pldmGetPdr k h n) s = .next t ∧ told k h 0x51 0 [nextHandle s.chip 1, 1] [] s t) ∧
    (2 ≤ n → sensorOn s.chip (n - 2) = true → ∃ t, exec (.pldmGetPdr k h n) s = .next t ∧
      told k h 0x51 0 [nextHandle s.chip n, 2, n - 1, bits (sensorOf s.chip (n - 2)).w0 8 8,
        bits (sensorOf s.chip (n - 2)).w0 0 8, 1, 0] [] s t) ∧
    (2 ≤ n → sensorOn s.chip (n - 2) = false → ∃ t, exec (.pldmGetPdr k h n) s = .next t ∧ told k h 0x51 0x82 [] [] s t) ∧
    (∃ t, exec (.pldmSetEventReceiver k h x) s = .next t ∧
      t.chip.brg.receiver = (if x.val = 0 then none else some x.val) ∧ told k h 0x04 0 [] [.brg] s t)) ∧
  (∀ (k : MgmtPort) (h : MctpHead) (id : Fin 65536) (s : State), reached k h s →
    (0 < id.val → sensorOn s.chip (id.val - 1) = true →
      (∃ t, exec (.pldmGetSensorReading k h id) s = .next t ∧
        told k h 0x11 0 [(if s.chip.brg.disabled.contains (id.val - 1) then 1 else
          if (sensorOf s.chip (id.val - 1)).available then 0 else 2),
          ofInt 32 (sensorOf s.chip (id.val - 1)).reading] [] s t) ∧
      (∃ t, exec (.pldmSetNumericSensorEnable k h id false) s = .next t ∧
        t.chip.brg.disabled.contains (id.val - 1) = true ∧ s.chip.brg.pdrTime < t.chip.brg.pdrTime ∧
        t.chip.brg.sensors = s.chip.brg.sensors ∧ told k h 0x10 0 [] [.brg] s t) ∧
      (∃ t, exec (.pldmSetNumericSensorEnable k h id true) s = .next t ∧
        t.chip.brg.disabled.contains (id.val - 1) = false ∧ s.chip.brg.pdrTime < t.chip.brg.pdrTime ∧
        t.chip.brg.sensors = s.chip.brg.sensors ∧ told k h 0x10 0 [] [.brg] s t)) ∧
    (id.val = 0 ∨ sensorOn s.chip (id.val - 1) = false →
      (∃ t, exec (.pldmGetSensorReading k h id) s = .next t ∧ told k h 0x11 0x80 [] [] s t) ∧
      (∃ t, exec (.pldmSetNumericSensorEnable k h id true) s = .next t ∧ told k h 0x10 0x80 [] [] s t))) ∧
  (∀ (k : MgmtPort) (h : MctpHead) (e : BrgEvent) (l : List BrgEvent) (s : State), reached k h s →
    s.chip.brg.events = e :: l →
    (∃ t, exec (.pldmPollForEvent k h none) s = .next t ∧ t.chip.brg.events.head? = some { e with polled := true } ∧
      told k h 0x0B 0 (e.id :: 0xF0 :: recWords e.record) [.brg] s t) ∧
    (∀ id : Fin 65536, e.id = id.val → e.polled = true → l = [] →
      ∃ t, exec (.pldmPollForEvent k h (some id)) s = .next t ∧ t.chip.brg.events = [] ∧ t.chip.brg.alertLow = false ∧
        told k h 0x0B 0 [] [.brg] s t)) ∧
  (∀ (k : MgmtPort) (h : MctpHead) (typ : Fin 64) (x arg : Fin 256) (s : State), reached k h s →
    (typ.val ≠ 0 ∨ x.val ∉ [1, 2, 3, 4, 5] → typ.val ≠ 2 ∨ x.val ∉ [0x04, 0x0B, 0x10, 0x11, 0x50, 0x51] →
      ∃ t, exec (.pldmUnsupportedCmd k h typ x arg) s = .next t ∧ toldOf typ.val k h x.val 5 [] [] s t) ∧
    (∃ t, exec (.pldmUnsupportedCmd k h 0 1 arg) s = .next t ∧ t.chip.brg = { s.chip.brg with tid := arg.val } ∧
      toldOf 0 k h 1 0 [] [.brg] s t) ∧
    (∃ t, exec (.pldmUnsupportedCmd k h 0 2 arg) s = .next t ∧ toldOf 0 k h 2 0 [s.chip.brg.tid] [] s t) ∧
    (∃ t, exec (.pldmUnsupportedCmd k h 0 3 arg) s = .next t ∧ toldOf 0 k h 3 0 [drawn s.chip % 2 ^ 32] [.draws] s t) ∧
    (∃ t, exec (.pldmUnsupportedCmd k h 0 4 arg) s = .next t ∧ toldOf 0 k h 4 0 [5] [] s t) ∧
    (∃ t, exec (.pldmUnsupportedCmd k h 0 5 arg) s = .next t ∧ toldOf 0 k h 5 0 (if arg.val = 0 then [1, 2, 3, 4, 5]
      else if arg.val = 2 then [0x04, 0x0B, 0x10, 0x11, 0x50, 0x51] else []) [] s t)) ∧
  (∀ (k : MgmtPort) (h : MctpHead) (n : Nat) (x : Fin 256) (id : Fin 65536) (en : Bool) (ack : Option (Fin 65536))
    (typ : Fin 64) (s : State), mctpReaches s.chip h.dst.val = false →
    exec (.pldmGetPdrRepositoryInfo k h) s = .next s ∧ exec (.pldmGetPdr k h n) s = .next s ∧
      exec (.pldmGetSensorReading k h id) s = .next s ∧ exec (.pldmSetNumericSensorEnable k h id en) s = .next s ∧
      exec (.pldmSetEventReceiver k h x) s = .next s ∧ exec (.pldmPollForEvent k h ack) s = .next s ∧
      exec (.pldmUnsupportedCmd k h typ x x) s = .next s) ∧
  (∀ (eid : Nat) (e : BrgEvent) (s : State), s.chip.brg.events = [e] →
    (brgReaches s.chip = true → s.chip.brg.receiver = some eid → e.sent = false →
      ∃ t, exec .platformEventSend s = .next t ∧ t.chip.brg.events = [{ e with sent := true }] ∧
        t.chip.sent = .platformEvent eid 0xF0 e.record :: s.chip.sent ∧ changesOnly [.brg, .cnt, .sent] [] s t) ∧
    (brgReaches s.chip = true → e.sent = true → ∃ t, exec .platformEventAck s = .next t ∧ t.chip.brg.events = [] ∧ t.chip.brg.alertLow = false ∧
      changesOnly [.brg] [] s t) ∧
    (s.chip.brg.receiver = none ∨ brgReaches s.chip = false → exec .platformEventSend s = .next s) ∧
    (e.sent = false ∨ brgReaches s.chip = false → exec .platformEventAck s = .next s)) ∧
  (∀ (s : State), s.chip.pwr.vauxUp = true → ∃ t, exec .sensorSample s = .next t ∧
    (∀ e : Fin 256, sensorOf t.chip e.val =
      (if sensorOn s.chip e.val && !s.chip.brg.disabled.contains e.val then
        (if sensorReadable s.chip (sensorOf s.chip e.val) then
          { sensorOf s.chip e.val with available := true, reading := formReading (sensorOf s.chip e.val) (wordAt s (sensorOf s.chip e.val).w1) }
        else { sensorOf s.chip e.val with available := false })
      else sensorOf s.chip e.val)) ∧ changesOnly [.brg] [] s t) ∧
  (∀ (k : MgmtPort) (e : BrgEvent) (s : State), brgAnswers s.chip k.val = true → inI3c s.chip k.val = true →
    getF s.chip BRG_ALERT_CFG_IBI 0 = 3 → s.chip.brg.events = [e] → ibiDone k.val e = false →
    (∃ t, exec (.ibiRaise k true) s = .next t ∧ t.chip.sent = .ibi k 0xF0 :: s.chip.sent ∧
      t.chip.brg.events.map (ibiDone k.val) = [true] ∧ t.chip.brg.events.map (·.record) = [e.record] ∧
      changesOnly [.brg, .sent] [] s t) ∧ exec (.ibiRaise k false) s = .next s) ∧
  (∀ (k : MgmtPort) (s : State), brgAnswers s.chip k.val = true → inI3c s.chip k.val = false →
    (s.chip.brg.alertLow = true → s.chip.brg.events ≠ [] → getF s.chip BRG_ALERT_CFG_PIN 0 = 1 →
      ∃ t, exec (.alertResponse k) s = .next t ∧ t.chip.brg.alertLow = false ∧
        t.chip.sent = .brg k 0x0C [0x60 + 8 * k.val + s.chip.pwr.maddr] :: s.chip.sent ∧
        changesOnly [.brg, .sent] [] s t) ∧
    (s.chip.brg.alertLow = false → exec (.alertResponse k) s = .next s))

/-- Updates, activation, rollback protection and the restart of prefect forms. BEGIN erases the inactive slot and
opens it, a data word appends to it up to 8 MiB, VERIFY returns the first check of R568 that fails or OK, ACTIVATE
after OK marks the slot active: a management image restarts the cores, a prefect image sets PFXLOAD until every form
holds it (no care region waiting). Each ends with STATUS and SEC_UPD_DONE, VERIFY and ACTIVATE with SEQUENCE out of
order, and each shows BUSY while another runs; no other slot changes. COMMIT_SVN raises a minimum to the active
image's SVN, at most 64, which alone changes the Alias key, and never lowers it; a key is revoked unless an active
image names it. A form that hangs or loses memory while its image runs raises its fault and loses its memories, as
every form does at a load (what they hold is the model's reading, log 130). A data word with no slot open, or once
VERIFY has run, does nothing, and every command raises SEC_UPD_DONE: the model's choices (log 62). (derived; R568,
R570, R571, R572, R574, R582.) -/
def Obligations.FirmwareUpdates : Prop :=
  let ctl : List Nat := [at0 SEC_UPD_CTRL_OP 0, at0 SEC_UPD_CTRL_TYPE 0, at0 SEC_UPD_CTRL_GO 0, at0 SEC_UPD_CTRL_STATUS 0,
    at0 (PG_EVT_PEND .sec) 0]
  let ready (pa : Path) (s : State) : Prop := pageOpen s.chip pa .sec 0 ∧ getF s.chip SEC_UPD_CTRL_GO 0 = 0
  let status (n : Nat) (t : State) : Prop :=
    getF t.chip SEC_UPD_CTRL_STATUS 0 = n ∧ getF t.chip SEC_UPD_CTRL_GO 0 = 0 ∧ evtBit t.chip .sec 0 0
  let only (x : Bool) (s t : State) : Prop :=
    (∀ y b : Bool, (y, b) ≠ (x, !activeSlot s.chip x) → slotOf t.chip y b = slotOf s.chip y b) ∧
      (∀ y : Bool, activeSlot t.chip y = activeSlot s.chip y ∧ fusedMin t.chip y = fusedMin s.chip y) ∧
      t.chip.sec.revoked = s.chip.sec.revoked
  let spare (x : Bool) (c : Chip) : ImgSlot := slotOf c x (!activeSlot c x)
  (∀ (pa : Path) (x : Bool) (s : State), pageOpen s.chip pa .sec 0 → getF s.chip SEC_UPD_CTRL_GO 0 = 1 →
    ∃ t, exec (.secUpdBegin pa x) s = .next t ∧ exec (.secUpdVerify pa x) s = .next t ∧
      exec (.secUpdActivate pa x) s = .next t ∧ exec (.secCommitSvn pa x) s = .next t ∧
      getF t.chip SEC_UPD_CTRL_STATUS 0 = 2 ∧ changesOnly [] [at0 SEC_UPD_CTRL_STATUS 0] s t) ∧
  (∀ (pa : Path) (x : Bool) (s : State), ready pa s → ∃ t, exec (.secUpdBegin pa x) s = .next t ∧
    spare x t.chip = { words := some [], spoiled := false } ∧ t.chip.sec.open_ = some x ∧ t.chip.sec.verified = false ∧
    t.chip.sec.checked = false ∧ getF t.chip SEC_UPD_LEN_BYTES 0 = 0 ∧ status 1 t ∧ only x s t ∧
    changesOnly [.sec] (at0 SEC_UPD_LEN_BYTES 0 :: ctl) s t) ∧
  (∀ (pa : Path) (w : Word) (x : Bool) (s : State), pageOpen s.chip pa .sec 0 → s.chip.sec.open_ = some x →
    s.chip.sec.checked = false →
    (∀ l : List Nat, (spare x s.chip).words = some l → l.length < 2097152 → ∃ t, exec (.secUpdData pa w) s = .next t ∧
      spare x t.chip = { words := some (l ++ [w.toNat]), spoiled := false } ∧ t.chip.sec.verified = s.chip.sec.verified ∧
      t.chip.sec.checked = false ∧ getF t.chip SEC_UPD_LEN_BYTES 0 = 4 * (l.length + 1) ∧ only x s t ∧
      changesOnly [.sec] [at0 SEC_UPD_LEN_BYTES 0] s t) ∧
    (∀ l : List Nat, (spare x s.chip).words = some l → 2097152 ≤ l.length → ∃ t, exec (.secUpdData pa w) s = .next t ∧
      t.chip.sec.open_ = none ∧ status 10 t ∧ only x s t ∧ changesOnly [.sec] ctl s t)) ∧
  (∀ (pa : Path) (w : Word) (s : State), pageOpen s.chip pa .sec 0 → s.chip.sec.open_ = none ∨ s.chip.sec.checked = true →
    exec (.secUpdData pa w) s = .next s) ∧
  (∀ (pa : Path) (x : Bool) (s : State), ready pa s →
    (s.chip.sec.open_ = some x → ∃ t, exec (.secUpdVerify pa x) s = .next t ∧
      status (verifyCode s.chip x (!activeSlot s.chip x)) t ∧
      t.chip.sec.verified = (verifyCode s.chip x (!activeSlot s.chip x) == 1) ∧ t.chip.sec.checked = true ∧
      t.chip.sec.open_ = s.chip.sec.open_ ∧ only x s t ∧
      spare x t.chip = spare x s.chip ∧ changesOnly [.sec, .cnt] ctl s t) ∧
    (s.chip.sec.open_ ≠ some x → ∃ t, exec (.secUpdVerify pa x) s = .next t ∧ status 9 t ∧ changesOnly [] ctl s t)) ∧
  (∀ (pa : Path) (s : State), ready pa s → s.chip.sec.open_ = some true → s.chip.sec.verified = true →
    ∃ t, exec (.secUpdActivate pa true) s = .next t ∧ activeSlot t.chip true = !activeSlot s.chip true ∧
      activeSlot t.chip false = activeSlot s.chip false ∧ t.chip.sec.open_ = none ∧
      (∀ y b : Bool, slotOf t.chip y b = slotOf s.chip y b) ∧ getF t.chip SEC_STAT_PFXLOAD 0 = 1 ∧
      getF t.chip SEC_UPD_CTRL_GO 0 = 1 ∧ t.chip.mrk.rings = [] ∧
      changesOnly [.sec, .mrk] (at0 SEC_STAT_PFXLOAD 0 :: ctl) s t) ∧
  (∀ (pa : Path) (s : State), ready pa s → s.chip.sec.open_ = some false → s.chip.sec.verified = true →
    ∃ t, exec (.secUpdActivate pa false) s = .next t ∧ activeSlot t.chip false = !activeSlot s.chip false ∧
      activeSlot t.chip true = activeSlot s.chip true ∧ (∀ y b : Bool, slotOf t.chip y b = slotOf s.chip y b) ∧
      getF t.chip SEC_STAT_MGT_OK 0 = 1 ∧ (∀ k : Core, getF s.chip MGT_CORE_CTRL_RST k.val = 0 →
        coreState t.chip k.val = 1) ∧ status 1 t ∧ evtBit t.chip .sec 0 1 ∧
      keepsParts [.fld, .sec, .mgt, .cnt] s.chip t.chip ∧ t.recs = s.recs ∧ t.pending = s.pending) ∧
  (∀ (pa : Path) (x : Bool) (s : State), ready pa s → s.chip.sec.open_ ≠ some x ∨ s.chip.sec.verified = false →
    ∃ t, exec (.secUpdActivate pa x) s = .next t ∧ status 9 t ∧ changesOnly [] ctl s t) ∧
  (∀ s : State, getF s.chip SEC_STAT_PFXLOAD 0 = 1 →
    (formCommandRuns s.chip = false → s.chip.car.initOwed = [] → ∃ t, exec .prefectActivationLoad s = .next t ∧
      getF t.chip SEC_STAT_PFXLOAD 0 = 0 ∧ getF t.chip SEC_STAT_PFX_OK 0 = 1 ∧ status 1 t ∧ evtBit t.chip .sec 0 1 ∧
      t.chip.mrk = { s.chip.mrk with rings := [], confirm := [], todo := [], places := [], secondMove := [] } ∧
      changesOnly [.mrk] ([at0 SEC_STAT_PFXLOAD 0, at0 SEC_STAT_PFX_OK 0, at0 SEC_STAT_FAILED 0] ++ ctl) s t) ∧
    (formCommandRuns s.chip = true → exec .prefectActivationLoad s = .next s)) ∧
  (∀ (pa : Path) (x : Bool) (s : State), ready pa s →
    ∃ t, exec (.secCommitSvn pa x) s = .next t ∧
      fusedMin t.chip x = max (fusedMin s.chip x) (min 64 (imgSvn (slotWords s.chip x (activeSlot s.chip x)))) ∧
      (fusedMin t.chip x = fusedMin s.chip x → t.chip.sec = s.chip.sec) ∧
      (fusedMin t.chip x ≠ fusedMin s.chip x → t.chip.sec.aliasOf = (deriveAlias t.chip).sec.aliasOf) ∧
      fusedMin t.chip (!x) = fusedMin s.chip (!x) ∧ (∀ y b : Bool, slotOf t.chip y b = slotOf s.chip y b) ∧ status 1 t ∧
      changesOnly [.sec] ctl s t) ∧
  (∀ (pa : Path) (k : Fin 16) (s : State), pageOpen s.chip pa .sec 0 →
    ((∀ x : Bool, bit k.val (imgKeySlot (slotWords s.chip x (activeSlot s.chip x))) = false) →
      ∃ t, exec (.secKeyrev pa k) s = .next t ∧ t.chip.sec.revoked = Nat.lor s.chip.sec.revoked k.val ∧
        { t.chip.sec with revoked := s.chip.sec.revoked } = s.chip.sec ∧ changesOnly [.sec] [] s t) ∧
    (∀ x : Bool, bit k.val (imgKeySlot (slotWords s.chip x (activeSlot s.chip x))) = true →
      exec (.secKeyrev pa k) s = .next s)) ∧
  (∀ (f : Grp) (s : State),
    (getF s.chip SEC_STAT_PFX_OK 0 = 1 → pageStarted s.chip .pfxF f.val = true →
      (∃ t, exec (.pfxFormHang f) s = .next t ∧ errBit t.chip .pfxF f.val 2 ∧
        t.chip.mrk = (formsForget (fun g => g == f.val) s.chip).mrk ∧ changesOnly [.mrk, .flt, .cnt] [at0 (PG_ERR .pfxF) f.val] s t) ∧
      (∃ t, exec (.pfxMemUe f) s = .next t ∧ errBit t.chip .pfxF f.val 1 ∧
        t.chip.mrk = (formsForget (fun g => g == f.val) s.chip).mrk ∧ changesOnly [.mrk, .flt, .cnt] [at0 (PG_ERR .pfxF) f.val] s t)) ∧
    (getF s.chip SEC_STAT_PFX_OK 0 = 0 → exec (.pfxFormHang f) s = .next s ∧ exec (.pfxMemUe f) s = .next s))

/-- SPDM answers, sessions and Link IDE. A responder that is reached answers a certificate, challenge, measurement or
key exchange request with data signed over its nonce and the measurement subjects, or with an error where the fuses
cannot be read; a key exchange opens one of two sessions. On a host-facing port with a session, KEY_PROG sets a key,
K_SET_GO runs a direction under a programmed key set, K_SET_STOP stops it, QUERY changes nothing; IDE_ON is 1 exactly
while both directions run. An integrity failure clears IDE_ON, raises SEC_IDE_FAIL and records the first port. What is
signed, that a stop drops its key and that a request without a session or key is refused are the model's choices (log
60, 63). (derived; R566, R575, R576, R577, R578.) -/
def Obligations.AttestationAndLinkIde : Prop :=
  let told (v : SpdmVia) (w : Nat) (own : List Nat) (s t : State) : Prop :=
    t.chip.sent = (if s.chip.sec.fuseUe then .spdm v 0 []
      else .spdm v w (Config.spdmData w (s.chip.sec.aliasOf.getD 0) own (measured s.chip))) :: s.chip.sent
  let ide (p : Port) (w : Nat) (s t : State) : Prop :=
    t.chip.sent = .ideKm p w :: s.chip.sent ∧
      getF t.chip PRT_STAT_IDE_ON p.val =
        b2n ((ideOf t.chip p.val).txGo.isSome && (ideOf t.chip p.val).rxGo.isSome) ∧
      (∀ q : Port, q ≠ p → ideOf t.chip q.val = ideOf s.chip q.val) ∧
      changesOnly [.sec, .cnt, .sent] [at0 PRT_STAT_IDE_ON p.val] s t
  let refused (p : Port) (s t : State) : Prop :=
    t.chip.sent = .ideKm p 0 :: s.chip.sent ∧ changesOnly [.cnt, .sent] [] s t
  (∀ (v : SpdmVia) (n : BitVec 256) (s : State), spdmThere s.chip v = true →
    (∃ t, exec (.spdmGetCertificate v) s = .next t ∧ told v 1 [] s t ∧ changesOnly [.cnt, .sent] [] s t) ∧
    (∃ t, exec (.spdmChallenge v n) s = .next t ∧ told v 2 [n.toNat] s t ∧ changesOnly [.cnt, .sent] [] s t) ∧
    (∃ t, exec (.spdmGetMeasurements v n) s = .next t ∧ told v 3 [n.toNat] s t ∧ changesOnly [.cnt, .sent] [] s t)) ∧
  (∀ (v : SpdmVia) (x : Nat) (s : State), spdmThere s.chip v = true → s.chip.sec.fuseUe = false →
    (sessionsOf s.chip v < 2 → ∃ t, exec (.spdmKeyExchange v x) s = .next t ∧ told v 4 [x] s t ∧
      sessionsOf t.chip v = sessionsOf s.chip v + 1 ∧ changesOnly [.sec, .cnt, .sent] [] s t) ∧
    (2 ≤ sessionsOf s.chip v → ∃ t, exec (.spdmKeyExchange v x) s = .next t ∧
      t.chip.sent = .spdm v 0 [] :: s.chip.sent ∧ changesOnly [.cnt, .sent] [] s t)) ∧
  (∀ (v : SpdmVia) (n : BitVec 256) (s : State), spdmThere s.chip v = false →
    exec (.spdmGetCertificate v) s = .next s ∧ exec (.spdmChallenge v n) s = .next s) ∧
  (∀ (p : Port) (tx : Bool) (set : Fin 2) (key : BitVec 256) (s : State), hostFacing s.chip p.val = true →
    inL0 s.chip p.val = true → kvGet 0 s.chip.sec.sessions p.val ≠ 0 →
    (∃ t, exec (.ideKmQuery p) s = .next t ∧ ideOf t.chip p.val = ideOf s.chip p.val ∧ ide p 1 s t) ∧
    (∃ t, exec (.ideKmKeyProg p tx set key) s = .next t ∧
      kvFind (if tx then (ideOf t.chip p.val).txKey else (ideOf t.chip p.val).rxKey) set.val = some key ∧
      (ideOf t.chip p.val).txGo = (ideOf s.chip p.val).txGo ∧ (ideOf t.chip p.val).rxGo = (ideOf s.chip p.val).rxGo ∧
      ide p 2 s t) ∧
    (kvFind (if tx then (ideOf s.chip p.val).txKey else (ideOf s.chip p.val).rxKey) set.val = some key →
      ∃ t, exec (.ideKmKSetGo p tx set) s = .next t ∧
        (ideOf t.chip p.val).txGo = (if tx then some set.val else (ideOf s.chip p.val).txGo) ∧
        (ideOf t.chip p.val).rxGo = (if tx then (ideOf s.chip p.val).rxGo else some set.val) ∧
        (ideOf t.chip p.val).txKey = (ideOf s.chip p.val).txKey ∧ (ideOf t.chip p.val).rxKey = (ideOf s.chip p.val).rxKey ∧
        ide p 3 s t) ∧
    (kvFind (if tx then (ideOf s.chip p.val).txKey else (ideOf s.chip p.val).rxKey) set.val = none →
      ∃ t, exec (.ideKmKSetGo p tx set) s = .next t ∧ refused p s t) ∧
    (∃ t, exec (.ideKmKSetStop p tx set) s = .next t ∧
      kvFind (if tx then (ideOf t.chip p.val).txKey else (ideOf t.chip p.val).rxKey) set.val = none ∧
      (if tx then (ideOf t.chip p.val).txGo else (ideOf t.chip p.val).rxGo) ≠ some set.val ∧ ide p 4 s t)) ∧
  (∀ (p : Port) (tx : Bool) (set : Fin 2) (key : BitVec 256) (s : State), hostFacing s.chip p.val = true →
    inL0 s.chip p.val = true → kvGet 0 s.chip.sec.sessions p.val = 0 →
    ∃ t, exec (.ideKmQuery p) s = .next t ∧ exec (.ideKmKeyProg p tx set key) s = .next t ∧
      exec (.ideKmKSetGo p tx set) s = .next t ∧ exec (.ideKmKSetStop p tx set) s = .next t ∧ refused p s t) ∧
  (∀ (p : Port) (s : State),
    (getF s.chip PRT_STAT_IDE_ON p.val = 1 → ∃ t, exec (.secIdeFail p) s = .next t ∧
      getF t.chip PRT_STAT_IDE_ON p.val = 0 ∧ errBit t.chip .sec 0 2 ∧ getF t.chip SEC_IDE_ERR_VALID 0 ≠ 0 ∧
      (getF s.chip SEC_IDE_ERR_VALID 0 = 0 → getF t.chip SEC_IDE_ERR_PORT 0 = p.val) ∧
      changesOnly [.sec, .flt] [at0 PRT_STAT_IDE_ON p.val, at0 (PG_ERR .sec) 0, at0 SEC_IDE_ERR_VALID 0,
        at0 SEC_IDE_ERR_PORT 0] s t) ∧
    (getF s.chip PRT_STAT_IDE_ON p.val = 0 → exec (.secIdeFail p) s = .next s))

/-- A register write through a path: its page, its size, what it writes and how it is refused. An aligned word through
an open path writes what its register says: the header's CFRZ takes bit 0, its LOCK sets and never clears, PG_EVT_PEND
clears the bits written 1, a word that holds no register changes nothing. An aligned 8-byte write of CFRZ through the
manager function or a core is that word and the next, which holds nothing. Another size, an undefined page, or a page
that has not started is refused, recorded in GLB_AERR once and raises GLB_ACCESS; a write that the bridge passes on to
a page that has not started changes nothing; a closed page raises SEC_CLOSED_HIT. A manager function that the port
does not present takes nothing. That a closed page is found before one that has not started is the model's reading
(log 64). (derived; R13, R581, R587, R596, R597, R599, R600, R603, R604.) -/
def Obligations.RegisterAccesses : Prop :=
  let aerr (kind : Nat) (pa : Path) (a : Nat) (s t : State) : Prop :=
    t.chip.sent = .pathRefused pa :: s.chip.sent ∧ errBit t.chip .glb 0 0 ∧ getF t.chip GLB_AERR_VALID 0 ≠ 0 ∧
      (getF s.chip GLB_AERR_VALID 0 = 0 → getF t.chip GLB_AERR_KIND 0 = kind ∧ getF t.chip GLB_AERR_PATH 0 = pathCode pa ∧
        getF t.chip GLB_AERR_ADDR 0 = a % 2 ^ 27) ∧
      changesOnly [.flt, .sent] [at0 (PG_ERR .glb) 0, at0 GLB_AERR_VALID 0, at0 GLB_AERR_KIND 0, at0 GLB_AERR_PATH 0,
        at0 GLB_AERR_ADDR 0] s t
  (∀ (pa : Path) (a : Nat) (v : BitVec 64) (kd : PK) (n : Nat) (s : State), pageKind (a / 4096) = some (kd, n) →
    pageOpen s.chip pa kd n →
    (a % 4096 = 0x010 → ∃ t, exec (.registerWrite pa a 4 v) s = .next t ∧ getF t.chip (PG_CTRL_CFRZ kd) n = v.toNat % 2 ∧
      changesOnly [] [at0 (PG_CTRL_CFRZ kd) n] s t ∧
      (a % 8 = 0 → pa ≠ .bridge → exec (.registerWrite pa a 8 v) s = .next t)) ∧
    (a % 4096 = 0x00C → ∃ t, exec (.registerWrite pa a 4 v) s = .next t ∧
      getF t.chip (PG_LOCK kd) n = (if v.toNat % 2 = 1 then 1 else getF s.chip (PG_LOCK kd) n) ∧
      changesOnly [] [at0 (PG_LOCK kd) n] s t) ∧
    (a % 4096 = 0x028 → ∃ t, exec (.registerWrite pa a 4 v) s = .next t ∧
      (∀ b : Fin 16, bit (getF t.chip (PG_EVT_PEND kd) n) b.val =
        (bit (getF s.chip (PG_EVT_PEND kd) n) b.val && !bit v.toNat b.val)) ∧
      changesOnly [] [at0 (PG_EVT_PEND kd) n] s t) ∧
    (a % 4096 = 0x030 → exec (.registerWrite pa a 4 v) s = .next s)) ∧
  (∀ (p : Port) (a sz : Nat) (v : BitVec 64) (s : State), pathUp s.chip (.mgr p) = false →
    (inL0 s.chip p.val = true → ∃ t, exec (.registerWrite (.mgr p) a sz v) s = .next t ∧
      t.chip.sent = .pathRefused (.mgr p) :: s.chip.sent ∧ changesOnly [.sent] [] s t) ∧
    (inL0 s.chip p.val = false → exec (.registerWrite (.mgr p) a sz v) s = .next s)) ∧
  (∀ (pa : Path) (a sz : Nat) (v : BitVec 64) (s : State), pathUp s.chip pa = true → pageStarted s.chip .glb 0 = true →
    (sz ≠ 4 ∧ sz ≠ 8) ∨ (sz = 4 ∧ a % 4 ≠ 0) ∨ (sz = 8 ∧ (a % 8 ≠ 0 ∨ pa = .bridge)) →
    ∃ t, exec (.registerWrite pa a sz v) s = .next t ∧ aerr 1 pa a s t) ∧
  (∀ (pa : Path) (a : Nat) (v : BitVec 64) (s : State), pathUp s.chip pa = true → pageStarted s.chip .glb 0 = true → a % 4 = 0 →
    pageAt a = none → ∃ t, exec (.registerWrite pa a 4 v) s = .next t ∧ aerr 2 pa a s t) ∧
  (∀ (pa : Path) (a : Nat) (v : BitVec 64) (kd : PK) (n : Nat) (s : State), pathUp s.chip pa = true → pageAt a = some (kd, n) → a % 4 = 0 →
    (pathClosed s.chip pa (blockOf kd) = true → ∃ t, exec (.registerWrite pa a 4 v) s = .next t ∧
      t.chip.sent = .pathRefused pa :: s.chip.sent ∧ errBit t.chip .sec 0 4 ∧
      changesOnly [.flt, .cnt, .sent] [at0 (PG_ERR .sec) 0] s t) ∧
    (pathClosed s.chip pa (blockOf kd) = false → pageStarted s.chip kd n = false →
      (pa = .bridge → exec (.registerWrite pa a 4 v) s = .next s) ∧
      (pa ≠ .bridge → pageStarted s.chip .glb 0 = true → ∃ t, exec (.registerWrite pa a 4 v) s = .next t ∧
        aerr 0 pa a s t)))

/-- A completion of an ID that is not active, or that another core claimed. A running core's write to MGT_COMP that
names an ID which is not active, or whose claimer is another core, changes nothing but that MGT_COMP_BAD, PG_ERR bit 0
of the MGT page, is raised: the bit becomes 1 and, where it was 0, unmasked and its link whole, its code goes to the
fault collector with the severity of the bit, which is CE at reset. (stated; R537.) -/
def Obligations.CompletionsRefused : Prop :=
  (∀ (c : Core) (id : IrqId) (s : State), coreUp s.chip c.val = true →
    isActive s.chip id.val = false ∨ kvFind s.chip.mgt.claimer id.val ≠ some c.val →
    ∃ t, exec (.mgtComp c id) s = .next t ∧ errBit t.chip .mgtC 0 0 ∧
      changesOnly [.flt] [at0 (PG_ERR .mgtC) 0] s t ∧
      (bit (getF s.chip (PG_ERR .mgtC) 0) 0 = false → pgUnmasked s.chip .mgtC 0 0 = true → s.chip.flt.broken = [] →
        t.chip.flt = { s.chip.flt with codes := queueCode { page := pageOf .mgtC 0, sev := pgSev s.chip .mgtC 0 0, linkpoll := false, inj := false, isLink := false, time := s.chip.slp.aux } s.chip.flt.codes })) ∧
  pgSev Chip.reset .mgtC 0 0 = 0

/-- Writes and reads of a tenancy's record buffer. A word or two written to TEN_REC while the tenancy is OFF sets
those bytes of its buffer, lowest first, and no other byte; at any other time the write, through any path and also as
a non-posted bridge write, changes no byte of any buffer. A read that the bridge takes returns the four bytes of the
buffer, whatever the tenancy's state. (stated; R469.) -/
def Obligations.RecordBufferAccess : Prop :=
  (∀ (pa : Path) (a : Nat) (v : BitVec 64) (n : Ten) (w : Fin 256) (s : State), s.lawful = true →
    pageOpen s.chip pa .ten n.val → a = (pageOf .ten n.val) * 4096 + 0x400 + 4 * w.val →
    (tenState s.chip n.val = 0 → ∃ t, exec (.registerWrite pa a 4 v) s = .next t ∧ t.lawful = true ∧
      (∀ i : Fin 4, readByte t.recs (recAddr n.val (4 * w.val + i.val)) = BitVec.ofNat 8 (v.toNat / 256 ^ i.val)) ∧
      (∀ x : Nat, x < recAddr n.val (4 * w.val) ∨ recAddr n.val (4 * w.val) + 4 ≤ x →
        readByte t.recs x = readByte s.recs x) ∧ t.chip = s.chip ∧ t.pending = s.pending) ∧
    (tenState s.chip n.val = 0 → w.val % 2 = 0 → pa ≠ .bridge → ∃ t, exec (.registerWrite pa a 8 v) s = .next t ∧
      t.lawful = true ∧
      (∀ i : Fin 8, readByte t.recs (recAddr n.val (4 * w.val + i.val)) = BitVec.ofNat 8 (v.toNat / 256 ^ i.val)) ∧
      (∀ x : Nat, x < recAddr n.val (4 * w.val) ∨ recAddr n.val (4 * w.val) + 8 ≤ x →
        readByte t.recs x = readByte s.recs x) ∧ t.chip = s.chip ∧ t.pending = s.pending) ∧
    (tenState s.chip n.val ≠ 0 → exec (.registerWrite pa a 4 v) s = .next s ∧
      (w.val % 2 = 0 → pa ≠ .bridge → exec (.registerWrite pa a 8 v) s = .next s))) ∧
  (∀ (k : MgmtPort) (a v : Word) (pec : Bool) (n : Ten) (w : Fin 256) (s : State), pec = true ∨ inI3c s.chip k.val = true → brgAnswers s.chip k.val = true →
    (brgPortOf s.chip k.val).req = none → (brgPortOf s.chip k.val).posted = [] → (brgPortOf s.chip k.val).late = [] →
    pageOpen s.chip .bridge .ten n.val → a.toNat = (pageOf .ten n.val) * 4096 + 0x400 + 4 * w.val →
    (tenState s.chip n.val ≠ 0 → writePosted s.chip a.toNat = false → ∃ t, exec (.brgWrite k a v pec) s = .next t ∧
      (brgPortOf t.chip k.val).res = .done ∧ t.recs = s.recs) ∧
    (∃ t, exec (.brgRead k a pec) s = .next t ∧ (brgPortOf t.chip k.val).res = .done ∧
      (brgPortOf t.chip k.val).data = (readByte s.recs (recAddr n.val (4 * w.val))).toNat +
        256 * (readByte s.recs (recAddr n.val (4 * w.val + 1))).toNat +
        65536 * (readByte s.recs (recAddr n.val (4 * w.val + 2))).toNat +
        16777216 * (readByte s.recs (recAddr n.val (4 * w.val + 3))).toNat ∧ t.recs = s.recs))

/-- A step runs the command at the front of the queue. For every command c and every state, a step with c at the front
of the queue is exec of c on the state with the queue's rest. That commands wait in one queue and run in its order is
the model's form (log 1). (derived; R24.) -/
def Obligations.StepRunsTheFrontCommand : Prop :=
  ∀ (c : Instr) (rest : List Instr) (s : State),
    Sys2Proof.core.step { s with pending := c :: rest } = Sys2Proof.Machine.exec c { s with pending := rest }

/-- The part right after reset. A pick of register fields over the blocks reads its tables' reset values; TMB reads 0
and has not started, no stage has started, no port is enabled, no tenancy is on and every tenancy is of generation 0,
the windows, the map cache, the slates, the roll and the buffers are empty, the sideband output is all zeros, both
management ports are in SMBus mode with nothing queued. The record buffers are in their canonical form, and no command
waits (the model's form, log 1). (derived; R10, R114, R295, R422, R450, R474, R564, R608, R612.) -/
def Obligations.ResetState : Prop :=
  let s := Sys2Proof.core.reset
  let c := Chip.reset
  s = State.reset ∧ State.reset.lawful = true ∧ State.reset.pending = [] ∧ State.reset.chip = c ∧
    (∀ a : Nat, readByte State.reset.recs a = 0) ∧
    c.tmb.now = 0 ∧ c.tmb.started = false ∧ c.pwr.begun = 0 ∧ c.pwr.done = 0 ∧
    getF c PWR_PACE_TGT_TGT 0 = 1024 ∧ getF c PWR_TEMP_LVL_WARN 0 = 110 ∧ getF c PWR_TEMP_LVL_TRIP 0 = 130 ∧
    getF c GLB_STAGGER_INTERVAL 0 = 10 ∧ getF c FLT_CTRL_FE_DELAY 0 = 10 ∧ getF c BRG_CTRL_FETCH_TMO 0 = 10 ∧
    getFi c BRG_WRANGE_BASE 0 0 = 0x1C00 ∧ getFi c BRG_WRANGE_POSTED 0 1 = 0 ∧ getF c BRG_SBC_CFG_LEN 0 = 8 ∧
    getF c MRK_CTRL_CONFIRM 0 = 2 ∧ getF c CAR_CTRL_PASS_H 0 = 6 ∧
    (∀ k : Chan, getF c SLP_CFG_VLIM k.val = 25 ∧ getF c SLP_STAT_STATE k.val = 0) ∧
    (∀ g : Grp, getF c PHY_LG_CTRL_RATECAP g.val = 6) ∧
    (∀ p : Port, getF c PRT_CFG_EN p.val = 0 ∧ getF c PRT_CFG_X128_EN p.val = 1 ∧ inL0 c p.val = false) ∧
    (∀ n : Ten, tenState c n.val = 0 ∧ tenGen c n.val = 0) ∧
    c.txns = [] ∧ c.slt.entries = [] ∧ c.rol.snoops = [] ∧ c.xbr.pkts = [] ∧ c.map.cache = [] ∧ c.bnd.live = [] ∧
    c.flt.log = [] ∧ c.sbc.outImg = 0 ∧ c.sbc.inImg = 0 ∧
    (∀ k : MgmtPort, inI3c c k.val = false ∧ (brgPortOf c k.val).posted = [] ∧ (brgPortOf c k.val).req = none)

/-- Every well-formed command answers a next state and leaves the queue alone. On every state, every command of the
table whose lists have a length its row can have answers a next state whose queue is the one it was given: no command
ends in a fault, and none is refused. A command of another shape (a pace meter window that is not sixteen meters, more
than 28 records in a marks flit, more than 64 bytes in an MCTP packet) is refused as ill-formed. The queue is the
model's form (log 1). (derived; R22, R100, R193, R553.) -/
def Obligations.EveryCommandAnswers : Prop :=
  ∀ (i : Instr) (s : State),
    (wellFormed i = true → ∃ t, exec i s = .next t ∧ t.pending = s.pending) ∧
      (wellFormed i = false → exec i s = .refused .illFormed)

/-- Every step keeps the record buffers in canonical form. From every state whose record buffers are in canonical form
(addresses strictly rising, no zero byte listed), a step that answers a next state gives a state whose record buffers
are in canonical form, whatever command ran: a save, a restore, a write of TEN_REC through any path, a posted bridge
write, a reset, or none. The form is the model's (log 47). (derived; R468, R469, R474, R600.) -/
def Obligations.StepsKeepTheRecordBuffers : Prop :=
  ∀ s t : State, s.lawful = true → Sys2Proof.Machine.step s = .next t → t.lawful = true

/-- TMB_NOW is never written, and no command but a cold reset moves it. In every step TMB_NOW either stays as it was,
or the queue is empty, TMB runs and TMB_NOW advances by 10 modulo 2^64, or the command is a lost supply or a thermal
trip, whose cold reset sets it to 0 and stops it. Whenever the queue is empty, the step adds 10 to TMB_NOW while TMB
runs, and 10 to the auxiliary timer while VAUX is valid, whether TMB runs or not; it changes nothing but these two and
counter values, the counters only while TMB runs. A warm reset, however it begins, keeps it. That time passes in the
steps that find no command is the model's choice (log 2). (derived; R114, R608, R609, R612.) -/
def Obligations.TimeBaseMovesOnlyByItself : Prop :=
  let aux (s : State) : Slp := { s.chip.slp with aux := s.chip.slp.aux + if s.chip.pwr.vaux then 10 else 0 }
  (∀ s t : State, Sys2Proof.Machine.step s = .next t →
    t.chip.tmb.now = s.chip.tmb.now ∨
    (s.pending = [] ∧ tmbRuns s.chip = true ∧ t.chip.tmb.now = (s.chip.tmb.now + 10) % 2 ^ 64) ∨
    ((∃ r mv, s.pending.head? = some (.supplyLoss r mv)) ∨ (∃ k tj, s.pending.head? = some (.pwrThermtrip k tj))) ∧
      t.chip.tmb.now = 0 ∧ t.chip.tmb.started = false) ∧
  (∀ s : State, s.pending = [] →
    (tmbRuns s.chip = true → ∃ t, Sys2Proof.Machine.step s = .next t ∧
      t.chip.tmb = { s.chip.tmb with now := (s.chip.tmb.now + 10) % 2 ^ 64 } ∧ t.chip.slp = aux s ∧
      changesOnly [.tmb, .cnt, .slp] [] s t) ∧
    (tmbRuns s.chip = false → ∃ t, Sys2Proof.Machine.step s = .next t ∧ t.chip.slp = aux s ∧ changesOnly [.slp] [] s t))

/-- Commands of links, ports, pool, map, care, tenancies and slots leave the other planes alone. A command of a lane,
a link, a port, a packet, a pool access, the binding table, the map, marks and the rake, media care, the roll, a
slate, a tenancy or a slot channel (174 rows of the table) leaves the time base, the supplies and the start, the
sideband chain, the test port, the interrupt controller's claims and the bridge as they were: what it reports goes to
register fields and the fault collector only, and what stands there reaches the other planes in commands of their own.
(derived; R26, R27, R32, R36.) -/
def Obligations.DataPlaneTouchesNoOtherPlane : Prop :=
  ∀ (i : Instr) (s t : State), dataPlane i = true → exec i s = .next t → t.chip.plane = s.chip.plane
end

