-- ==== Sys2Proof/Laws/State.lean ====
section
/-!
SUPPORT. For every named update of the chip and every part that it does not touch: the part stays. All by `rfl` but
for the updates that branch.
-/
namespace Sys2Proof.Machine

/-! ### setFi -/

@[simp] theorem setFi_tmb (X : Fld) (n i v : Nat) (c : Chip) : (setFi X n i v c).tmb = c.tmb := (rfl)
@[simp] theorem setFi_pwr (X : Fld) (n i v : Nat) (c : Chip) : (setFi X n i v c).pwr = c.pwr := (rfl)
@[simp] theorem setFi_sbc (X : Fld) (n i v : Nat) (c : Chip) : (setFi X n i v c).sbc = c.sbc := (rfl)
@[simp] theorem setFi_tap (X : Fld) (n i v : Nat) (c : Chip) : (setFi X n i v c).tap = c.tap := (rfl)
@[simp] theorem setFi_phy (X : Fld) (n i v : Nat) (c : Chip) : (setFi X n i v c).phy = c.phy := (rfl)
@[simp] theorem setFi_lnk (X : Fld) (n i v : Nat) (c : Chip) : (setFi X n i v c).lnk = c.lnk := (rfl)
@[simp] theorem setFi_prt (X : Fld) (n i v : Nat) (c : Chip) : (setFi X n i v c).prt = c.prt := (rfl)
@[simp] theorem setFi_xbr (X : Fld) (n i v : Nat) (c : Chip) : (setFi X n i v c).xbr = c.xbr := (rfl)
@[simp] theorem setFi_bnd (X : Fld) (n i v : Nat) (c : Chip) : (setFi X n i v c).bnd = c.bnd := (rfl)
@[simp] theorem setFi_ten (X : Fld) (n i v : Nat) (c : Chip) : (setFi X n i v c).ten = c.ten := (rfl)
@[simp] theorem setFi_slt (X : Fld) (n i v : Nat) (c : Chip) : (setFi X n i v c).slt = c.slt := (rfl)
@[simp] theorem setFi_rol (X : Fld) (n i v : Nat) (c : Chip) : (setFi X n i v c).rol = c.rol := (rfl)
@[simp] theorem setFi_txns (X : Fld) (n i v : Nat) (c : Chip) : (setFi X n i v c).txns = c.txns := (rfl)
@[simp] theorem setFi_nextTxn (X : Fld) (n i v : Nat) (c : Chip) : (setFi X n i v c).nextTxn = c.nextTxn := (rfl)
@[simp] theorem setFi_map (X : Fld) (n i v : Nat) (c : Chip) : (setFi X n i v c).map = c.map := (rfl)
@[simp] theorem setFi_media (X : Fld) (n i v : Nat) (c : Chip) : (setFi X n i v c).media = c.media := (rfl)
@[simp] theorem setFi_mrk (X : Fld) (n i v : Nat) (c : Chip) : (setFi X n i v c).mrk = c.mrk := (rfl)
@[simp] theorem setFi_rak (X : Fld) (n i v : Nat) (c : Chip) : (setFi X n i v c).rak = c.rak := (rfl)
@[simp] theorem setFi_car (X : Fld) (n i v : Nat) (c : Chip) : (setFi X n i v c).car = c.car := (rfl)
@[simp] theorem setFi_flt (X : Fld) (n i v : Nat) (c : Chip) : (setFi X n i v c).flt = c.flt := (rfl)
@[simp] theorem setFi_slp (X : Fld) (n i v : Nat) (c : Chip) : (setFi X n i v c).slp = c.slp := (rfl)
@[simp] theorem setFi_mgt (X : Fld) (n i v : Nat) (c : Chip) : (setFi X n i v c).mgt = c.mgt := (rfl)
@[simp] theorem setFi_brg (X : Fld) (n i v : Nat) (c : Chip) : (setFi X n i v c).brg = c.brg := (rfl)
@[simp] theorem setFi_sec (X : Fld) (n i v : Nat) (c : Chip) : (setFi X n i v c).sec = c.sec := (rfl)
@[simp] theorem setFi_cnt (X : Fld) (n i v : Nat) (c : Chip) : (setFi X n i v c).cnt = c.cnt := (rfl)
@[simp] theorem setFi_sent (X : Fld) (n i v : Nat) (c : Chip) : (setFi X n i v c).sent = c.sent := (rfl)
@[simp] theorem setFi_draws (X : Fld) (n i v : Nat) (c : Chip) : (setFi X n i v c).draws = c.draws := (rfl)

/-! ### setF -/

@[simp] theorem setF_tmb (X : Fld) (n v : Nat) (c : Chip) : (setF X n v c).tmb = c.tmb := (rfl)
@[simp] theorem setF_pwr (X : Fld) (n v : Nat) (c : Chip) : (setF X n v c).pwr = c.pwr := (rfl)
@[simp] theorem setF_sbc (X : Fld) (n v : Nat) (c : Chip) : (setF X n v c).sbc = c.sbc := (rfl)
@[simp] theorem setF_tap (X : Fld) (n v : Nat) (c : Chip) : (setF X n v c).tap = c.tap := (rfl)
@[simp] theorem setF_phy (X : Fld) (n v : Nat) (c : Chip) : (setF X n v c).phy = c.phy := (rfl)
@[simp] theorem setF_lnk (X : Fld) (n v : Nat) (c : Chip) : (setF X n v c).lnk = c.lnk := (rfl)
@[simp] theorem setF_prt (X : Fld) (n v : Nat) (c : Chip) : (setF X n v c).prt = c.prt := (rfl)
@[simp] theorem setF_xbr (X : Fld) (n v : Nat) (c : Chip) : (setF X n v c).xbr = c.xbr := (rfl)
@[simp] theorem setF_bnd (X : Fld) (n v : Nat) (c : Chip) : (setF X n v c).bnd = c.bnd := (rfl)
@[simp] theorem setF_ten (X : Fld) (n v : Nat) (c : Chip) : (setF X n v c).ten = c.ten := (rfl)
@[simp] theorem setF_slt (X : Fld) (n v : Nat) (c : Chip) : (setF X n v c).slt = c.slt := (rfl)
@[simp] theorem setF_rol (X : Fld) (n v : Nat) (c : Chip) : (setF X n v c).rol = c.rol := (rfl)
@[simp] theorem setF_txns (X : Fld) (n v : Nat) (c : Chip) : (setF X n v c).txns = c.txns := (rfl)
@[simp] theorem setF_nextTxn (X : Fld) (n v : Nat) (c : Chip) : (setF X n v c).nextTxn = c.nextTxn := (rfl)
@[simp] theorem setF_map (X : Fld) (n v : Nat) (c : Chip) : (setF X n v c).map = c.map := (rfl)
@[simp] theorem setF_media (X : Fld) (n v : Nat) (c : Chip) : (setF X n v c).media = c.media := (rfl)
@[simp] theorem setF_mrk (X : Fld) (n v : Nat) (c : Chip) : (setF X n v c).mrk = c.mrk := (rfl)
@[simp] theorem setF_rak (X : Fld) (n v : Nat) (c : Chip) : (setF X n v c).rak = c.rak := (rfl)
@[simp] theorem setF_car (X : Fld) (n v : Nat) (c : Chip) : (setF X n v c).car = c.car := (rfl)
@[simp] theorem setF_flt (X : Fld) (n v : Nat) (c : Chip) : (setF X n v c).flt = c.flt := (rfl)
@[simp] theorem setF_slp (X : Fld) (n v : Nat) (c : Chip) : (setF X n v c).slp = c.slp := (rfl)
@[simp] theorem setF_mgt (X : Fld) (n v : Nat) (c : Chip) : (setF X n v c).mgt = c.mgt := (rfl)
@[simp] theorem setF_brg (X : Fld) (n v : Nat) (c : Chip) : (setF X n v c).brg = c.brg := (rfl)
@[simp] theorem setF_sec (X : Fld) (n v : Nat) (c : Chip) : (setF X n v c).sec = c.sec := (rfl)
@[simp] theorem setF_cnt (X : Fld) (n v : Nat) (c : Chip) : (setF X n v c).cnt = c.cnt := (rfl)
@[simp] theorem setF_sent (X : Fld) (n v : Nat) (c : Chip) : (setF X n v c).sent = c.sent := (rfl)
@[simp] theorem setF_draws (X : Fld) (n v : Nat) (c : Chip) : (setF X n v c).draws = c.draws := (rfl)

/-! ### setLane -/

@[simp] theorem setLane_tmb (X : Fld) (l v : Nat) (c : Chip) : (setLane X l v c).tmb = c.tmb := (rfl)
@[simp] theorem setLane_pwr (X : Fld) (l v : Nat) (c : Chip) : (setLane X l v c).pwr = c.pwr := (rfl)
@[simp] theorem setLane_sbc (X : Fld) (l v : Nat) (c : Chip) : (setLane X l v c).sbc = c.sbc := (rfl)
@[simp] theorem setLane_tap (X : Fld) (l v : Nat) (c : Chip) : (setLane X l v c).tap = c.tap := (rfl)
@[simp] theorem setLane_phy (X : Fld) (l v : Nat) (c : Chip) : (setLane X l v c).phy = c.phy := (rfl)
@[simp] theorem setLane_lnk (X : Fld) (l v : Nat) (c : Chip) : (setLane X l v c).lnk = c.lnk := (rfl)
@[simp] theorem setLane_prt (X : Fld) (l v : Nat) (c : Chip) : (setLane X l v c).prt = c.prt := (rfl)
@[simp] theorem setLane_xbr (X : Fld) (l v : Nat) (c : Chip) : (setLane X l v c).xbr = c.xbr := (rfl)
@[simp] theorem setLane_bnd (X : Fld) (l v : Nat) (c : Chip) : (setLane X l v c).bnd = c.bnd := (rfl)
@[simp] theorem setLane_ten (X : Fld) (l v : Nat) (c : Chip) : (setLane X l v c).ten = c.ten := (rfl)
@[simp] theorem setLane_slt (X : Fld) (l v : Nat) (c : Chip) : (setLane X l v c).slt = c.slt := (rfl)
@[simp] theorem setLane_rol (X : Fld) (l v : Nat) (c : Chip) : (setLane X l v c).rol = c.rol := (rfl)
@[simp] theorem setLane_txns (X : Fld) (l v : Nat) (c : Chip) : (setLane X l v c).txns = c.txns := (rfl)
@[simp] theorem setLane_nextTxn (X : Fld) (l v : Nat) (c : Chip) : (setLane X l v c).nextTxn = c.nextTxn := (rfl)
@[simp] theorem setLane_map (X : Fld) (l v : Nat) (c : Chip) : (setLane X l v c).map = c.map := (rfl)
@[simp] theorem setLane_media (X : Fld) (l v : Nat) (c : Chip) : (setLane X l v c).media = c.media := (rfl)
@[simp] theorem setLane_mrk (X : Fld) (l v : Nat) (c : Chip) : (setLane X l v c).mrk = c.mrk := (rfl)
@[simp] theorem setLane_rak (X : Fld) (l v : Nat) (c : Chip) : (setLane X l v c).rak = c.rak := (rfl)
@[simp] theorem setLane_car (X : Fld) (l v : Nat) (c : Chip) : (setLane X l v c).car = c.car := (rfl)
@[simp] theorem setLane_flt (X : Fld) (l v : Nat) (c : Chip) : (setLane X l v c).flt = c.flt := (rfl)
@[simp] theorem setLane_slp (X : Fld) (l v : Nat) (c : Chip) : (setLane X l v c).slp = c.slp := (rfl)
@[simp] theorem setLane_mgt (X : Fld) (l v : Nat) (c : Chip) : (setLane X l v c).mgt = c.mgt := (rfl)
@[simp] theorem setLane_brg (X : Fld) (l v : Nat) (c : Chip) : (setLane X l v c).brg = c.brg := (rfl)
@[simp] theorem setLane_sec (X : Fld) (l v : Nat) (c : Chip) : (setLane X l v c).sec = c.sec := (rfl)
@[simp] theorem setLane_cnt (X : Fld) (l v : Nat) (c : Chip) : (setLane X l v c).cnt = c.cnt := (rfl)
@[simp] theorem setLane_sent (X : Fld) (l v : Nat) (c : Chip) : (setLane X l v c).sent = c.sent := (rfl)
@[simp] theorem setLane_draws (X : Fld) (l v : Nat) (c : Chip) : (setLane X l v c).draws = c.draws := (rfl)

/-! ### bumpF -/

@[simp] theorem bumpF_tmb (X : Fld) (n k : Nat) (c : Chip) : (bumpF X n k c).tmb = c.tmb := (rfl)
@[simp] theorem bumpF_pwr (X : Fld) (n k : Nat) (c : Chip) : (bumpF X n k c).pwr = c.pwr := (rfl)
@[simp] theorem bumpF_sbc (X : Fld) (n k : Nat) (c : Chip) : (bumpF X n k c).sbc = c.sbc := (rfl)
@[simp] theorem bumpF_tap (X : Fld) (n k : Nat) (c : Chip) : (bumpF X n k c).tap = c.tap := (rfl)
@[simp] theorem bumpF_phy (X : Fld) (n k : Nat) (c : Chip) : (bumpF X n k c).phy = c.phy := (rfl)
@[simp] theorem bumpF_lnk (X : Fld) (n k : Nat) (c : Chip) : (bumpF X n k c).lnk = c.lnk := (rfl)
@[simp] theorem bumpF_prt (X : Fld) (n k : Nat) (c : Chip) : (bumpF X n k c).prt = c.prt := (rfl)
@[simp] theorem bumpF_xbr (X : Fld) (n k : Nat) (c : Chip) : (bumpF X n k c).xbr = c.xbr := (rfl)
@[simp] theorem bumpF_bnd (X : Fld) (n k : Nat) (c : Chip) : (bumpF X n k c).bnd = c.bnd := (rfl)
@[simp] theorem bumpF_ten (X : Fld) (n k : Nat) (c : Chip) : (bumpF X n k c).ten = c.ten := (rfl)
@[simp] theorem bumpF_slt (X : Fld) (n k : Nat) (c : Chip) : (bumpF X n k c).slt = c.slt := (rfl)
@[simp] theorem bumpF_rol (X : Fld) (n k : Nat) (c : Chip) : (bumpF X n k c).rol = c.rol := (rfl)
@[simp] theorem bumpF_txns (X : Fld) (n k : Nat) (c : Chip) : (bumpF X n k c).txns = c.txns := (rfl)
@[simp] theorem bumpF_nextTxn (X : Fld) (n k : Nat) (c : Chip) : (bumpF X n k c).nextTxn = c.nextTxn := (rfl)
@[simp] theorem bumpF_map (X : Fld) (n k : Nat) (c : Chip) : (bumpF X n k c).map = c.map := (rfl)
@[simp] theorem bumpF_media (X : Fld) (n k : Nat) (c : Chip) : (bumpF X n k c).media = c.media := (rfl)
@[simp] theorem bumpF_mrk (X : Fld) (n k : Nat) (c : Chip) : (bumpF X n k c).mrk = c.mrk := (rfl)
@[simp] theorem bumpF_rak (X : Fld) (n k : Nat) (c : Chip) : (bumpF X n k c).rak = c.rak := (rfl)
@[simp] theorem bumpF_car (X : Fld) (n k : Nat) (c : Chip) : (bumpF X n k c).car = c.car := (rfl)
@[simp] theorem bumpF_flt (X : Fld) (n k : Nat) (c : Chip) : (bumpF X n k c).flt = c.flt := (rfl)
@[simp] theorem bumpF_slp (X : Fld) (n k : Nat) (c : Chip) : (bumpF X n k c).slp = c.slp := (rfl)
@[simp] theorem bumpF_mgt (X : Fld) (n k : Nat) (c : Chip) : (bumpF X n k c).mgt = c.mgt := (rfl)
@[simp] theorem bumpF_brg (X : Fld) (n k : Nat) (c : Chip) : (bumpF X n k c).brg = c.brg := (rfl)
@[simp] theorem bumpF_sec (X : Fld) (n k : Nat) (c : Chip) : (bumpF X n k c).sec = c.sec := (rfl)
@[simp] theorem bumpF_cnt (X : Fld) (n k : Nat) (c : Chip) : (bumpF X n k c).cnt = c.cnt := (rfl)
@[simp] theorem bumpF_sent (X : Fld) (n k : Nat) (c : Chip) : (bumpF X n k c).sent = c.sent := (rfl)
@[simp] theorem bumpF_draws (X : Fld) (n k : Nat) (c : Chip) : (bumpF X n k c).draws = c.draws := (rfl)

/-! ### wrapF -/

@[simp] theorem wrapF_tmb (X : Fld) (n k : Nat) (c : Chip) : (wrapF X n k c).tmb = c.tmb := (rfl)
@[simp] theorem wrapF_pwr (X : Fld) (n k : Nat) (c : Chip) : (wrapF X n k c).pwr = c.pwr := (rfl)
@[simp] theorem wrapF_sbc (X : Fld) (n k : Nat) (c : Chip) : (wrapF X n k c).sbc = c.sbc := (rfl)
@[simp] theorem wrapF_tap (X : Fld) (n k : Nat) (c : Chip) : (wrapF X n k c).tap = c.tap := (rfl)
@[simp] theorem wrapF_phy (X : Fld) (n k : Nat) (c : Chip) : (wrapF X n k c).phy = c.phy := (rfl)
@[simp] theorem wrapF_lnk (X : Fld) (n k : Nat) (c : Chip) : (wrapF X n k c).lnk = c.lnk := (rfl)
@[simp] theorem wrapF_prt (X : Fld) (n k : Nat) (c : Chip) : (wrapF X n k c).prt = c.prt := (rfl)
@[simp] theorem wrapF_xbr (X : Fld) (n k : Nat) (c : Chip) : (wrapF X n k c).xbr = c.xbr := (rfl)
@[simp] theorem wrapF_bnd (X : Fld) (n k : Nat) (c : Chip) : (wrapF X n k c).bnd = c.bnd := (rfl)
@[simp] theorem wrapF_ten (X : Fld) (n k : Nat) (c : Chip) : (wrapF X n k c).ten = c.ten := (rfl)
@[simp] theorem wrapF_slt (X : Fld) (n k : Nat) (c : Chip) : (wrapF X n k c).slt = c.slt := (rfl)
@[simp] theorem wrapF_rol (X : Fld) (n k : Nat) (c : Chip) : (wrapF X n k c).rol = c.rol := (rfl)
@[simp] theorem wrapF_txns (X : Fld) (n k : Nat) (c : Chip) : (wrapF X n k c).txns = c.txns := (rfl)
@[simp] theorem wrapF_nextTxn (X : Fld) (n k : Nat) (c : Chip) : (wrapF X n k c).nextTxn = c.nextTxn := (rfl)
@[simp] theorem wrapF_map (X : Fld) (n k : Nat) (c : Chip) : (wrapF X n k c).map = c.map := (rfl)
@[simp] theorem wrapF_media (X : Fld) (n k : Nat) (c : Chip) : (wrapF X n k c).media = c.media := (rfl)
@[simp] theorem wrapF_mrk (X : Fld) (n k : Nat) (c : Chip) : (wrapF X n k c).mrk = c.mrk := (rfl)
@[simp] theorem wrapF_rak (X : Fld) (n k : Nat) (c : Chip) : (wrapF X n k c).rak = c.rak := (rfl)
@[simp] theorem wrapF_car (X : Fld) (n k : Nat) (c : Chip) : (wrapF X n k c).car = c.car := (rfl)
@[simp] theorem wrapF_flt (X : Fld) (n k : Nat) (c : Chip) : (wrapF X n k c).flt = c.flt := (rfl)
@[simp] theorem wrapF_slp (X : Fld) (n k : Nat) (c : Chip) : (wrapF X n k c).slp = c.slp := (rfl)
@[simp] theorem wrapF_mgt (X : Fld) (n k : Nat) (c : Chip) : (wrapF X n k c).mgt = c.mgt := (rfl)
@[simp] theorem wrapF_brg (X : Fld) (n k : Nat) (c : Chip) : (wrapF X n k c).brg = c.brg := (rfl)
@[simp] theorem wrapF_sec (X : Fld) (n k : Nat) (c : Chip) : (wrapF X n k c).sec = c.sec := (rfl)
@[simp] theorem wrapF_cnt (X : Fld) (n k : Nat) (c : Chip) : (wrapF X n k c).cnt = c.cnt := (rfl)
@[simp] theorem wrapF_sent (X : Fld) (n k : Nat) (c : Chip) : (wrapF X n k c).sent = c.sent := (rfl)
@[simp] theorem wrapF_draws (X : Fld) (n k : Nat) (c : Chip) : (wrapF X n k c).draws = c.draws := (rfl)

/-! ### resetF -/

@[simp] theorem resetF_tmb (X : Fld) (n : Nat) (c : Chip) : (resetF X n c).tmb = c.tmb := (rfl)
@[simp] theorem resetF_pwr (X : Fld) (n : Nat) (c : Chip) : (resetF X n c).pwr = c.pwr := (rfl)
@[simp] theorem resetF_sbc (X : Fld) (n : Nat) (c : Chip) : (resetF X n c).sbc = c.sbc := (rfl)
@[simp] theorem resetF_tap (X : Fld) (n : Nat) (c : Chip) : (resetF X n c).tap = c.tap := (rfl)
@[simp] theorem resetF_phy (X : Fld) (n : Nat) (c : Chip) : (resetF X n c).phy = c.phy := (rfl)
@[simp] theorem resetF_lnk (X : Fld) (n : Nat) (c : Chip) : (resetF X n c).lnk = c.lnk := (rfl)
@[simp] theorem resetF_prt (X : Fld) (n : Nat) (c : Chip) : (resetF X n c).prt = c.prt := (rfl)
@[simp] theorem resetF_xbr (X : Fld) (n : Nat) (c : Chip) : (resetF X n c).xbr = c.xbr := (rfl)
@[simp] theorem resetF_bnd (X : Fld) (n : Nat) (c : Chip) : (resetF X n c).bnd = c.bnd := (rfl)
@[simp] theorem resetF_ten (X : Fld) (n : Nat) (c : Chip) : (resetF X n c).ten = c.ten := (rfl)
@[simp] theorem resetF_slt (X : Fld) (n : Nat) (c : Chip) : (resetF X n c).slt = c.slt := (rfl)
@[simp] theorem resetF_rol (X : Fld) (n : Nat) (c : Chip) : (resetF X n c).rol = c.rol := (rfl)
@[simp] theorem resetF_txns (X : Fld) (n : Nat) (c : Chip) : (resetF X n c).txns = c.txns := (rfl)
@[simp] theorem resetF_nextTxn (X : Fld) (n : Nat) (c : Chip) : (resetF X n c).nextTxn = c.nextTxn := (rfl)
@[simp] theorem resetF_map (X : Fld) (n : Nat) (c : Chip) : (resetF X n c).map = c.map := (rfl)
@[simp] theorem resetF_media (X : Fld) (n : Nat) (c : Chip) : (resetF X n c).media = c.media := (rfl)
@[simp] theorem resetF_mrk (X : Fld) (n : Nat) (c : Chip) : (resetF X n c).mrk = c.mrk := (rfl)
@[simp] theorem resetF_rak (X : Fld) (n : Nat) (c : Chip) : (resetF X n c).rak = c.rak := (rfl)
@[simp] theorem resetF_car (X : Fld) (n : Nat) (c : Chip) : (resetF X n c).car = c.car := (rfl)
@[simp] theorem resetF_flt (X : Fld) (n : Nat) (c : Chip) : (resetF X n c).flt = c.flt := (rfl)
@[simp] theorem resetF_slp (X : Fld) (n : Nat) (c : Chip) : (resetF X n c).slp = c.slp := (rfl)
@[simp] theorem resetF_mgt (X : Fld) (n : Nat) (c : Chip) : (resetF X n c).mgt = c.mgt := (rfl)
@[simp] theorem resetF_brg (X : Fld) (n : Nat) (c : Chip) : (resetF X n c).brg = c.brg := (rfl)
@[simp] theorem resetF_sec (X : Fld) (n : Nat) (c : Chip) : (resetF X n c).sec = c.sec := (rfl)
@[simp] theorem resetF_cnt (X : Fld) (n : Nat) (c : Chip) : (resetF X n c).cnt = c.cnt := (rfl)
@[simp] theorem resetF_sent (X : Fld) (n : Nat) (c : Chip) : (resetF X n c).sent = c.sent := (rfl)
@[simp] theorem resetF_draws (X : Fld) (n : Nat) (c : Chip) : (resetF X n c).draws = c.draws := (rfl)

/-! ### setF64 -/

@[simp] theorem setF64_tmb (L H : Fld) (n v : Nat) (c : Chip) : (setF64 L H n v c).tmb = c.tmb := (rfl)
@[simp] theorem setF64_pwr (L H : Fld) (n v : Nat) (c : Chip) : (setF64 L H n v c).pwr = c.pwr := (rfl)
@[simp] theorem setF64_sbc (L H : Fld) (n v : Nat) (c : Chip) : (setF64 L H n v c).sbc = c.sbc := (rfl)
@[simp] theorem setF64_tap (L H : Fld) (n v : Nat) (c : Chip) : (setF64 L H n v c).tap = c.tap := (rfl)
@[simp] theorem setF64_phy (L H : Fld) (n v : Nat) (c : Chip) : (setF64 L H n v c).phy = c.phy := (rfl)
@[simp] theorem setF64_lnk (L H : Fld) (n v : Nat) (c : Chip) : (setF64 L H n v c).lnk = c.lnk := (rfl)
@[simp] theorem setF64_prt (L H : Fld) (n v : Nat) (c : Chip) : (setF64 L H n v c).prt = c.prt := (rfl)
@[simp] theorem setF64_xbr (L H : Fld) (n v : Nat) (c : Chip) : (setF64 L H n v c).xbr = c.xbr := (rfl)
@[simp] theorem setF64_bnd (L H : Fld) (n v : Nat) (c : Chip) : (setF64 L H n v c).bnd = c.bnd := (rfl)
@[simp] theorem setF64_ten (L H : Fld) (n v : Nat) (c : Chip) : (setF64 L H n v c).ten = c.ten := (rfl)
@[simp] theorem setF64_slt (L H : Fld) (n v : Nat) (c : Chip) : (setF64 L H n v c).slt = c.slt := (rfl)
@[simp] theorem setF64_rol (L H : Fld) (n v : Nat) (c : Chip) : (setF64 L H n v c).rol = c.rol := (rfl)
@[simp] theorem setF64_txns (L H : Fld) (n v : Nat) (c : Chip) : (setF64 L H n v c).txns = c.txns := (rfl)
@[simp] theorem setF64_nextTxn (L H : Fld) (n v : Nat) (c : Chip) : (setF64 L H n v c).nextTxn = c.nextTxn := (rfl)
@[simp] theorem setF64_map (L H : Fld) (n v : Nat) (c : Chip) : (setF64 L H n v c).map = c.map := (rfl)
@[simp] theorem setF64_media (L H : Fld) (n v : Nat) (c : Chip) : (setF64 L H n v c).media = c.media := (rfl)
@[simp] theorem setF64_mrk (L H : Fld) (n v : Nat) (c : Chip) : (setF64 L H n v c).mrk = c.mrk := (rfl)
@[simp] theorem setF64_rak (L H : Fld) (n v : Nat) (c : Chip) : (setF64 L H n v c).rak = c.rak := (rfl)
@[simp] theorem setF64_car (L H : Fld) (n v : Nat) (c : Chip) : (setF64 L H n v c).car = c.car := (rfl)
@[simp] theorem setF64_flt (L H : Fld) (n v : Nat) (c : Chip) : (setF64 L H n v c).flt = c.flt := (rfl)
@[simp] theorem setF64_slp (L H : Fld) (n v : Nat) (c : Chip) : (setF64 L H n v c).slp = c.slp := (rfl)
@[simp] theorem setF64_mgt (L H : Fld) (n v : Nat) (c : Chip) : (setF64 L H n v c).mgt = c.mgt := (rfl)
@[simp] theorem setF64_brg (L H : Fld) (n v : Nat) (c : Chip) : (setF64 L H n v c).brg = c.brg := (rfl)
@[simp] theorem setF64_sec (L H : Fld) (n v : Nat) (c : Chip) : (setF64 L H n v c).sec = c.sec := (rfl)
@[simp] theorem setF64_cnt (L H : Fld) (n v : Nat) (c : Chip) : (setF64 L H n v c).cnt = c.cnt := (rfl)
@[simp] theorem setF64_sent (L H : Fld) (n v : Nat) (c : Chip) : (setF64 L H n v c).sent = c.sent := (rfl)
@[simp] theorem setF64_draws (L H : Fld) (n v : Nat) (c : Chip) : (setF64 L H n v c).draws = c.draws := (rfl)

/-! ### event -/

@[simp] theorem event_tmb (k : PK) (n b : Nat) (c : Chip) : (event k n b c).tmb = c.tmb := (rfl)
@[simp] theorem event_pwr (k : PK) (n b : Nat) (c : Chip) : (event k n b c).pwr = c.pwr := (rfl)
@[simp] theorem event_sbc (k : PK) (n b : Nat) (c : Chip) : (event k n b c).sbc = c.sbc := (rfl)
@[simp] theorem event_tap (k : PK) (n b : Nat) (c : Chip) : (event k n b c).tap = c.tap := (rfl)
@[simp] theorem event_phy (k : PK) (n b : Nat) (c : Chip) : (event k n b c).phy = c.phy := (rfl)
@[simp] theorem event_lnk (k : PK) (n b : Nat) (c : Chip) : (event k n b c).lnk = c.lnk := (rfl)
@[simp] theorem event_prt (k : PK) (n b : Nat) (c : Chip) : (event k n b c).prt = c.prt := (rfl)
@[simp] theorem event_xbr (k : PK) (n b : Nat) (c : Chip) : (event k n b c).xbr = c.xbr := (rfl)
@[simp] theorem event_bnd (k : PK) (n b : Nat) (c : Chip) : (event k n b c).bnd = c.bnd := (rfl)
@[simp] theorem event_ten (k : PK) (n b : Nat) (c : Chip) : (event k n b c).ten = c.ten := (rfl)
@[simp] theorem event_slt (k : PK) (n b : Nat) (c : Chip) : (event k n b c).slt = c.slt := (rfl)
@[simp] theorem event_rol (k : PK) (n b : Nat) (c : Chip) : (event k n b c).rol = c.rol := (rfl)
@[simp] theorem event_txns (k : PK) (n b : Nat) (c : Chip) : (event k n b c).txns = c.txns := (rfl)
@[simp] theorem event_nextTxn (k : PK) (n b : Nat) (c : Chip) : (event k n b c).nextTxn = c.nextTxn := (rfl)
@[simp] theorem event_map (k : PK) (n b : Nat) (c : Chip) : (event k n b c).map = c.map := (rfl)
@[simp] theorem event_media (k : PK) (n b : Nat) (c : Chip) : (event k n b c).media = c.media := (rfl)
@[simp] theorem event_mrk (k : PK) (n b : Nat) (c : Chip) : (event k n b c).mrk = c.mrk := (rfl)
@[simp] theorem event_rak (k : PK) (n b : Nat) (c : Chip) : (event k n b c).rak = c.rak := (rfl)
@[simp] theorem event_car (k : PK) (n b : Nat) (c : Chip) : (event k n b c).car = c.car := (rfl)
@[simp] theorem event_flt (k : PK) (n b : Nat) (c : Chip) : (event k n b c).flt = c.flt := (rfl)
@[simp] theorem event_slp (k : PK) (n b : Nat) (c : Chip) : (event k n b c).slp = c.slp := (rfl)
@[simp] theorem event_mgt (k : PK) (n b : Nat) (c : Chip) : (event k n b c).mgt = c.mgt := (rfl)
@[simp] theorem event_brg (k : PK) (n b : Nat) (c : Chip) : (event k n b c).brg = c.brg := (rfl)
@[simp] theorem event_sec (k : PK) (n b : Nat) (c : Chip) : (event k n b c).sec = c.sec := (rfl)
@[simp] theorem event_cnt (k : PK) (n b : Nat) (c : Chip) : (event k n b c).cnt = c.cnt := (rfl)
@[simp] theorem event_sent (k : PK) (n b : Nat) (c : Chip) : (event k n b c).sent = c.sent := (rfl)
@[simp] theorem event_draws (k : PK) (n b : Nat) (c : Chip) : (event k n b c).draws = c.draws := (rfl)

/-! ### send -/

@[simp] theorem send_fld (o : Out) (c : Chip) : (send o c).fld = c.fld := (rfl)
@[simp] theorem send_tmb (o : Out) (c : Chip) : (send o c).tmb = c.tmb := (rfl)
@[simp] theorem send_pwr (o : Out) (c : Chip) : (send o c).pwr = c.pwr := (rfl)
@[simp] theorem send_sbc (o : Out) (c : Chip) : (send o c).sbc = c.sbc := (rfl)
@[simp] theorem send_tap (o : Out) (c : Chip) : (send o c).tap = c.tap := (rfl)
@[simp] theorem send_phy (o : Out) (c : Chip) : (send o c).phy = c.phy := (rfl)
@[simp] theorem send_lnk (o : Out) (c : Chip) : (send o c).lnk = c.lnk := (rfl)
@[simp] theorem send_prt (o : Out) (c : Chip) : (send o c).prt = c.prt := (rfl)
@[simp] theorem send_xbr (o : Out) (c : Chip) : (send o c).xbr = c.xbr := (rfl)
@[simp] theorem send_bnd (o : Out) (c : Chip) : (send o c).bnd = c.bnd := (rfl)
@[simp] theorem send_ten (o : Out) (c : Chip) : (send o c).ten = c.ten := (rfl)
@[simp] theorem send_slt (o : Out) (c : Chip) : (send o c).slt = c.slt := (rfl)
@[simp] theorem send_rol (o : Out) (c : Chip) : (send o c).rol = c.rol := (rfl)
@[simp] theorem send_txns (o : Out) (c : Chip) : (send o c).txns = c.txns := (rfl)
@[simp] theorem send_nextTxn (o : Out) (c : Chip) : (send o c).nextTxn = c.nextTxn := (rfl)
@[simp] theorem send_map (o : Out) (c : Chip) : (send o c).map = c.map := (rfl)
@[simp] theorem send_media (o : Out) (c : Chip) : (send o c).media = c.media := (rfl)
@[simp] theorem send_mrk (o : Out) (c : Chip) : (send o c).mrk = c.mrk := (rfl)
@[simp] theorem send_rak (o : Out) (c : Chip) : (send o c).rak = c.rak := (rfl)
@[simp] theorem send_car (o : Out) (c : Chip) : (send o c).car = c.car := (rfl)
@[simp] theorem send_flt (o : Out) (c : Chip) : (send o c).flt = c.flt := (rfl)
@[simp] theorem send_slp (o : Out) (c : Chip) : (send o c).slp = c.slp := (rfl)
@[simp] theorem send_mgt (o : Out) (c : Chip) : (send o c).mgt = c.mgt := (rfl)
@[simp] theorem send_brg (o : Out) (c : Chip) : (send o c).brg = c.brg := (rfl)
@[simp] theorem send_sec (o : Out) (c : Chip) : (send o c).sec = c.sec := (rfl)
@[simp] theorem send_cnt (o : Out) (c : Chip) : (send o c).cnt = c.cnt := (rfl)
@[simp] theorem send_draws (o : Out) (c : Chip) : (send o c).draws = c.draws := (rfl)

/-! ### takeDraw -/

@[simp] theorem takeDraw_fld (c : Chip) : (takeDraw c).fld = c.fld := (rfl)
@[simp] theorem takeDraw_tmb (c : Chip) : (takeDraw c).tmb = c.tmb := (rfl)
@[simp] theorem takeDraw_pwr (c : Chip) : (takeDraw c).pwr = c.pwr := (rfl)
@[simp] theorem takeDraw_sbc (c : Chip) : (takeDraw c).sbc = c.sbc := (rfl)
@[simp] theorem takeDraw_tap (c : Chip) : (takeDraw c).tap = c.tap := (rfl)
@[simp] theorem takeDraw_phy (c : Chip) : (takeDraw c).phy = c.phy := (rfl)
@[simp] theorem takeDraw_lnk (c : Chip) : (takeDraw c).lnk = c.lnk := (rfl)
@[simp] theorem takeDraw_prt (c : Chip) : (takeDraw c).prt = c.prt := (rfl)
@[simp] theorem takeDraw_xbr (c : Chip) : (takeDraw c).xbr = c.xbr := (rfl)
@[simp] theorem takeDraw_bnd (c : Chip) : (takeDraw c).bnd = c.bnd := (rfl)
@[simp] theorem takeDraw_ten (c : Chip) : (takeDraw c).ten = c.ten := (rfl)
@[simp] theorem takeDraw_slt (c : Chip) : (takeDraw c).slt = c.slt := (rfl)
@[simp] theorem takeDraw_rol (c : Chip) : (takeDraw c).rol = c.rol := (rfl)
@[simp] theorem takeDraw_txns (c : Chip) : (takeDraw c).txns = c.txns := (rfl)
@[simp] theorem takeDraw_nextTxn (c : Chip) : (takeDraw c).nextTxn = c.nextTxn := (rfl)
@[simp] theorem takeDraw_map (c : Chip) : (takeDraw c).map = c.map := (rfl)
@[simp] theorem takeDraw_media (c : Chip) : (takeDraw c).media = c.media := (rfl)
@[simp] theorem takeDraw_mrk (c : Chip) : (takeDraw c).mrk = c.mrk := (rfl)
@[simp] theorem takeDraw_rak (c : Chip) : (takeDraw c).rak = c.rak := (rfl)
@[simp] theorem takeDraw_car (c : Chip) : (takeDraw c).car = c.car := (rfl)
@[simp] theorem takeDraw_flt (c : Chip) : (takeDraw c).flt = c.flt := (rfl)
@[simp] theorem takeDraw_slp (c : Chip) : (takeDraw c).slp = c.slp := (rfl)
@[simp] theorem takeDraw_mgt (c : Chip) : (takeDraw c).mgt = c.mgt := (rfl)
@[simp] theorem takeDraw_brg (c : Chip) : (takeDraw c).brg = c.brg := (rfl)
@[simp] theorem takeDraw_sec (c : Chip) : (takeDraw c).sec = c.sec := (rfl)
@[simp] theorem takeDraw_cnt (c : Chip) : (takeDraw c).cnt = c.cnt := (rfl)
@[simp] theorem takeDraw_sent (c : Chip) : (takeDraw c).sent = c.sent := (rfl)

/-! ### setLnkSt -/

@[simp] theorem setLnkSt_fld (p : Nat) (x : LnkSt) (c : Chip) : (setLnkSt p x c).fld = c.fld := (rfl)
@[simp] theorem setLnkSt_tmb (p : Nat) (x : LnkSt) (c : Chip) : (setLnkSt p x c).tmb = c.tmb := (rfl)
@[simp] theorem setLnkSt_pwr (p : Nat) (x : LnkSt) (c : Chip) : (setLnkSt p x c).pwr = c.pwr := (rfl)
@[simp] theorem setLnkSt_sbc (p : Nat) (x : LnkSt) (c : Chip) : (setLnkSt p x c).sbc = c.sbc := (rfl)
@[simp] theorem setLnkSt_tap (p : Nat) (x : LnkSt) (c : Chip) : (setLnkSt p x c).tap = c.tap := (rfl)
@[simp] theorem setLnkSt_phy (p : Nat) (x : LnkSt) (c : Chip) : (setLnkSt p x c).phy = c.phy := (rfl)
@[simp] theorem setLnkSt_prt (p : Nat) (x : LnkSt) (c : Chip) : (setLnkSt p x c).prt = c.prt := (rfl)
@[simp] theorem setLnkSt_xbr (p : Nat) (x : LnkSt) (c : Chip) : (setLnkSt p x c).xbr = c.xbr := (rfl)
@[simp] theorem setLnkSt_bnd (p : Nat) (x : LnkSt) (c : Chip) : (setLnkSt p x c).bnd = c.bnd := (rfl)
@[simp] theorem setLnkSt_ten (p : Nat) (x : LnkSt) (c : Chip) : (setLnkSt p x c).ten = c.ten := (rfl)
@[simp] theorem setLnkSt_slt (p : Nat) (x : LnkSt) (c : Chip) : (setLnkSt p x c).slt = c.slt := (rfl)
@[simp] theorem setLnkSt_rol (p : Nat) (x : LnkSt) (c : Chip) : (setLnkSt p x c).rol = c.rol := (rfl)
@[simp] theorem setLnkSt_txns (p : Nat) (x : LnkSt) (c : Chip) : (setLnkSt p x c).txns = c.txns := (rfl)
@[simp] theorem setLnkSt_nextTxn (p : Nat) (x : LnkSt) (c : Chip) : (setLnkSt p x c).nextTxn = c.nextTxn := (rfl)
@[simp] theorem setLnkSt_map (p : Nat) (x : LnkSt) (c : Chip) : (setLnkSt p x c).map = c.map := (rfl)
@[simp] theorem setLnkSt_media (p : Nat) (x : LnkSt) (c : Chip) : (setLnkSt p x c).media = c.media := (rfl)
@[simp] theorem setLnkSt_mrk (p : Nat) (x : LnkSt) (c : Chip) : (setLnkSt p x c).mrk = c.mrk := (rfl)
@[simp] theorem setLnkSt_rak (p : Nat) (x : LnkSt) (c : Chip) : (setLnkSt p x c).rak = c.rak := (rfl)
@[simp] theorem setLnkSt_car (p : Nat) (x : LnkSt) (c : Chip) : (setLnkSt p x c).car = c.car := (rfl)
@[simp] theorem setLnkSt_flt (p : Nat) (x : LnkSt) (c : Chip) : (setLnkSt p x c).flt = c.flt := (rfl)
@[simp] theorem setLnkSt_slp (p : Nat) (x : LnkSt) (c : Chip) : (setLnkSt p x c).slp = c.slp := (rfl)
@[simp] theorem setLnkSt_mgt (p : Nat) (x : LnkSt) (c : Chip) : (setLnkSt p x c).mgt = c.mgt := (rfl)
@[simp] theorem setLnkSt_brg (p : Nat) (x : LnkSt) (c : Chip) : (setLnkSt p x c).brg = c.brg := (rfl)
@[simp] theorem setLnkSt_sec (p : Nat) (x : LnkSt) (c : Chip) : (setLnkSt p x c).sec = c.sec := (rfl)
@[simp] theorem setLnkSt_cnt (p : Nat) (x : LnkSt) (c : Chip) : (setLnkSt p x c).cnt = c.cnt := (rfl)
@[simp] theorem setLnkSt_sent (p : Nat) (x : LnkSt) (c : Chip) : (setLnkSt p x c).sent = c.sent := (rfl)
@[simp] theorem setLnkSt_draws (p : Nat) (x : LnkSt) (c : Chip) : (setLnkSt p x c).draws = c.draws := (rfl)

/-! ### setPrtSt -/

@[simp] theorem setPrtSt_fld (p : Nat) (x : PrtSt) (c : Chip) : (setPrtSt p x c).fld = c.fld := (rfl)
@[simp] theorem setPrtSt_tmb (p : Nat) (x : PrtSt) (c : Chip) : (setPrtSt p x c).tmb = c.tmb := (rfl)
@[simp] theorem setPrtSt_pwr (p : Nat) (x : PrtSt) (c : Chip) : (setPrtSt p x c).pwr = c.pwr := (rfl)
@[simp] theorem setPrtSt_sbc (p : Nat) (x : PrtSt) (c : Chip) : (setPrtSt p x c).sbc = c.sbc := (rfl)
@[simp] theorem setPrtSt_tap (p : Nat) (x : PrtSt) (c : Chip) : (setPrtSt p x c).tap = c.tap := (rfl)
@[simp] theorem setPrtSt_phy (p : Nat) (x : PrtSt) (c : Chip) : (setPrtSt p x c).phy = c.phy := (rfl)
@[simp] theorem setPrtSt_lnk (p : Nat) (x : PrtSt) (c : Chip) : (setPrtSt p x c).lnk = c.lnk := (rfl)
@[simp] theorem setPrtSt_xbr (p : Nat) (x : PrtSt) (c : Chip) : (setPrtSt p x c).xbr = c.xbr := (rfl)
@[simp] theorem setPrtSt_bnd (p : Nat) (x : PrtSt) (c : Chip) : (setPrtSt p x c).bnd = c.bnd := (rfl)
@[simp] theorem setPrtSt_ten (p : Nat) (x : PrtSt) (c : Chip) : (setPrtSt p x c).ten = c.ten := (rfl)
@[simp] theorem setPrtSt_slt (p : Nat) (x : PrtSt) (c : Chip) : (setPrtSt p x c).slt = c.slt := (rfl)
@[simp] theorem setPrtSt_rol (p : Nat) (x : PrtSt) (c : Chip) : (setPrtSt p x c).rol = c.rol := (rfl)
@[simp] theorem setPrtSt_txns (p : Nat) (x : PrtSt) (c : Chip) : (setPrtSt p x c).txns = c.txns := (rfl)
@[simp] theorem setPrtSt_nextTxn (p : Nat) (x : PrtSt) (c : Chip) : (setPrtSt p x c).nextTxn = c.nextTxn := (rfl)
@[simp] theorem setPrtSt_map (p : Nat) (x : PrtSt) (c : Chip) : (setPrtSt p x c).map = c.map := (rfl)
@[simp] theorem setPrtSt_media (p : Nat) (x : PrtSt) (c : Chip) : (setPrtSt p x c).media = c.media := (rfl)
@[simp] theorem setPrtSt_mrk (p : Nat) (x : PrtSt) (c : Chip) : (setPrtSt p x c).mrk = c.mrk := (rfl)
@[simp] theorem setPrtSt_rak (p : Nat) (x : PrtSt) (c : Chip) : (setPrtSt p x c).rak = c.rak := (rfl)
@[simp] theorem setPrtSt_car (p : Nat) (x : PrtSt) (c : Chip) : (setPrtSt p x c).car = c.car := (rfl)
@[simp] theorem setPrtSt_flt (p : Nat) (x : PrtSt) (c : Chip) : (setPrtSt p x c).flt = c.flt := (rfl)
@[simp] theorem setPrtSt_slp (p : Nat) (x : PrtSt) (c : Chip) : (setPrtSt p x c).slp = c.slp := (rfl)
@[simp] theorem setPrtSt_mgt (p : Nat) (x : PrtSt) (c : Chip) : (setPrtSt p x c).mgt = c.mgt := (rfl)
@[simp] theorem setPrtSt_brg (p : Nat) (x : PrtSt) (c : Chip) : (setPrtSt p x c).brg = c.brg := (rfl)
@[simp] theorem setPrtSt_sec (p : Nat) (x : PrtSt) (c : Chip) : (setPrtSt p x c).sec = c.sec := (rfl)
@[simp] theorem setPrtSt_cnt (p : Nat) (x : PrtSt) (c : Chip) : (setPrtSt p x c).cnt = c.cnt := (rfl)
@[simp] theorem setPrtSt_sent (p : Nat) (x : PrtSt) (c : Chip) : (setPrtSt p x c).sent = c.sent := (rfl)
@[simp] theorem setPrtSt_draws (p : Nat) (x : PrtSt) (c : Chip) : (setPrtSt p x c).draws = c.draws := (rfl)

/-! ### setLaneSt -/

@[simp] theorem setLaneSt_fld (l : Nat) (x : LaneSt) (c : Chip) : (setLaneSt l x c).fld = c.fld := (rfl)
@[simp] theorem setLaneSt_tmb (l : Nat) (x : LaneSt) (c : Chip) : (setLaneSt l x c).tmb = c.tmb := (rfl)
@[simp] theorem setLaneSt_pwr (l : Nat) (x : LaneSt) (c : Chip) : (setLaneSt l x c).pwr = c.pwr := (rfl)
@[simp] theorem setLaneSt_sbc (l : Nat) (x : LaneSt) (c : Chip) : (setLaneSt l x c).sbc = c.sbc := (rfl)
@[simp] theorem setLaneSt_tap (l : Nat) (x : LaneSt) (c : Chip) : (setLaneSt l x c).tap = c.tap := (rfl)
@[simp] theorem setLaneSt_lnk (l : Nat) (x : LaneSt) (c : Chip) : (setLaneSt l x c).lnk = c.lnk := (rfl)
@[simp] theorem setLaneSt_prt (l : Nat) (x : LaneSt) (c : Chip) : (setLaneSt l x c).prt = c.prt := (rfl)
@[simp] theorem setLaneSt_xbr (l : Nat) (x : LaneSt) (c : Chip) : (setLaneSt l x c).xbr = c.xbr := (rfl)
@[simp] theorem setLaneSt_bnd (l : Nat) (x : LaneSt) (c : Chip) : (setLaneSt l x c).bnd = c.bnd := (rfl)
@[simp] theorem setLaneSt_ten (l : Nat) (x : LaneSt) (c : Chip) : (setLaneSt l x c).ten = c.ten := (rfl)
@[simp] theorem setLaneSt_slt (l : Nat) (x : LaneSt) (c : Chip) : (setLaneSt l x c).slt = c.slt := (rfl)
@[simp] theorem setLaneSt_rol (l : Nat) (x : LaneSt) (c : Chip) : (setLaneSt l x c).rol = c.rol := (rfl)
@[simp] theorem setLaneSt_txns (l : Nat) (x : LaneSt) (c : Chip) : (setLaneSt l x c).txns = c.txns := (rfl)
@[simp] theorem setLaneSt_nextTxn (l : Nat) (x : LaneSt) (c : Chip) : (setLaneSt l x c).nextTxn = c.nextTxn := (rfl)
@[simp] theorem setLaneSt_map (l : Nat) (x : LaneSt) (c : Chip) : (setLaneSt l x c).map = c.map := (rfl)
@[simp] theorem setLaneSt_media (l : Nat) (x : LaneSt) (c : Chip) : (setLaneSt l x c).media = c.media := (rfl)
@[simp] theorem setLaneSt_mrk (l : Nat) (x : LaneSt) (c : Chip) : (setLaneSt l x c).mrk = c.mrk := (rfl)
@[simp] theorem setLaneSt_rak (l : Nat) (x : LaneSt) (c : Chip) : (setLaneSt l x c).rak = c.rak := (rfl)
@[simp] theorem setLaneSt_car (l : Nat) (x : LaneSt) (c : Chip) : (setLaneSt l x c).car = c.car := (rfl)
@[simp] theorem setLaneSt_flt (l : Nat) (x : LaneSt) (c : Chip) : (setLaneSt l x c).flt = c.flt := (rfl)
@[simp] theorem setLaneSt_slp (l : Nat) (x : LaneSt) (c : Chip) : (setLaneSt l x c).slp = c.slp := (rfl)
@[simp] theorem setLaneSt_mgt (l : Nat) (x : LaneSt) (c : Chip) : (setLaneSt l x c).mgt = c.mgt := (rfl)
@[simp] theorem setLaneSt_brg (l : Nat) (x : LaneSt) (c : Chip) : (setLaneSt l x c).brg = c.brg := (rfl)
@[simp] theorem setLaneSt_sec (l : Nat) (x : LaneSt) (c : Chip) : (setLaneSt l x c).sec = c.sec := (rfl)
@[simp] theorem setLaneSt_cnt (l : Nat) (x : LaneSt) (c : Chip) : (setLaneSt l x c).cnt = c.cnt := (rfl)
@[simp] theorem setLaneSt_sent (l : Nat) (x : LaneSt) (c : Chip) : (setLaneSt l x c).sent = c.sent := (rfl)
@[simp] theorem setLaneSt_draws (l : Nat) (x : LaneSt) (c : Chip) : (setLaneSt l x c).draws = c.draws := (rfl)

/-! ### setTenSt -/

@[simp] theorem setTenSt_fld (t : Nat) (x : TenSt) (c : Chip) : (setTenSt t x c).fld = c.fld := (rfl)
@[simp] theorem setTenSt_tmb (t : Nat) (x : TenSt) (c : Chip) : (setTenSt t x c).tmb = c.tmb := (rfl)
@[simp] theorem setTenSt_pwr (t : Nat) (x : TenSt) (c : Chip) : (setTenSt t x c).pwr = c.pwr := (rfl)
@[simp] theorem setTenSt_sbc (t : Nat) (x : TenSt) (c : Chip) : (setTenSt t x c).sbc = c.sbc := (rfl)
@[simp] theorem setTenSt_tap (t : Nat) (x : TenSt) (c : Chip) : (setTenSt t x c).tap = c.tap := (rfl)
@[simp] theorem setTenSt_phy (t : Nat) (x : TenSt) (c : Chip) : (setTenSt t x c).phy = c.phy := (rfl)
@[simp] theorem setTenSt_lnk (t : Nat) (x : TenSt) (c : Chip) : (setTenSt t x c).lnk = c.lnk := (rfl)
@[simp] theorem setTenSt_prt (t : Nat) (x : TenSt) (c : Chip) : (setTenSt t x c).prt = c.prt := (rfl)
@[simp] theorem setTenSt_xbr (t : Nat) (x : TenSt) (c : Chip) : (setTenSt t x c).xbr = c.xbr := (rfl)
@[simp] theorem setTenSt_bnd (t : Nat) (x : TenSt) (c : Chip) : (setTenSt t x c).bnd = c.bnd := (rfl)
@[simp] theorem setTenSt_slt (t : Nat) (x : TenSt) (c : Chip) : (setTenSt t x c).slt = c.slt := (rfl)
@[simp] theorem setTenSt_rol (t : Nat) (x : TenSt) (c : Chip) : (setTenSt t x c).rol = c.rol := (rfl)
@[simp] theorem setTenSt_txns (t : Nat) (x : TenSt) (c : Chip) : (setTenSt t x c).txns = c.txns := (rfl)
@[simp] theorem setTenSt_nextTxn (t : Nat) (x : TenSt) (c : Chip) : (setTenSt t x c).nextTxn = c.nextTxn := (rfl)
@[simp] theorem setTenSt_map (t : Nat) (x : TenSt) (c : Chip) : (setTenSt t x c).map = c.map := (rfl)
@[simp] theorem setTenSt_media (t : Nat) (x : TenSt) (c : Chip) : (setTenSt t x c).media = c.media := (rfl)
@[simp] theorem setTenSt_mrk (t : Nat) (x : TenSt) (c : Chip) : (setTenSt t x c).mrk = c.mrk := (rfl)
@[simp] theorem setTenSt_rak (t : Nat) (x : TenSt) (c : Chip) : (setTenSt t x c).rak = c.rak := (rfl)
@[simp] theorem setTenSt_car (t : Nat) (x : TenSt) (c : Chip) : (setTenSt t x c).car = c.car := (rfl)
@[simp] theorem setTenSt_flt (t : Nat) (x : TenSt) (c : Chip) : (setTenSt t x c).flt = c.flt := (rfl)
@[simp] theorem setTenSt_slp (t : Nat) (x : TenSt) (c : Chip) : (setTenSt t x c).slp = c.slp := (rfl)
@[simp] theorem setTenSt_mgt (t : Nat) (x : TenSt) (c : Chip) : (setTenSt t x c).mgt = c.mgt := (rfl)
@[simp] theorem setTenSt_brg (t : Nat) (x : TenSt) (c : Chip) : (setTenSt t x c).brg = c.brg := (rfl)
@[simp] theorem setTenSt_sec (t : Nat) (x : TenSt) (c : Chip) : (setTenSt t x c).sec = c.sec := (rfl)
@[simp] theorem setTenSt_cnt (t : Nat) (x : TenSt) (c : Chip) : (setTenSt t x c).cnt = c.cnt := (rfl)
@[simp] theorem setTenSt_sent (t : Nat) (x : TenSt) (c : Chip) : (setTenSt t x c).sent = c.sent := (rfl)
@[simp] theorem setTenSt_draws (t : Nat) (x : TenSt) (c : Chip) : (setTenSt t x c).draws = c.draws := (rfl)

/-! ### setSlpSt -/

@[simp] theorem setSlpSt_fld (n : Nat) (x : SlpSt) (c : Chip) : (setSlpSt n x c).fld = c.fld := (rfl)
@[simp] theorem setSlpSt_tmb (n : Nat) (x : SlpSt) (c : Chip) : (setSlpSt n x c).tmb = c.tmb := (rfl)
@[simp] theorem setSlpSt_pwr (n : Nat) (x : SlpSt) (c : Chip) : (setSlpSt n x c).pwr = c.pwr := (rfl)
@[simp] theorem setSlpSt_sbc (n : Nat) (x : SlpSt) (c : Chip) : (setSlpSt n x c).sbc = c.sbc := (rfl)
@[simp] theorem setSlpSt_tap (n : Nat) (x : SlpSt) (c : Chip) : (setSlpSt n x c).tap = c.tap := (rfl)
@[simp] theorem setSlpSt_phy (n : Nat) (x : SlpSt) (c : Chip) : (setSlpSt n x c).phy = c.phy := (rfl)
@[simp] theorem setSlpSt_lnk (n : Nat) (x : SlpSt) (c : Chip) : (setSlpSt n x c).lnk = c.lnk := (rfl)
@[simp] theorem setSlpSt_prt (n : Nat) (x : SlpSt) (c : Chip) : (setSlpSt n x c).prt = c.prt := (rfl)
@[simp] theorem setSlpSt_xbr (n : Nat) (x : SlpSt) (c : Chip) : (setSlpSt n x c).xbr = c.xbr := (rfl)
@[simp] theorem setSlpSt_bnd (n : Nat) (x : SlpSt) (c : Chip) : (setSlpSt n x c).bnd = c.bnd := (rfl)
@[simp] theorem setSlpSt_ten (n : Nat) (x : SlpSt) (c : Chip) : (setSlpSt n x c).ten = c.ten := (rfl)
@[simp] theorem setSlpSt_slt (n : Nat) (x : SlpSt) (c : Chip) : (setSlpSt n x c).slt = c.slt := (rfl)
@[simp] theorem setSlpSt_rol (n : Nat) (x : SlpSt) (c : Chip) : (setSlpSt n x c).rol = c.rol := (rfl)
@[simp] theorem setSlpSt_txns (n : Nat) (x : SlpSt) (c : Chip) : (setSlpSt n x c).txns = c.txns := (rfl)
@[simp] theorem setSlpSt_nextTxn (n : Nat) (x : SlpSt) (c : Chip) : (setSlpSt n x c).nextTxn = c.nextTxn := (rfl)
@[simp] theorem setSlpSt_map (n : Nat) (x : SlpSt) (c : Chip) : (setSlpSt n x c).map = c.map := (rfl)
@[simp] theorem setSlpSt_media (n : Nat) (x : SlpSt) (c : Chip) : (setSlpSt n x c).media = c.media := (rfl)
@[simp] theorem setSlpSt_mrk (n : Nat) (x : SlpSt) (c : Chip) : (setSlpSt n x c).mrk = c.mrk := (rfl)
@[simp] theorem setSlpSt_rak (n : Nat) (x : SlpSt) (c : Chip) : (setSlpSt n x c).rak = c.rak := (rfl)
@[simp] theorem setSlpSt_car (n : Nat) (x : SlpSt) (c : Chip) : (setSlpSt n x c).car = c.car := (rfl)
@[simp] theorem setSlpSt_flt (n : Nat) (x : SlpSt) (c : Chip) : (setSlpSt n x c).flt = c.flt := (rfl)
@[simp] theorem setSlpSt_mgt (n : Nat) (x : SlpSt) (c : Chip) : (setSlpSt n x c).mgt = c.mgt := (rfl)
@[simp] theorem setSlpSt_brg (n : Nat) (x : SlpSt) (c : Chip) : (setSlpSt n x c).brg = c.brg := (rfl)
@[simp] theorem setSlpSt_sec (n : Nat) (x : SlpSt) (c : Chip) : (setSlpSt n x c).sec = c.sec := (rfl)
@[simp] theorem setSlpSt_cnt (n : Nat) (x : SlpSt) (c : Chip) : (setSlpSt n x c).cnt = c.cnt := (rfl)
@[simp] theorem setSlpSt_sent (n : Nat) (x : SlpSt) (c : Chip) : (setSlpSt n x c).sent = c.sent := (rfl)
@[simp] theorem setSlpSt_draws (n : Nat) (x : SlpSt) (c : Chip) : (setSlpSt n x c).draws = c.draws := (rfl)

/-! ### setLiveWin -/

@[simp] theorem setLiveWin_fld (w : Nat) (x : Window) (c : Chip) : (setLiveWin w x c).fld = c.fld := (rfl)
@[simp] theorem setLiveWin_tmb (w : Nat) (x : Window) (c : Chip) : (setLiveWin w x c).tmb = c.tmb := (rfl)
@[simp] theorem setLiveWin_pwr (w : Nat) (x : Window) (c : Chip) : (setLiveWin w x c).pwr = c.pwr := (rfl)
@[simp] theorem setLiveWin_sbc (w : Nat) (x : Window) (c : Chip) : (setLiveWin w x c).sbc = c.sbc := (rfl)
@[simp] theorem setLiveWin_tap (w : Nat) (x : Window) (c : Chip) : (setLiveWin w x c).tap = c.tap := (rfl)
@[simp] theorem setLiveWin_phy (w : Nat) (x : Window) (c : Chip) : (setLiveWin w x c).phy = c.phy := (rfl)
@[simp] theorem setLiveWin_lnk (w : Nat) (x : Window) (c : Chip) : (setLiveWin w x c).lnk = c.lnk := (rfl)
@[simp] theorem setLiveWin_prt (w : Nat) (x : Window) (c : Chip) : (setLiveWin w x c).prt = c.prt := (rfl)
@[simp] theorem setLiveWin_xbr (w : Nat) (x : Window) (c : Chip) : (setLiveWin w x c).xbr = c.xbr := (rfl)
@[simp] theorem setLiveWin_ten (w : Nat) (x : Window) (c : Chip) : (setLiveWin w x c).ten = c.ten := (rfl)
@[simp] theorem setLiveWin_slt (w : Nat) (x : Window) (c : Chip) : (setLiveWin w x c).slt = c.slt := (rfl)
@[simp] theorem setLiveWin_rol (w : Nat) (x : Window) (c : Chip) : (setLiveWin w x c).rol = c.rol := (rfl)
@[simp] theorem setLiveWin_txns (w : Nat) (x : Window) (c : Chip) : (setLiveWin w x c).txns = c.txns := (rfl)
@[simp] theorem setLiveWin_nextTxn (w : Nat) (x : Window) (c : Chip) : (setLiveWin w x c).nextTxn = c.nextTxn := (rfl)
@[simp] theorem setLiveWin_map (w : Nat) (x : Window) (c : Chip) : (setLiveWin w x c).map = c.map := (rfl)
@[simp] theorem setLiveWin_media (w : Nat) (x : Window) (c : Chip) : (setLiveWin w x c).media = c.media := (rfl)
@[simp] theorem setLiveWin_mrk (w : Nat) (x : Window) (c : Chip) : (setLiveWin w x c).mrk = c.mrk := (rfl)
@[simp] theorem setLiveWin_rak (w : Nat) (x : Window) (c : Chip) : (setLiveWin w x c).rak = c.rak := (rfl)
@[simp] theorem setLiveWin_car (w : Nat) (x : Window) (c : Chip) : (setLiveWin w x c).car = c.car := (rfl)
@[simp] theorem setLiveWin_flt (w : Nat) (x : Window) (c : Chip) : (setLiveWin w x c).flt = c.flt := (rfl)
@[simp] theorem setLiveWin_slp (w : Nat) (x : Window) (c : Chip) : (setLiveWin w x c).slp = c.slp := (rfl)
@[simp] theorem setLiveWin_mgt (w : Nat) (x : Window) (c : Chip) : (setLiveWin w x c).mgt = c.mgt := (rfl)
@[simp] theorem setLiveWin_brg (w : Nat) (x : Window) (c : Chip) : (setLiveWin w x c).brg = c.brg := (rfl)
@[simp] theorem setLiveWin_sec (w : Nat) (x : Window) (c : Chip) : (setLiveWin w x c).sec = c.sec := (rfl)
@[simp] theorem setLiveWin_cnt (w : Nat) (x : Window) (c : Chip) : (setLiveWin w x c).cnt = c.cnt := (rfl)
@[simp] theorem setLiveWin_sent (w : Nat) (x : Window) (c : Chip) : (setLiveWin w x c).sent = c.sent := (rfl)
@[simp] theorem setLiveWin_draws (w : Nat) (x : Window) (c : Chip) : (setLiveWin w x c).draws = c.draws := (rfl)

/-! ### putTxn -/

@[simp] theorem putTxn_fld (t : Txn) (c : Chip) : (putTxn t c).fld = c.fld := (rfl)
@[simp] theorem putTxn_tmb (t : Txn) (c : Chip) : (putTxn t c).tmb = c.tmb := (rfl)
@[simp] theorem putTxn_pwr (t : Txn) (c : Chip) : (putTxn t c).pwr = c.pwr := (rfl)
@[simp] theorem putTxn_sbc (t : Txn) (c : Chip) : (putTxn t c).sbc = c.sbc := (rfl)
@[simp] theorem putTxn_tap (t : Txn) (c : Chip) : (putTxn t c).tap = c.tap := (rfl)
@[simp] theorem putTxn_phy (t : Txn) (c : Chip) : (putTxn t c).phy = c.phy := (rfl)
@[simp] theorem putTxn_lnk (t : Txn) (c : Chip) : (putTxn t c).lnk = c.lnk := (rfl)
@[simp] theorem putTxn_prt (t : Txn) (c : Chip) : (putTxn t c).prt = c.prt := (rfl)
@[simp] theorem putTxn_xbr (t : Txn) (c : Chip) : (putTxn t c).xbr = c.xbr := (rfl)
@[simp] theorem putTxn_bnd (t : Txn) (c : Chip) : (putTxn t c).bnd = c.bnd := (rfl)
@[simp] theorem putTxn_ten (t : Txn) (c : Chip) : (putTxn t c).ten = c.ten := (rfl)
@[simp] theorem putTxn_slt (t : Txn) (c : Chip) : (putTxn t c).slt = c.slt := (rfl)
@[simp] theorem putTxn_rol (t : Txn) (c : Chip) : (putTxn t c).rol = c.rol := (rfl)
@[simp] theorem putTxn_nextTxn (t : Txn) (c : Chip) : (putTxn t c).nextTxn = c.nextTxn := (rfl)
@[simp] theorem putTxn_map (t : Txn) (c : Chip) : (putTxn t c).map = c.map := (rfl)
@[simp] theorem putTxn_media (t : Txn) (c : Chip) : (putTxn t c).media = c.media := (rfl)
@[simp] theorem putTxn_mrk (t : Txn) (c : Chip) : (putTxn t c).mrk = c.mrk := (rfl)
@[simp] theorem putTxn_rak (t : Txn) (c : Chip) : (putTxn t c).rak = c.rak := (rfl)
@[simp] theorem putTxn_car (t : Txn) (c : Chip) : (putTxn t c).car = c.car := (rfl)
@[simp] theorem putTxn_flt (t : Txn) (c : Chip) : (putTxn t c).flt = c.flt := (rfl)
@[simp] theorem putTxn_slp (t : Txn) (c : Chip) : (putTxn t c).slp = c.slp := (rfl)
@[simp] theorem putTxn_mgt (t : Txn) (c : Chip) : (putTxn t c).mgt = c.mgt := (rfl)
@[simp] theorem putTxn_brg (t : Txn) (c : Chip) : (putTxn t c).brg = c.brg := (rfl)
@[simp] theorem putTxn_sec (t : Txn) (c : Chip) : (putTxn t c).sec = c.sec := (rfl)
@[simp] theorem putTxn_cnt (t : Txn) (c : Chip) : (putTxn t c).cnt = c.cnt := (rfl)
@[simp] theorem putTxn_sent (t : Txn) (c : Chip) : (putTxn t c).sent = c.sent := (rfl)
@[simp] theorem putTxn_draws (t : Txn) (c : Chip) : (putTxn t c).draws = c.draws := (rfl)

/-! ### dropTxn -/

@[simp] theorem dropTxn_fld (i : Nat) (c : Chip) : (dropTxn i c).fld = c.fld := (rfl)
@[simp] theorem dropTxn_tmb (i : Nat) (c : Chip) : (dropTxn i c).tmb = c.tmb := (rfl)
@[simp] theorem dropTxn_pwr (i : Nat) (c : Chip) : (dropTxn i c).pwr = c.pwr := (rfl)
@[simp] theorem dropTxn_sbc (i : Nat) (c : Chip) : (dropTxn i c).sbc = c.sbc := (rfl)
@[simp] theorem dropTxn_tap (i : Nat) (c : Chip) : (dropTxn i c).tap = c.tap := (rfl)
@[simp] theorem dropTxn_phy (i : Nat) (c : Chip) : (dropTxn i c).phy = c.phy := (rfl)
@[simp] theorem dropTxn_lnk (i : Nat) (c : Chip) : (dropTxn i c).lnk = c.lnk := (rfl)
@[simp] theorem dropTxn_prt (i : Nat) (c : Chip) : (dropTxn i c).prt = c.prt := (rfl)
@[simp] theorem dropTxn_xbr (i : Nat) (c : Chip) : (dropTxn i c).xbr = c.xbr := (rfl)
@[simp] theorem dropTxn_bnd (i : Nat) (c : Chip) : (dropTxn i c).bnd = c.bnd := (rfl)
@[simp] theorem dropTxn_ten (i : Nat) (c : Chip) : (dropTxn i c).ten = c.ten := (rfl)
@[simp] theorem dropTxn_slt (i : Nat) (c : Chip) : (dropTxn i c).slt = c.slt := (rfl)
@[simp] theorem dropTxn_rol (i : Nat) (c : Chip) : (dropTxn i c).rol = c.rol := (rfl)
@[simp] theorem dropTxn_nextTxn (i : Nat) (c : Chip) : (dropTxn i c).nextTxn = c.nextTxn := (rfl)
@[simp] theorem dropTxn_map (i : Nat) (c : Chip) : (dropTxn i c).map = c.map := (rfl)
@[simp] theorem dropTxn_media (i : Nat) (c : Chip) : (dropTxn i c).media = c.media := (rfl)
@[simp] theorem dropTxn_mrk (i : Nat) (c : Chip) : (dropTxn i c).mrk = c.mrk := (rfl)
@[simp] theorem dropTxn_rak (i : Nat) (c : Chip) : (dropTxn i c).rak = c.rak := (rfl)
@[simp] theorem dropTxn_car (i : Nat) (c : Chip) : (dropTxn i c).car = c.car := (rfl)
@[simp] theorem dropTxn_flt (i : Nat) (c : Chip) : (dropTxn i c).flt = c.flt := (rfl)
@[simp] theorem dropTxn_slp (i : Nat) (c : Chip) : (dropTxn i c).slp = c.slp := (rfl)
@[simp] theorem dropTxn_mgt (i : Nat) (c : Chip) : (dropTxn i c).mgt = c.mgt := (rfl)
@[simp] theorem dropTxn_brg (i : Nat) (c : Chip) : (dropTxn i c).brg = c.brg := (rfl)
@[simp] theorem dropTxn_sec (i : Nat) (c : Chip) : (dropTxn i c).sec = c.sec := (rfl)
@[simp] theorem dropTxn_cnt (i : Nat) (c : Chip) : (dropTxn i c).cnt = c.cnt := (rfl)
@[simp] theorem dropTxn_sent (i : Nat) (c : Chip) : (dropTxn i c).sent = c.sent := (rfl)
@[simp] theorem dropTxn_draws (i : Nat) (c : Chip) : (dropTxn i c).draws = c.draws := (rfl)

/-! ### setCtr -/

@[simp] theorem setCtr_fld (pg i : Nat) (x : Ctr) (c : Chip) : (setCtr pg i x c).fld = c.fld := (rfl)
@[simp] theorem setCtr_tmb (pg i : Nat) (x : Ctr) (c : Chip) : (setCtr pg i x c).tmb = c.tmb := (rfl)
@[simp] theorem setCtr_pwr (pg i : Nat) (x : Ctr) (c : Chip) : (setCtr pg i x c).pwr = c.pwr := (rfl)
@[simp] theorem setCtr_sbc (pg i : Nat) (x : Ctr) (c : Chip) : (setCtr pg i x c).sbc = c.sbc := (rfl)
@[simp] theorem setCtr_tap (pg i : Nat) (x : Ctr) (c : Chip) : (setCtr pg i x c).tap = c.tap := (rfl)
@[simp] theorem setCtr_phy (pg i : Nat) (x : Ctr) (c : Chip) : (setCtr pg i x c).phy = c.phy := (rfl)
@[simp] theorem setCtr_lnk (pg i : Nat) (x : Ctr) (c : Chip) : (setCtr pg i x c).lnk = c.lnk := (rfl)
@[simp] theorem setCtr_prt (pg i : Nat) (x : Ctr) (c : Chip) : (setCtr pg i x c).prt = c.prt := (rfl)
@[simp] theorem setCtr_xbr (pg i : Nat) (x : Ctr) (c : Chip) : (setCtr pg i x c).xbr = c.xbr := (rfl)
@[simp] theorem setCtr_bnd (pg i : Nat) (x : Ctr) (c : Chip) : (setCtr pg i x c).bnd = c.bnd := (rfl)
@[simp] theorem setCtr_ten (pg i : Nat) (x : Ctr) (c : Chip) : (setCtr pg i x c).ten = c.ten := (rfl)
@[simp] theorem setCtr_slt (pg i : Nat) (x : Ctr) (c : Chip) : (setCtr pg i x c).slt = c.slt := (rfl)
@[simp] theorem setCtr_rol (pg i : Nat) (x : Ctr) (c : Chip) : (setCtr pg i x c).rol = c.rol := (rfl)
@[simp] theorem setCtr_txns (pg i : Nat) (x : Ctr) (c : Chip) : (setCtr pg i x c).txns = c.txns := (rfl)
@[simp] theorem setCtr_nextTxn (pg i : Nat) (x : Ctr) (c : Chip) : (setCtr pg i x c).nextTxn = c.nextTxn := (rfl)
@[simp] theorem setCtr_map (pg i : Nat) (x : Ctr) (c : Chip) : (setCtr pg i x c).map = c.map := (rfl)
@[simp] theorem setCtr_media (pg i : Nat) (x : Ctr) (c : Chip) : (setCtr pg i x c).media = c.media := (rfl)
@[simp] theorem setCtr_mrk (pg i : Nat) (x : Ctr) (c : Chip) : (setCtr pg i x c).mrk = c.mrk := (rfl)
@[simp] theorem setCtr_rak (pg i : Nat) (x : Ctr) (c : Chip) : (setCtr pg i x c).rak = c.rak := (rfl)
@[simp] theorem setCtr_car (pg i : Nat) (x : Ctr) (c : Chip) : (setCtr pg i x c).car = c.car := (rfl)
@[simp] theorem setCtr_flt (pg i : Nat) (x : Ctr) (c : Chip) : (setCtr pg i x c).flt = c.flt := (rfl)
@[simp] theorem setCtr_slp (pg i : Nat) (x : Ctr) (c : Chip) : (setCtr pg i x c).slp = c.slp := (rfl)
@[simp] theorem setCtr_mgt (pg i : Nat) (x : Ctr) (c : Chip) : (setCtr pg i x c).mgt = c.mgt := (rfl)
@[simp] theorem setCtr_brg (pg i : Nat) (x : Ctr) (c : Chip) : (setCtr pg i x c).brg = c.brg := (rfl)
@[simp] theorem setCtr_sec (pg i : Nat) (x : Ctr) (c : Chip) : (setCtr pg i x c).sec = c.sec := (rfl)
@[simp] theorem setCtr_sent (pg i : Nat) (x : Ctr) (c : Chip) : (setCtr pg i x c).sent = c.sent := (rfl)
@[simp] theorem setCtr_draws (pg i : Nat) (x : Ctr) (c : Chip) : (setCtr pg i x c).draws = c.draws := (rfl)

/-! ### emitCode -/

@[simp] theorem emitCode_fld (x : FltCode) (c : Chip) : (emitCode x c).fld = c.fld := by unfold emitCode; split <;> rfl
@[simp] theorem emitCode_tmb (x : FltCode) (c : Chip) : (emitCode x c).tmb = c.tmb := by unfold emitCode; split <;> rfl
@[simp] theorem emitCode_pwr (x : FltCode) (c : Chip) : (emitCode x c).pwr = c.pwr := by unfold emitCode; split <;> rfl
@[simp] theorem emitCode_sbc (x : FltCode) (c : Chip) : (emitCode x c).sbc = c.sbc := by unfold emitCode; split <;> rfl
@[simp] theorem emitCode_tap (x : FltCode) (c : Chip) : (emitCode x c).tap = c.tap := by unfold emitCode; split <;> rfl
@[simp] theorem emitCode_phy (x : FltCode) (c : Chip) : (emitCode x c).phy = c.phy := by unfold emitCode; split <;> rfl
@[simp] theorem emitCode_lnk (x : FltCode) (c : Chip) : (emitCode x c).lnk = c.lnk := by unfold emitCode; split <;> rfl
@[simp] theorem emitCode_prt (x : FltCode) (c : Chip) : (emitCode x c).prt = c.prt := by unfold emitCode; split <;> rfl
@[simp] theorem emitCode_xbr (x : FltCode) (c : Chip) : (emitCode x c).xbr = c.xbr := by unfold emitCode; split <;> rfl
@[simp] theorem emitCode_bnd (x : FltCode) (c : Chip) : (emitCode x c).bnd = c.bnd := by unfold emitCode; split <;> rfl
@[simp] theorem emitCode_ten (x : FltCode) (c : Chip) : (emitCode x c).ten = c.ten := by unfold emitCode; split <;> rfl
@[simp] theorem emitCode_slt (x : FltCode) (c : Chip) : (emitCode x c).slt = c.slt := by unfold emitCode; split <;> rfl
@[simp] theorem emitCode_rol (x : FltCode) (c : Chip) : (emitCode x c).rol = c.rol := by unfold emitCode; split <;> rfl
@[simp] theorem emitCode_txns (x : FltCode) (c : Chip) : (emitCode x c).txns = c.txns := by unfold emitCode; split <;> rfl
@[simp] theorem emitCode_nextTxn (x : FltCode) (c : Chip) : (emitCode x c).nextTxn = c.nextTxn := by unfold emitCode; split <;> rfl
@[simp] theorem emitCode_map (x : FltCode) (c : Chip) : (emitCode x c).map = c.map := by unfold emitCode; split <;> rfl
@[simp] theorem emitCode_media (x : FltCode) (c : Chip) : (emitCode x c).media = c.media := by unfold emitCode; split <;> rfl
@[simp] theorem emitCode_mrk (x : FltCode) (c : Chip) : (emitCode x c).mrk = c.mrk := by unfold emitCode; split <;> rfl
@[simp] theorem emitCode_rak (x : FltCode) (c : Chip) : (emitCode x c).rak = c.rak := by unfold emitCode; split <;> rfl
@[simp] theorem emitCode_car (x : FltCode) (c : Chip) : (emitCode x c).car = c.car := by unfold emitCode; split <;> rfl
@[simp] theorem emitCode_slp (x : FltCode) (c : Chip) : (emitCode x c).slp = c.slp := by unfold emitCode; split <;> rfl
@[simp] theorem emitCode_mgt (x : FltCode) (c : Chip) : (emitCode x c).mgt = c.mgt := by unfold emitCode; split <;> rfl
@[simp] theorem emitCode_brg (x : FltCode) (c : Chip) : (emitCode x c).brg = c.brg := by unfold emitCode; split <;> rfl
@[simp] theorem emitCode_sec (x : FltCode) (c : Chip) : (emitCode x c).sec = c.sec := by unfold emitCode; split <;> rfl
@[simp] theorem emitCode_cnt (x : FltCode) (c : Chip) : (emitCode x c).cnt = c.cnt := by unfold emitCode; split <;> rfl
@[simp] theorem emitCode_sent (x : FltCode) (c : Chip) : (emitCode x c).sent = c.sent := by unfold emitCode; split <;> rfl
@[simp] theorem emitCode_draws (x : FltCode) (c : Chip) : (emitCode x c).draws = c.draws := by unfold emitCode; split <;> rfl

/-! ### raiseWith -/

@[simp] theorem raiseWith_tmb (inj : Bool) (k : PK) (n b : Nat) (c : Chip) : (raiseWith inj k n b c).tmb = c.tmb := by unfold raiseWith; split <;> (try split) <;> simp
@[simp] theorem raiseWith_pwr (inj : Bool) (k : PK) (n b : Nat) (c : Chip) : (raiseWith inj k n b c).pwr = c.pwr := by unfold raiseWith; split <;> (try split) <;> simp
@[simp] theorem raiseWith_sbc (inj : Bool) (k : PK) (n b : Nat) (c : Chip) : (raiseWith inj k n b c).sbc = c.sbc := by unfold raiseWith; split <;> (try split) <;> simp
@[simp] theorem raiseWith_tap (inj : Bool) (k : PK) (n b : Nat) (c : Chip) : (raiseWith inj k n b c).tap = c.tap := by unfold raiseWith; split <;> (try split) <;> simp
@[simp] theorem raiseWith_phy (inj : Bool) (k : PK) (n b : Nat) (c : Chip) : (raiseWith inj k n b c).phy = c.phy := by unfold raiseWith; split <;> (try split) <;> simp
@[simp] theorem raiseWith_lnk (inj : Bool) (k : PK) (n b : Nat) (c : Chip) : (raiseWith inj k n b c).lnk = c.lnk := by unfold raiseWith; split <;> (try split) <;> simp
@[simp] theorem raiseWith_prt (inj : Bool) (k : PK) (n b : Nat) (c : Chip) : (raiseWith inj k n b c).prt = c.prt := by unfold raiseWith; split <;> (try split) <;> simp
@[simp] theorem raiseWith_xbr (inj : Bool) (k : PK) (n b : Nat) (c : Chip) : (raiseWith inj k n b c).xbr = c.xbr := by unfold raiseWith; split <;> (try split) <;> simp
@[simp] theorem raiseWith_bnd (inj : Bool) (k : PK) (n b : Nat) (c : Chip) : (raiseWith inj k n b c).bnd = c.bnd := by unfold raiseWith; split <;> (try split) <;> simp
@[simp] theorem raiseWith_ten (inj : Bool) (k : PK) (n b : Nat) (c : Chip) : (raiseWith inj k n b c).ten = c.ten := by unfold raiseWith; split <;> (try split) <;> simp
@[simp] theorem raiseWith_slt (inj : Bool) (k : PK) (n b : Nat) (c : Chip) : (raiseWith inj k n b c).slt = c.slt := by unfold raiseWith; split <;> (try split) <;> simp
@[simp] theorem raiseWith_rol (inj : Bool) (k : PK) (n b : Nat) (c : Chip) : (raiseWith inj k n b c).rol = c.rol := by unfold raiseWith; split <;> (try split) <;> simp
@[simp] theorem raiseWith_txns (inj : Bool) (k : PK) (n b : Nat) (c : Chip) : (raiseWith inj k n b c).txns = c.txns := by unfold raiseWith; split <;> (try split) <;> simp
@[simp] theorem raiseWith_nextTxn (inj : Bool) (k : PK) (n b : Nat) (c : Chip) : (raiseWith inj k n b c).nextTxn = c.nextTxn := by unfold raiseWith; split <;> (try split) <;> simp
@[simp] theorem raiseWith_map (inj : Bool) (k : PK) (n b : Nat) (c : Chip) : (raiseWith inj k n b c).map = c.map := by unfold raiseWith; split <;> (try split) <;> simp
@[simp] theorem raiseWith_media (inj : Bool) (k : PK) (n b : Nat) (c : Chip) : (raiseWith inj k n b c).media = c.media := by unfold raiseWith; split <;> (try split) <;> simp
@[simp] theorem raiseWith_mrk (inj : Bool) (k : PK) (n b : Nat) (c : Chip) : (raiseWith inj k n b c).mrk = c.mrk := by unfold raiseWith; split <;> (try split) <;> simp
@[simp] theorem raiseWith_rak (inj : Bool) (k : PK) (n b : Nat) (c : Chip) : (raiseWith inj k n b c).rak = c.rak := by unfold raiseWith; split <;> (try split) <;> simp
@[simp] theorem raiseWith_car (inj : Bool) (k : PK) (n b : Nat) (c : Chip) : (raiseWith inj k n b c).car = c.car := by unfold raiseWith; split <;> (try split) <;> simp
@[simp] theorem raiseWith_slp (inj : Bool) (k : PK) (n b : Nat) (c : Chip) : (raiseWith inj k n b c).slp = c.slp := by unfold raiseWith; split <;> (try split) <;> simp
@[simp] theorem raiseWith_mgt (inj : Bool) (k : PK) (n b : Nat) (c : Chip) : (raiseWith inj k n b c).mgt = c.mgt := by unfold raiseWith; split <;> (try split) <;> simp
@[simp] theorem raiseWith_brg (inj : Bool) (k : PK) (n b : Nat) (c : Chip) : (raiseWith inj k n b c).brg = c.brg := by unfold raiseWith; split <;> (try split) <;> simp
@[simp] theorem raiseWith_sec (inj : Bool) (k : PK) (n b : Nat) (c : Chip) : (raiseWith inj k n b c).sec = c.sec := by unfold raiseWith; split <;> (try split) <;> simp
@[simp] theorem raiseWith_cnt (inj : Bool) (k : PK) (n b : Nat) (c : Chip) : (raiseWith inj k n b c).cnt = c.cnt := by unfold raiseWith; split <;> (try split) <;> simp
@[simp] theorem raiseWith_sent (inj : Bool) (k : PK) (n b : Nat) (c : Chip) : (raiseWith inj k n b c).sent = c.sent := by unfold raiseWith; split <;> (try split) <;> simp
@[simp] theorem raiseWith_draws (inj : Bool) (k : PK) (n b : Nat) (c : Chip) : (raiseWith inj k n b c).draws = c.draws := by unfold raiseWith; split <;> (try split) <;> simp

/-! ### raise -/

@[simp] theorem raise_tmb (k : PK) (n b : Nat) (c : Chip) : (raise k n b c).tmb = c.tmb := by simp [raise]
@[simp] theorem raise_pwr (k : PK) (n b : Nat) (c : Chip) : (raise k n b c).pwr = c.pwr := by simp [raise]
@[simp] theorem raise_sbc (k : PK) (n b : Nat) (c : Chip) : (raise k n b c).sbc = c.sbc := by simp [raise]
@[simp] theorem raise_tap (k : PK) (n b : Nat) (c : Chip) : (raise k n b c).tap = c.tap := by simp [raise]
@[simp] theorem raise_phy (k : PK) (n b : Nat) (c : Chip) : (raise k n b c).phy = c.phy := by simp [raise]
@[simp] theorem raise_lnk (k : PK) (n b : Nat) (c : Chip) : (raise k n b c).lnk = c.lnk := by simp [raise]
@[simp] theorem raise_prt (k : PK) (n b : Nat) (c : Chip) : (raise k n b c).prt = c.prt := by simp [raise]
@[simp] theorem raise_xbr (k : PK) (n b : Nat) (c : Chip) : (raise k n b c).xbr = c.xbr := by simp [raise]
@[simp] theorem raise_bnd (k : PK) (n b : Nat) (c : Chip) : (raise k n b c).bnd = c.bnd := by simp [raise]
@[simp] theorem raise_ten (k : PK) (n b : Nat) (c : Chip) : (raise k n b c).ten = c.ten := by simp [raise]
@[simp] theorem raise_slt (k : PK) (n b : Nat) (c : Chip) : (raise k n b c).slt = c.slt := by simp [raise]
@[simp] theorem raise_rol (k : PK) (n b : Nat) (c : Chip) : (raise k n b c).rol = c.rol := by simp [raise]
@[simp] theorem raise_txns (k : PK) (n b : Nat) (c : Chip) : (raise k n b c).txns = c.txns := by simp [raise]
@[simp] theorem raise_nextTxn (k : PK) (n b : Nat) (c : Chip) : (raise k n b c).nextTxn = c.nextTxn := by simp [raise]
@[simp] theorem raise_map (k : PK) (n b : Nat) (c : Chip) : (raise k n b c).map = c.map := by simp [raise]
@[simp] theorem raise_media (k : PK) (n b : Nat) (c : Chip) : (raise k n b c).media = c.media := by simp [raise]
@[simp] theorem raise_mrk (k : PK) (n b : Nat) (c : Chip) : (raise k n b c).mrk = c.mrk := by simp [raise]
@[simp] theorem raise_rak (k : PK) (n b : Nat) (c : Chip) : (raise k n b c).rak = c.rak := by simp [raise]
@[simp] theorem raise_car (k : PK) (n b : Nat) (c : Chip) : (raise k n b c).car = c.car := by simp [raise]
@[simp] theorem raise_slp (k : PK) (n b : Nat) (c : Chip) : (raise k n b c).slp = c.slp := by simp [raise]
@[simp] theorem raise_mgt (k : PK) (n b : Nat) (c : Chip) : (raise k n b c).mgt = c.mgt := by simp [raise]
@[simp] theorem raise_brg (k : PK) (n b : Nat) (c : Chip) : (raise k n b c).brg = c.brg := by simp [raise]
@[simp] theorem raise_sec (k : PK) (n b : Nat) (c : Chip) : (raise k n b c).sec = c.sec := by simp [raise]
@[simp] theorem raise_cnt (k : PK) (n b : Nat) (c : Chip) : (raise k n b c).cnt = c.cnt := by simp [raise]
@[simp] theorem raise_sent (k : PK) (n b : Nat) (c : Chip) : (raise k n b c).sent = c.sent := by simp [raise]
@[simp] theorem raise_draws (k : PK) (n b : Nat) (c : Chip) : (raise k n b c).draws = c.draws := by simp [raise]

/-! ### countN -/

@[simp] theorem countN_fld (k : PK) (n x : Nat) (q : Option Nat) (m : Nat) (c : Chip) : (countN k n x q m c).fld = c.fld := by unfold countN; split <;> rfl
@[simp] theorem countN_tmb (k : PK) (n x : Nat) (q : Option Nat) (m : Nat) (c : Chip) : (countN k n x q m c).tmb = c.tmb := by unfold countN; split <;> rfl
@[simp] theorem countN_pwr (k : PK) (n x : Nat) (q : Option Nat) (m : Nat) (c : Chip) : (countN k n x q m c).pwr = c.pwr := by unfold countN; split <;> rfl
@[simp] theorem countN_sbc (k : PK) (n x : Nat) (q : Option Nat) (m : Nat) (c : Chip) : (countN k n x q m c).sbc = c.sbc := by unfold countN; split <;> rfl
@[simp] theorem countN_tap (k : PK) (n x : Nat) (q : Option Nat) (m : Nat) (c : Chip) : (countN k n x q m c).tap = c.tap := by unfold countN; split <;> rfl
@[simp] theorem countN_phy (k : PK) (n x : Nat) (q : Option Nat) (m : Nat) (c : Chip) : (countN k n x q m c).phy = c.phy := by unfold countN; split <;> rfl
@[simp] theorem countN_lnk (k : PK) (n x : Nat) (q : Option Nat) (m : Nat) (c : Chip) : (countN k n x q m c).lnk = c.lnk := by unfold countN; split <;> rfl
@[simp] theorem countN_prt (k : PK) (n x : Nat) (q : Option Nat) (m : Nat) (c : Chip) : (countN k n x q m c).prt = c.prt := by unfold countN; split <;> rfl
@[simp] theorem countN_xbr (k : PK) (n x : Nat) (q : Option Nat) (m : Nat) (c : Chip) : (countN k n x q m c).xbr = c.xbr := by unfold countN; split <;> rfl
@[simp] theorem countN_bnd (k : PK) (n x : Nat) (q : Option Nat) (m : Nat) (c : Chip) : (countN k n x q m c).bnd = c.bnd := by unfold countN; split <;> rfl
@[simp] theorem countN_ten (k : PK) (n x : Nat) (q : Option Nat) (m : Nat) (c : Chip) : (countN k n x q m c).ten = c.ten := by unfold countN; split <;> rfl
@[simp] theorem countN_slt (k : PK) (n x : Nat) (q : Option Nat) (m : Nat) (c : Chip) : (countN k n x q m c).slt = c.slt := by unfold countN; split <;> rfl
@[simp] theorem countN_rol (k : PK) (n x : Nat) (q : Option Nat) (m : Nat) (c : Chip) : (countN k n x q m c).rol = c.rol := by unfold countN; split <;> rfl
@[simp] theorem countN_txns (k : PK) (n x : Nat) (q : Option Nat) (m : Nat) (c : Chip) : (countN k n x q m c).txns = c.txns := by unfold countN; split <;> rfl
@[simp] theorem countN_nextTxn (k : PK) (n x : Nat) (q : Option Nat) (m : Nat) (c : Chip) : (countN k n x q m c).nextTxn = c.nextTxn := by unfold countN; split <;> rfl
@[simp] theorem countN_map (k : PK) (n x : Nat) (q : Option Nat) (m : Nat) (c : Chip) : (countN k n x q m c).map = c.map := by unfold countN; split <;> rfl
@[simp] theorem countN_media (k : PK) (n x : Nat) (q : Option Nat) (m : Nat) (c : Chip) : (countN k n x q m c).media = c.media := by unfold countN; split <;> rfl
@[simp] theorem countN_mrk (k : PK) (n x : Nat) (q : Option Nat) (m : Nat) (c : Chip) : (countN k n x q m c).mrk = c.mrk := by unfold countN; split <;> rfl
@[simp] theorem countN_rak (k : PK) (n x : Nat) (q : Option Nat) (m : Nat) (c : Chip) : (countN k n x q m c).rak = c.rak := by unfold countN; split <;> rfl
@[simp] theorem countN_car (k : PK) (n x : Nat) (q : Option Nat) (m : Nat) (c : Chip) : (countN k n x q m c).car = c.car := by unfold countN; split <;> rfl
@[simp] theorem countN_flt (k : PK) (n x : Nat) (q : Option Nat) (m : Nat) (c : Chip) : (countN k n x q m c).flt = c.flt := by unfold countN; split <;> rfl
@[simp] theorem countN_slp (k : PK) (n x : Nat) (q : Option Nat) (m : Nat) (c : Chip) : (countN k n x q m c).slp = c.slp := by unfold countN; split <;> rfl
@[simp] theorem countN_mgt (k : PK) (n x : Nat) (q : Option Nat) (m : Nat) (c : Chip) : (countN k n x q m c).mgt = c.mgt := by unfold countN; split <;> rfl
@[simp] theorem countN_brg (k : PK) (n x : Nat) (q : Option Nat) (m : Nat) (c : Chip) : (countN k n x q m c).brg = c.brg := by unfold countN; split <;> rfl
@[simp] theorem countN_sec (k : PK) (n x : Nat) (q : Option Nat) (m : Nat) (c : Chip) : (countN k n x q m c).sec = c.sec := by unfold countN; split <;> rfl
@[simp] theorem countN_sent (k : PK) (n x : Nat) (q : Option Nat) (m : Nat) (c : Chip) : (countN k n x q m c).sent = c.sent := by unfold countN; split <;> rfl
@[simp] theorem countN_draws (k : PK) (n x : Nat) (q : Option Nat) (m : Nat) (c : Chip) : (countN k n x q m c).draws = c.draws := by unfold countN; split <;> rfl

/-! ### count -/

@[simp] theorem count_fld (k : PK) (n x : Nat) (c : Chip) : (count k n x c).fld = c.fld := by simp [count]
@[simp] theorem count_tmb (k : PK) (n x : Nat) (c : Chip) : (count k n x c).tmb = c.tmb := by simp [count]
@[simp] theorem count_pwr (k : PK) (n x : Nat) (c : Chip) : (count k n x c).pwr = c.pwr := by simp [count]
@[simp] theorem count_sbc (k : PK) (n x : Nat) (c : Chip) : (count k n x c).sbc = c.sbc := by simp [count]
@[simp] theorem count_tap (k : PK) (n x : Nat) (c : Chip) : (count k n x c).tap = c.tap := by simp [count]
@[simp] theorem count_phy (k : PK) (n x : Nat) (c : Chip) : (count k n x c).phy = c.phy := by simp [count]
@[simp] theorem count_lnk (k : PK) (n x : Nat) (c : Chip) : (count k n x c).lnk = c.lnk := by simp [count]
@[simp] theorem count_prt (k : PK) (n x : Nat) (c : Chip) : (count k n x c).prt = c.prt := by simp [count]
@[simp] theorem count_xbr (k : PK) (n x : Nat) (c : Chip) : (count k n x c).xbr = c.xbr := by simp [count]
@[simp] theorem count_bnd (k : PK) (n x : Nat) (c : Chip) : (count k n x c).bnd = c.bnd := by simp [count]
@[simp] theorem count_ten (k : PK) (n x : Nat) (c : Chip) : (count k n x c).ten = c.ten := by simp [count]
@[simp] theorem count_slt (k : PK) (n x : Nat) (c : Chip) : (count k n x c).slt = c.slt := by simp [count]
@[simp] theorem count_rol (k : PK) (n x : Nat) (c : Chip) : (count k n x c).rol = c.rol := by simp [count]
@[simp] theorem count_txns (k : PK) (n x : Nat) (c : Chip) : (count k n x c).txns = c.txns := by simp [count]
@[simp] theorem count_nextTxn (k : PK) (n x : Nat) (c : Chip) : (count k n x c).nextTxn = c.nextTxn := by simp [count]
@[simp] theorem count_map (k : PK) (n x : Nat) (c : Chip) : (count k n x c).map = c.map := by simp [count]
@[simp] theorem count_media (k : PK) (n x : Nat) (c : Chip) : (count k n x c).media = c.media := by simp [count]
@[simp] theorem count_mrk (k : PK) (n x : Nat) (c : Chip) : (count k n x c).mrk = c.mrk := by simp [count]
@[simp] theorem count_rak (k : PK) (n x : Nat) (c : Chip) : (count k n x c).rak = c.rak := by simp [count]
@[simp] theorem count_car (k : PK) (n x : Nat) (c : Chip) : (count k n x c).car = c.car := by simp [count]
@[simp] theorem count_flt (k : PK) (n x : Nat) (c : Chip) : (count k n x c).flt = c.flt := by simp [count]
@[simp] theorem count_slp (k : PK) (n x : Nat) (c : Chip) : (count k n x c).slp = c.slp := by simp [count]
@[simp] theorem count_mgt (k : PK) (n x : Nat) (c : Chip) : (count k n x c).mgt = c.mgt := by simp [count]
@[simp] theorem count_brg (k : PK) (n x : Nat) (c : Chip) : (count k n x c).brg = c.brg := by simp [count]
@[simp] theorem count_sec (k : PK) (n x : Nat) (c : Chip) : (count k n x c).sec = c.sec := by simp [count]
@[simp] theorem count_sent (k : PK) (n x : Nat) (c : Chip) : (count k n x c).sent = c.sent := by simp [count]
@[simp] theorem count_draws (k : PK) (n x : Nat) (c : Chip) : (count k n x c).draws = c.draws := by simp [count]

/-! ### countQ -/

@[simp] theorem countQ_fld (k : PK) (n x q : Nat) (c : Chip) : (countQ k n x q c).fld = c.fld := by simp [countQ]
@[simp] theorem countQ_tmb (k : PK) (n x q : Nat) (c : Chip) : (countQ k n x q c).tmb = c.tmb := by simp [countQ]
@[simp] theorem countQ_pwr (k : PK) (n x q : Nat) (c : Chip) : (countQ k n x q c).pwr = c.pwr := by simp [countQ]
@[simp] theorem countQ_sbc (k : PK) (n x q : Nat) (c : Chip) : (countQ k n x q c).sbc = c.sbc := by simp [countQ]
@[simp] theorem countQ_tap (k : PK) (n x q : Nat) (c : Chip) : (countQ k n x q c).tap = c.tap := by simp [countQ]
@[simp] theorem countQ_phy (k : PK) (n x q : Nat) (c : Chip) : (countQ k n x q c).phy = c.phy := by simp [countQ]
@[simp] theorem countQ_lnk (k : PK) (n x q : Nat) (c : Chip) : (countQ k n x q c).lnk = c.lnk := by simp [countQ]
@[simp] theorem countQ_prt (k : PK) (n x q : Nat) (c : Chip) : (countQ k n x q c).prt = c.prt := by simp [countQ]
@[simp] theorem countQ_xbr (k : PK) (n x q : Nat) (c : Chip) : (countQ k n x q c).xbr = c.xbr := by simp [countQ]
@[simp] theorem countQ_bnd (k : PK) (n x q : Nat) (c : Chip) : (countQ k n x q c).bnd = c.bnd := by simp [countQ]
@[simp] theorem countQ_ten (k : PK) (n x q : Nat) (c : Chip) : (countQ k n x q c).ten = c.ten := by simp [countQ]
@[simp] theorem countQ_slt (k : PK) (n x q : Nat) (c : Chip) : (countQ k n x q c).slt = c.slt := by simp [countQ]
@[simp] theorem countQ_rol (k : PK) (n x q : Nat) (c : Chip) : (countQ k n x q c).rol = c.rol := by simp [countQ]
@[simp] theorem countQ_txns (k : PK) (n x q : Nat) (c : Chip) : (countQ k n x q c).txns = c.txns := by simp [countQ]
@[simp] theorem countQ_nextTxn (k : PK) (n x q : Nat) (c : Chip) : (countQ k n x q c).nextTxn = c.nextTxn := by simp [countQ]
@[simp] theorem countQ_map (k : PK) (n x q : Nat) (c : Chip) : (countQ k n x q c).map = c.map := by simp [countQ]
@[simp] theorem countQ_media (k : PK) (n x q : Nat) (c : Chip) : (countQ k n x q c).media = c.media := by simp [countQ]
@[simp] theorem countQ_mrk (k : PK) (n x q : Nat) (c : Chip) : (countQ k n x q c).mrk = c.mrk := by simp [countQ]
@[simp] theorem countQ_rak (k : PK) (n x q : Nat) (c : Chip) : (countQ k n x q c).rak = c.rak := by simp [countQ]
@[simp] theorem countQ_car (k : PK) (n x q : Nat) (c : Chip) : (countQ k n x q c).car = c.car := by simp [countQ]
@[simp] theorem countQ_flt (k : PK) (n x q : Nat) (c : Chip) : (countQ k n x q c).flt = c.flt := by simp [countQ]
@[simp] theorem countQ_slp (k : PK) (n x q : Nat) (c : Chip) : (countQ k n x q c).slp = c.slp := by simp [countQ]
@[simp] theorem countQ_mgt (k : PK) (n x q : Nat) (c : Chip) : (countQ k n x q c).mgt = c.mgt := by simp [countQ]
@[simp] theorem countQ_brg (k : PK) (n x q : Nat) (c : Chip) : (countQ k n x q c).brg = c.brg := by simp [countQ]
@[simp] theorem countQ_sec (k : PK) (n x q : Nat) (c : Chip) : (countQ k n x q c).sec = c.sec := by simp [countQ]
@[simp] theorem countQ_sent (k : PK) (n x q : Nat) (c : Chip) : (countQ k n x q c).sent = c.sent := by simp [countQ]
@[simp] theorem countQ_draws (k : PK) (n x q : Nat) (c : Chip) : (countQ k n x q c).draws = c.draws := by simp [countQ]

/-! ### countRol -/

@[simp] theorem countRol_fld (sl x : Nat) (q : Option Nat) (c : Chip) : (countRol sl x q c).fld = c.fld := by simp [countRol]
@[simp] theorem countRol_tmb (sl x : Nat) (q : Option Nat) (c : Chip) : (countRol sl x q c).tmb = c.tmb := by simp [countRol]
@[simp] theorem countRol_pwr (sl x : Nat) (q : Option Nat) (c : Chip) : (countRol sl x q c).pwr = c.pwr := by simp [countRol]
@[simp] theorem countRol_sbc (sl x : Nat) (q : Option Nat) (c : Chip) : (countRol sl x q c).sbc = c.sbc := by simp [countRol]
@[simp] theorem countRol_tap (sl x : Nat) (q : Option Nat) (c : Chip) : (countRol sl x q c).tap = c.tap := by simp [countRol]
@[simp] theorem countRol_phy (sl x : Nat) (q : Option Nat) (c : Chip) : (countRol sl x q c).phy = c.phy := by simp [countRol]
@[simp] theorem countRol_lnk (sl x : Nat) (q : Option Nat) (c : Chip) : (countRol sl x q c).lnk = c.lnk := by simp [countRol]
@[simp] theorem countRol_prt (sl x : Nat) (q : Option Nat) (c : Chip) : (countRol sl x q c).prt = c.prt := by simp [countRol]
@[simp] theorem countRol_xbr (sl x : Nat) (q : Option Nat) (c : Chip) : (countRol sl x q c).xbr = c.xbr := by simp [countRol]
@[simp] theorem countRol_bnd (sl x : Nat) (q : Option Nat) (c : Chip) : (countRol sl x q c).bnd = c.bnd := by simp [countRol]
@[simp] theorem countRol_ten (sl x : Nat) (q : Option Nat) (c : Chip) : (countRol sl x q c).ten = c.ten := by simp [countRol]
@[simp] theorem countRol_slt (sl x : Nat) (q : Option Nat) (c : Chip) : (countRol sl x q c).slt = c.slt := by simp [countRol]
@[simp] theorem countRol_rol (sl x : Nat) (q : Option Nat) (c : Chip) : (countRol sl x q c).rol = c.rol := by simp [countRol]
@[simp] theorem countRol_txns (sl x : Nat) (q : Option Nat) (c : Chip) : (countRol sl x q c).txns = c.txns := by simp [countRol]
@[simp] theorem countRol_nextTxn (sl x : Nat) (q : Option Nat) (c : Chip) : (countRol sl x q c).nextTxn = c.nextTxn := by simp [countRol]
@[simp] theorem countRol_map (sl x : Nat) (q : Option Nat) (c : Chip) : (countRol sl x q c).map = c.map := by simp [countRol]
@[simp] theorem countRol_media (sl x : Nat) (q : Option Nat) (c : Chip) : (countRol sl x q c).media = c.media := by simp [countRol]
@[simp] theorem countRol_mrk (sl x : Nat) (q : Option Nat) (c : Chip) : (countRol sl x q c).mrk = c.mrk := by simp [countRol]
@[simp] theorem countRol_rak (sl x : Nat) (q : Option Nat) (c : Chip) : (countRol sl x q c).rak = c.rak := by simp [countRol]
@[simp] theorem countRol_car (sl x : Nat) (q : Option Nat) (c : Chip) : (countRol sl x q c).car = c.car := by simp [countRol]
@[simp] theorem countRol_flt (sl x : Nat) (q : Option Nat) (c : Chip) : (countRol sl x q c).flt = c.flt := by simp [countRol]
@[simp] theorem countRol_slp (sl x : Nat) (q : Option Nat) (c : Chip) : (countRol sl x q c).slp = c.slp := by simp [countRol]
@[simp] theorem countRol_mgt (sl x : Nat) (q : Option Nat) (c : Chip) : (countRol sl x q c).mgt = c.mgt := by simp [countRol]
@[simp] theorem countRol_brg (sl x : Nat) (q : Option Nat) (c : Chip) : (countRol sl x q c).brg = c.brg := by simp [countRol]
@[simp] theorem countRol_sec (sl x : Nat) (q : Option Nat) (c : Chip) : (countRol sl x q c).sec = c.sec := by simp [countRol]
@[simp] theorem countRol_sent (sl x : Nat) (q : Option Nat) (c : Chip) : (countRol sl x q c).sent = c.sent := by simp [countRol]
@[simp] theorem countRol_draws (sl x : Nat) (q : Option Nat) (c : Chip) : (countRol sl x q c).draws = c.draws := by simp [countRol]

/-! ### countMgt -/

@[simp] theorem countMgt_fld (core x : Nat) (c : Chip) : (countMgt core x c).fld = c.fld := by simp [countMgt]
@[simp] theorem countMgt_tmb (core x : Nat) (c : Chip) : (countMgt core x c).tmb = c.tmb := by simp [countMgt]
@[simp] theorem countMgt_pwr (core x : Nat) (c : Chip) : (countMgt core x c).pwr = c.pwr := by simp [countMgt]
@[simp] theorem countMgt_sbc (core x : Nat) (c : Chip) : (countMgt core x c).sbc = c.sbc := by simp [countMgt]
@[simp] theorem countMgt_tap (core x : Nat) (c : Chip) : (countMgt core x c).tap = c.tap := by simp [countMgt]
@[simp] theorem countMgt_phy (core x : Nat) (c : Chip) : (countMgt core x c).phy = c.phy := by simp [countMgt]
@[simp] theorem countMgt_lnk (core x : Nat) (c : Chip) : (countMgt core x c).lnk = c.lnk := by simp [countMgt]
@[simp] theorem countMgt_prt (core x : Nat) (c : Chip) : (countMgt core x c).prt = c.prt := by simp [countMgt]
@[simp] theorem countMgt_xbr (core x : Nat) (c : Chip) : (countMgt core x c).xbr = c.xbr := by simp [countMgt]
@[simp] theorem countMgt_bnd (core x : Nat) (c : Chip) : (countMgt core x c).bnd = c.bnd := by simp [countMgt]
@[simp] theorem countMgt_ten (core x : Nat) (c : Chip) : (countMgt core x c).ten = c.ten := by simp [countMgt]
@[simp] theorem countMgt_slt (core x : Nat) (c : Chip) : (countMgt core x c).slt = c.slt := by simp [countMgt]
@[simp] theorem countMgt_rol (core x : Nat) (c : Chip) : (countMgt core x c).rol = c.rol := by simp [countMgt]
@[simp] theorem countMgt_txns (core x : Nat) (c : Chip) : (countMgt core x c).txns = c.txns := by simp [countMgt]
@[simp] theorem countMgt_nextTxn (core x : Nat) (c : Chip) : (countMgt core x c).nextTxn = c.nextTxn := by simp [countMgt]
@[simp] theorem countMgt_map (core x : Nat) (c : Chip) : (countMgt core x c).map = c.map := by simp [countMgt]
@[simp] theorem countMgt_media (core x : Nat) (c : Chip) : (countMgt core x c).media = c.media := by simp [countMgt]
@[simp] theorem countMgt_mrk (core x : Nat) (c : Chip) : (countMgt core x c).mrk = c.mrk := by simp [countMgt]
@[simp] theorem countMgt_rak (core x : Nat) (c : Chip) : (countMgt core x c).rak = c.rak := by simp [countMgt]
@[simp] theorem countMgt_car (core x : Nat) (c : Chip) : (countMgt core x c).car = c.car := by simp [countMgt]
@[simp] theorem countMgt_flt (core x : Nat) (c : Chip) : (countMgt core x c).flt = c.flt := by simp [countMgt]
@[simp] theorem countMgt_slp (core x : Nat) (c : Chip) : (countMgt core x c).slp = c.slp := by simp [countMgt]
@[simp] theorem countMgt_mgt (core x : Nat) (c : Chip) : (countMgt core x c).mgt = c.mgt := by simp [countMgt]
@[simp] theorem countMgt_brg (core x : Nat) (c : Chip) : (countMgt core x c).brg = c.brg := by simp [countMgt]
@[simp] theorem countMgt_sec (core x : Nat) (c : Chip) : (countMgt core x c).sec = c.sec := by simp [countMgt]
@[simp] theorem countMgt_sent (core x : Nat) (c : Chip) : (countMgt core x c).sent = c.sent := by simp [countMgt]
@[simp] theorem countMgt_draws (core x : Nat) (c : Chip) : (countMgt core x c).draws = c.draws := by simp [countMgt]

/-! ### whenB and onChip -/

theorem whenB_fld (b : Bool) (f : Chip → Chip) (c : Chip) (h : (f c).fld = c.fld) : (whenB b f c).fld = c.fld := by unfold whenB; split <;> simp [h]
theorem whenB_tmb (b : Bool) (f : Chip → Chip) (c : Chip) (h : (f c).tmb = c.tmb) : (whenB b f c).tmb = c.tmb := by unfold whenB; split <;> simp [h]
theorem whenB_pwr (b : Bool) (f : Chip → Chip) (c : Chip) (h : (f c).pwr = c.pwr) : (whenB b f c).pwr = c.pwr := by unfold whenB; split <;> simp [h]
theorem whenB_sbc (b : Bool) (f : Chip → Chip) (c : Chip) (h : (f c).sbc = c.sbc) : (whenB b f c).sbc = c.sbc := by unfold whenB; split <;> simp [h]
theorem whenB_tap (b : Bool) (f : Chip → Chip) (c : Chip) (h : (f c).tap = c.tap) : (whenB b f c).tap = c.tap := by unfold whenB; split <;> simp [h]
theorem whenB_phy (b : Bool) (f : Chip → Chip) (c : Chip) (h : (f c).phy = c.phy) : (whenB b f c).phy = c.phy := by unfold whenB; split <;> simp [h]
theorem whenB_lnk (b : Bool) (f : Chip → Chip) (c : Chip) (h : (f c).lnk = c.lnk) : (whenB b f c).lnk = c.lnk := by unfold whenB; split <;> simp [h]
theorem whenB_prt (b : Bool) (f : Chip → Chip) (c : Chip) (h : (f c).prt = c.prt) : (whenB b f c).prt = c.prt := by unfold whenB; split <;> simp [h]
theorem whenB_xbr (b : Bool) (f : Chip → Chip) (c : Chip) (h : (f c).xbr = c.xbr) : (whenB b f c).xbr = c.xbr := by unfold whenB; split <;> simp [h]
theorem whenB_bnd (b : Bool) (f : Chip → Chip) (c : Chip) (h : (f c).bnd = c.bnd) : (whenB b f c).bnd = c.bnd := by unfold whenB; split <;> simp [h]
theorem whenB_ten (b : Bool) (f : Chip → Chip) (c : Chip) (h : (f c).ten = c.ten) : (whenB b f c).ten = c.ten := by unfold whenB; split <;> simp [h]
theorem whenB_slt (b : Bool) (f : Chip → Chip) (c : Chip) (h : (f c).slt = c.slt) : (whenB b f c).slt = c.slt := by unfold whenB; split <;> simp [h]
theorem whenB_rol (b : Bool) (f : Chip → Chip) (c : Chip) (h : (f c).rol = c.rol) : (whenB b f c).rol = c.rol := by unfold whenB; split <;> simp [h]
theorem whenB_txns (b : Bool) (f : Chip → Chip) (c : Chip) (h : (f c).txns = c.txns) : (whenB b f c).txns = c.txns := by unfold whenB; split <;> simp [h]
theorem whenB_nextTxn (b : Bool) (f : Chip → Chip) (c : Chip) (h : (f c).nextTxn = c.nextTxn) : (whenB b f c).nextTxn = c.nextTxn := by unfold whenB; split <;> simp [h]
theorem whenB_map (b : Bool) (f : Chip → Chip) (c : Chip) (h : (f c).map = c.map) : (whenB b f c).map = c.map := by unfold whenB; split <;> simp [h]
theorem whenB_media (b : Bool) (f : Chip → Chip) (c : Chip) (h : (f c).media = c.media) : (whenB b f c).media = c.media := by unfold whenB; split <;> simp [h]
theorem whenB_mrk (b : Bool) (f : Chip → Chip) (c : Chip) (h : (f c).mrk = c.mrk) : (whenB b f c).mrk = c.mrk := by unfold whenB; split <;> simp [h]
theorem whenB_rak (b : Bool) (f : Chip → Chip) (c : Chip) (h : (f c).rak = c.rak) : (whenB b f c).rak = c.rak := by unfold whenB; split <;> simp [h]
theorem whenB_car (b : Bool) (f : Chip → Chip) (c : Chip) (h : (f c).car = c.car) : (whenB b f c).car = c.car := by unfold whenB; split <;> simp [h]
theorem whenB_flt (b : Bool) (f : Chip → Chip) (c : Chip) (h : (f c).flt = c.flt) : (whenB b f c).flt = c.flt := by unfold whenB; split <;> simp [h]
theorem whenB_slp (b : Bool) (f : Chip → Chip) (c : Chip) (h : (f c).slp = c.slp) : (whenB b f c).slp = c.slp := by unfold whenB; split <;> simp [h]
theorem whenB_mgt (b : Bool) (f : Chip → Chip) (c : Chip) (h : (f c).mgt = c.mgt) : (whenB b f c).mgt = c.mgt := by unfold whenB; split <;> simp [h]
theorem whenB_brg (b : Bool) (f : Chip → Chip) (c : Chip) (h : (f c).brg = c.brg) : (whenB b f c).brg = c.brg := by unfold whenB; split <;> simp [h]
theorem whenB_sec (b : Bool) (f : Chip → Chip) (c : Chip) (h : (f c).sec = c.sec) : (whenB b f c).sec = c.sec := by unfold whenB; split <;> simp [h]
theorem whenB_cnt (b : Bool) (f : Chip → Chip) (c : Chip) (h : (f c).cnt = c.cnt) : (whenB b f c).cnt = c.cnt := by unfold whenB; split <;> simp [h]
theorem whenB_sent (b : Bool) (f : Chip → Chip) (c : Chip) (h : (f c).sent = c.sent) : (whenB b f c).sent = c.sent := by unfold whenB; split <;> simp [h]
theorem whenB_draws (b : Bool) (f : Chip → Chip) (c : Chip) (h : (f c).draws = c.draws) : (whenB b f c).draws = c.draws := by unfold whenB; split <;> simp [h]

@[simp] theorem onChip_recs (s : State) (f : Chip → Chip) : (onChip s f).recs = s.recs := (rfl)
@[simp] theorem onChip_pending (s : State) (f : Chip → Chip) : (onChip s f).pending = s.pending := (rfl)
@[simp] theorem onChip_chip (s : State) (f : Chip → Chip) : (onChip s f).chip = f s.chip := rfl

end Sys2Proof.Machine
end

