-- ==== Sys2Proof/Laws/Store.lean ====
section
/-!
SUPPORT. Sparse data: what a key reads as after a put, an erase or a set.
-/
namespace Sys2Proof.Machine

theorem kvFind_kvPut {α : Type} (l : KV α) (a b : Nat) (v : α) :
    kvFind (kvPut l a v) b = if b = a then some v else kvFind l b := by
  induction l with
  | nil => simp [kvPut, kvFind]
  | cons e r ih =>
    obtain ⟨k, w⟩ := e
    simp only [kvPut]
    split
    · by_cases hb : b = a <;> simp [kvFind, hb]
    · split
      · subst_vars; by_cases hb : b = k <;> simp [kvFind, hb]
      · by_cases hk : b = k
        · subst hk; simp [kvFind]; omega
        · simp [kvFind, hk, ih]

theorem kvFind_kvErase {α : Type} (l : KV α) (a b : Nat) :
    kvFind (kvErase l a) b = if b = a then none else kvFind l b := by
  induction l with
  | nil => simp [kvErase, kvFind]
  | cons e r ih =>
    obtain ⟨k, w⟩ := e
    simp only [kvErase] at ih
    by_cases hk : k = a
    · subst hk
      simp only [kvErase, List.filter, beq_self_eq_true, Bool.not_true, ih, kvFind]
      by_cases hb : b = k <;> simp [hb]
    · have h1 : (!(k == a)) = true := by simp [hk]
      simp only [kvErase, List.filter, h1, kvFind]
      by_cases hb : b = k
      · subst hb; simp [hk]
      · simp [hb, ih]

theorem kvGet_kvSet {α : Type} [DecidableEq α] (d : α) (l : KV α) (a b : Nat) (v : α) :
    kvGet d (kvSet d l a v) b = if b = a then v else kvGet d l b := by
  unfold kvSet kvGet
  by_cases hv : v = d
  · rw [if_pos hv, kvFind_kvErase]; by_cases hb : b = a <;> simp [hb, hv]
  · rw [if_neg hv, kvFind_kvPut]; by_cases hb : b = a <;> simp [hb]

@[simp] theorem kvGet_kvSet_same {α : Type} [DecidableEq α] (d : α) (l : KV α) (a : Nat) (v : α) :
    kvGet d (kvSet d l a v) a = v := by simp [kvGet_kvSet]

theorem kvGet_kvSet_ne {α : Type} [DecidableEq α] (d : α) (l : KV α) {a b : Nat} (v : α) (h : b ≠ a) :
    kvGet d (kvSet d l a v) b = kvGet d l b := by simp [kvGet_kvSet, h]

end Sys2Proof.Machine
end

