-- ==== Sys2Proof/Laws/Fields.lean ====
section
/-!
SUPPORT. Register fields: what a field reads as after another was set, after a fault or an event was raised and after
an occurrence was counted.
-/
namespace Sys2Proof.Machine

@[simp] theorem getFi_setFi_same (X : Fld) (n i v : Nat) (c : Chip) :
    getFi (setFi X n i v c) X n i = v % 2 ^ X.w := by
  unfold getFi setFi
  by_cases h : v % 2 ^ X.w = rstAt X n i <;> simp [h, kvFind_kvPut, kvFind_kvErase]

theorem getFi_setFi_ne {X Y : Fld} {n i m j : Nat} (v : Nat) (c : Chip) (h : fldKey Y m j ≠ fldKey X n i) :
    getFi (setFi X n i v c) Y m j = getFi c Y m j := by
  unfold getFi setFi
  by_cases hv : v % 2 ^ X.w = rstAt X n i <;> simp [hv, kvFind_kvPut, kvFind_kvErase, h]

@[simp] theorem getF_setF_same (X : Fld) (n v : Nat) (c : Chip) : getF (setF X n v c) X n = v % 2 ^ X.w :=
  getFi_setFi_same X n 0 v c

theorem getF_setF_ne {X Y : Fld} {n m : Nat} (v : Nat) (c : Chip) (h : fldKey Y m 0 ≠ fldKey X n 0) :
    getF (setF X n v c) Y m = getF c Y m := getFi_setFi_ne v c h

theorem getFi_setF_ne {X Y : Fld} {n m j : Nat} (v : Nat) (c : Chip) (h : fldKey Y m j ≠ fldKey X n 0) :
    getFi (setF X n v c) Y m j = getFi c Y m j := getFi_setFi_ne v c h

/-- A field reads the same in two chips with the same fields. -/
theorem getFi_congr {c d : Chip} (h : d.fld = c.fld) (X : Fld) (n i : Nat) : getFi d X n i = getFi c X n i := by
  simp [getFi, h]

theorem getF_congr {c d : Chip} (h : d.fld = c.fld) (X : Fld) (n : Nat) : getF d X n = getF c X n :=
  getFi_congr h X n 0

theorem getFi_def (c : Chip) (X : Fld) (n i : Nat) : getFi c X n i = (kvFind c.fld (fldKey X n i)).getD (rstAt X n i) := (rfl)

@[simp] theorem getFi_send (o : Out) (c : Chip) (X : Fld) (n i : Nat) : getFi (send o c) X n i = getFi c X n i := (rfl)
@[simp] theorem getF_send (o : Out) (c : Chip) (X : Fld) (n : Nat) : getF (send o c) X n = getF c X n := (rfl)
@[simp] theorem getFi_takeDraw (c : Chip) (X : Fld) (n i : Nat) : getFi (takeDraw c) X n i = getFi c X n i := (rfl)
@[simp] theorem getF_takeDraw (c : Chip) (X : Fld) (n : Nat) : getF (takeDraw c) X n = getF c X n := (rfl)
@[simp] theorem getFi_setLnkSt (p : Nat) (x : LnkSt) (c : Chip) (X : Fld) (n i : Nat) :
    getFi (setLnkSt p x c) X n i = getFi c X n i := (rfl)
@[simp] theorem getF_setLnkSt (p : Nat) (x : LnkSt) (c : Chip) (X : Fld) (n : Nat) :
    getF (setLnkSt p x c) X n = getF c X n := (rfl)
@[simp] theorem getFi_setPrtSt (p : Nat) (x : PrtSt) (c : Chip) (X : Fld) (n i : Nat) :
    getFi (setPrtSt p x c) X n i = getFi c X n i := (rfl)
@[simp] theorem getF_setPrtSt (p : Nat) (x : PrtSt) (c : Chip) (X : Fld) (n : Nat) :
    getF (setPrtSt p x c) X n = getF c X n := (rfl)
@[simp] theorem getFi_setLaneSt (l : Nat) (x : LaneSt) (c : Chip) (X : Fld) (n i : Nat) :
    getFi (setLaneSt l x c) X n i = getFi c X n i := (rfl)
@[simp] theorem getF_setLaneSt (l : Nat) (x : LaneSt) (c : Chip) (X : Fld) (n : Nat) :
    getF (setLaneSt l x c) X n = getF c X n := (rfl)
@[simp] theorem getFi_setTenSt (t : Nat) (x : TenSt) (c : Chip) (X : Fld) (n i : Nat) :
    getFi (setTenSt t x c) X n i = getFi c X n i := (rfl)
@[simp] theorem getF_setTenSt (t : Nat) (x : TenSt) (c : Chip) (X : Fld) (n : Nat) :
    getF (setTenSt t x c) X n = getF c X n := (rfl)
@[simp] theorem getFi_setSlpSt (k : Nat) (x : SlpSt) (c : Chip) (X : Fld) (n i : Nat) :
    getFi (setSlpSt k x c) X n i = getFi c X n i := (rfl)
@[simp] theorem getF_setSlpSt (k : Nat) (x : SlpSt) (c : Chip) (X : Fld) (n : Nat) :
    getF (setSlpSt k x c) X n = getF c X n := (rfl)
@[simp] theorem getFi_setCtr (pg k : Nat) (x : Ctr) (c : Chip) (X : Fld) (n i : Nat) :
    getFi (setCtr pg k x c) X n i = getFi c X n i := (rfl)

@[simp] theorem getFi_countN (k : PK) (m x : Nat) (q : Option Nat) (a : Nat) (c : Chip) (X : Fld) (n i : Nat) :
    getFi (countN k m x q a c) X n i = getFi c X n i := getFi_congr (by simp) X n i
@[simp] theorem getF_countN (k : PK) (m x : Nat) (q : Option Nat) (a : Nat) (c : Chip) (X : Fld) (n : Nat) :
    getF (countN k m x q a c) X n = getF c X n := getF_congr (by simp) X n
@[simp] theorem getFi_count (k : PK) (m x : Nat) (c : Chip) (X : Fld) (n i : Nat) :
    getFi (count k m x c) X n i = getFi c X n i := getFi_congr (by simp) X n i
@[simp] theorem getF_count (k : PK) (m x : Nat) (c : Chip) (X : Fld) (n : Nat) :
    getF (count k m x c) X n = getF c X n := getF_congr (by simp) X n
@[simp] theorem getFi_countQ (k : PK) (m x q : Nat) (c : Chip) (X : Fld) (n i : Nat) :
    getFi (countQ k m x q c) X n i = getFi c X n i := getFi_congr (by simp) X n i
@[simp] theorem getF_countQ (k : PK) (m x q : Nat) (c : Chip) (X : Fld) (n : Nat) :
    getF (countQ k m x q c) X n = getF c X n := getF_congr (by simp) X n
@[simp] theorem getFi_emitCode (x : FltCode) (c : Chip) (X : Fld) (n i : Nat) :
    getFi (emitCode x c) X n i = getFi c X n i := getFi_congr (by simp) X n i
@[simp] theorem getF_emitCode (x : FltCode) (c : Chip) (X : Fld) (n : Nat) :
    getF (emitCode x c) X n = getF c X n := getF_congr (by simp) X n

/-- A fault raised changes no register field but PG_ERR of its page. -/
theorem getFi_raiseWith_ne (inj : Bool) {k : PK} {m b : Nat} (c : Chip) {X : Fld} {n i : Nat}
    (h : fldKey X n i ≠ fldKey (PG_ERR k) m 0) : getFi (raiseWith inj k m b c) X n i = getFi c X n i := by
  unfold raiseWith
  split
  · rfl
  · split <;> simp [getFi_setF_ne _ _ h]

theorem getFi_raise_ne {k : PK} {m b : Nat} (c : Chip) {X : Fld} {n i : Nat}
    (h : fldKey X n i ≠ fldKey (PG_ERR k) m 0) : getFi (raise k m b c) X n i = getFi c X n i :=
  getFi_raiseWith_ne false c h

theorem getF_raise_ne {k : PK} {m b : Nat} (c : Chip) {X : Fld} {n : Nat}
    (h : fldKey X n 0 ≠ fldKey (PG_ERR k) m 0) : getF (raise k m b c) X n = getF c X n := getFi_raise_ne c h

theorem getFi_event_ne {k : PK} {m b : Nat} (c : Chip) {X : Fld} {n i : Nat}
    (h : fldKey X n i ≠ fldKey (PG_EVT_PEND k) m 0) : getFi (event k m b c) X n i = getFi c X n i :=
  getFi_setF_ne _ c h

theorem getF_event_ne {k : PK} {m b : Nat} (c : Chip) {X : Fld} {n : Nat}
    (h : fldKey X n 0 ≠ fldKey (PG_EVT_PEND k) m 0) : getF (event k m b c) X n = getF c X n := getFi_event_ne c h

theorem getF_bumpF_same (X : Fld) (n k : Nat) (c : Chip) : getF (bumpF X n k c) X n = satAdd X.w (getF c X n) k := by
  have h : satAdd X.w (getF c X n) k < 2 ^ X.w := by
    have := Nat.two_pow_pos X.w
    unfold satAdd; omega
  simp [bumpF, Nat.mod_eq_of_lt h]

theorem getFi_bumpF_ne {X Y : Fld} {n k m j : Nat} (c : Chip) (h : fldKey Y m j ≠ fldKey X n 0) :
    getFi (bumpF X n k c) Y m j = getFi c Y m j := getFi_setF_ne _ c h

theorem getFi_wrapF_ne {X Y : Fld} {n k m j : Nat} (c : Chip) (h : fldKey Y m j ≠ fldKey X n 0) :
    getFi (wrapF X n k c) Y m j = getFi c Y m j := getFi_setF_ne _ c h

theorem getF_bumpF_ne {X Y : Fld} {n k m : Nat} (c : Chip) (h : fldKey Y m 0 ≠ fldKey X n 0) :
    getF (bumpF X n k c) Y m = getF c Y m := getFi_bumpF_ne c h

theorem getF_wrapF_ne {X Y : Fld} {n k m : Nat} (c : Chip) (h : fldKey Y m 0 ≠ fldKey X n 0) :
    getF (wrapF X n k c) Y m = getF c Y m := getFi_wrapF_ne c h

theorem getF_wrapF_same (X : Fld) (n k : Nat) (c : Chip) :
    getF (wrapF X n k c) X n = (getF c X n + k) % 2 ^ X.w := getF_setF_same X n _ c

end Sys2Proof.Machine
end

