-- ==== Sys2Proof/Laws/Faults.lean ====
section
/-!
SUPPORT. Bits of words, the fault bit that a raised fault leaves, the event bit that a raised event leaves, and the
branches of a register access.
-/
namespace Sys2Proof.Machine

theorem bit_mod {v i w : Nat} (h : i < w) : bit (v % 2 ^ w) i = bit v i := by
  obtain ⟨k, rfl⟩ : ∃ k, w = i + (k + 1) := ⟨w - i - 1, by omega⟩
  unfold bit
  rw [Nat.pow_add, Nat.mod_mul_right_div_self, Nat.pow_succ, Nat.mod_mod_of_dvd _ (Nat.dvd_mul_left 2 (2 ^ k))]

theorem bit_setBit (v i : Nat) : bit (setBit v i) i = true := by
  unfold setBit
  split
  · assumption
  · next h =>
    unfold bit at h ⊢
    rw [Nat.add_div_right _ (Nat.two_pow_pos i)]
    simp only [beq_iff_eq] at h ⊢
    omega

/-- A fault raised leaves its PG_ERR bit 1. -/
theorem bit_raiseWith (inj : Bool) (k : PK) (n b : Nat) (c : Chip) (hb : b < 16) :
    bit (getF (raiseWith inj k n b c) (PG_ERR k) n) b = true := by
  unfold raiseWith
  split
  · assumption
  · split <;> simp only [getF_emitCode, getF_setF_same] <;> rw [show (PG_ERR k).w = 16 from rfl, bit_mod hb, bit_setBit]

theorem bit_raise (k : PK) (n b : Nat) (c : Chip) (hb : b < 16) :
    bit (getF (raise k n b c) (PG_ERR k) n) b = true := bit_raiseWith false k n b c hb

/-- An event raised leaves its PG_EVT_PEND bit 1. -/
theorem bit_event (k : PK) (n b : Nat) (c : Chip) (hb : b < 16) :
    bit (getF (event k n b c) (PG_EVT_PEND k) n) b = true := by
  unfold event
  rw [getF_setF_same, show (PG_EVT_PEND k).w = 16 from rfl, bit_mod hb, bit_setBit]

/-- A register access that no closing and no missing start refuses has its effect. -/
theorem reachReg_open {pa : Path} {k : PK} {n off : Nat} {eff : Chip → Chip} {c : Chip}
    (h0 : pathUp c pa = true) (h1 : pathClosed c pa (blockOf k) = false) (h2 : pageStarted c k n = true) :
    reachReg pa k n off eff c = eff c := by
  simp [reachReg, h0, h1, h2]

theorem reachReg_closed {pa : Path} {k : PK} {n off : Nat} {eff : Chip → Chip} {c : Chip}
    (h0 : pathUp c pa = true) (h : pathClosed c pa (blockOf k) = true) : reachReg pa k n off eff c = closedHit pa c := by
  simp [reachReg, h0, h]

theorem reachReg_absent {pa : Path} {k : PK} {n off : Nat} {eff : Chip → Chip} {c : Chip} (h0 : pathUp c pa = false) :
    reachReg pa k n off eff c = pathAbsent pa c := by
  simp [reachReg, h0]

theorem reachReg_notStarted {pa : Path} {k : PK} {n off : Nat} {eff : Chip → Chip} {c : Chip}
    (h0 : pathUp c pa = true) (h1 : pathClosed c pa (blockOf k) = false) (h2 : pageStarted c k n = false)
    (h3 : pa ≠ .bridge) :
    reachReg pa k n off eff c = refuseAccess pa 0 (pageOf k n * 4096 + off) c := by
  simp [reachReg, h0, h1, h2, h3]

end Sys2Proof.Machine
end

