-- ==== Sys2Proof/Laws/Mem.lean ====
section
/-!
SUPPORT. The record buffers' memory: every operation keeps the canonical form, and what a byte reads as after a write.
-/
namespace Sys2Proof.Machine

theorem cellsFrom_mono {l : List Host.Cell} {a b : Nat} (h : cellsFrom b l = true) (hab : a ≤ b) :
    cellsFrom a l = true := by
  cases l with
  | nil => rfl
  | cons e r =>
    obtain ⟨x, v⟩ := e
    simp only [cellsFrom, Bool.and_eq_true, decide_eq_true_eq] at h ⊢
    exact ⟨by omega, h.2⟩

theorem cellsFrom_writeByte {l : List Host.Cell} {lo x : Nat} (v : Byte) (h : cellsFrom lo l = true) (hx : lo ≤ x) :
    cellsFrom lo (writeByte l x v) = true := by
  induction l generalizing lo with
  | nil =>
    by_cases hv : v = 0
    · rw [writeByte, if_pos hv]; rfl
    · rw [writeByte, if_neg hv]
      simp only [cellsFrom, Bool.and_eq_true, decide_eq_true_eq]
      exact ⟨hx, hv, trivial⟩
  | cons e r ih =>
    obtain ⟨a, b⟩ := e
    simp only [cellsFrom, Bool.and_eq_true, decide_eq_true_eq] at h
    obtain ⟨h1, h2, h3⟩ := h
    simp only [writeByte]
    split
    · next hlt =>
      by_cases hv : v = 0
      · simp only [hv, if_true, cellsFrom, Bool.and_eq_true, decide_eq_true_eq]
        exact ⟨h1, h2, h3⟩
      · simp only [hv, if_false, cellsFrom, Bool.and_eq_true, decide_eq_true_eq]
        exact ⟨hx, hv, by omega, h2, h3⟩
    · split
      · next heq =>
        by_cases hv : v = 0
        · simp only [hv, if_true]; exact cellsFrom_mono h3 (by omega)
        · simp only [hv, if_false, cellsFrom, Bool.and_eq_true, decide_eq_true_eq]
          exact ⟨h1, hv, h3⟩
      · next hne heq =>
        simp only [cellsFrom, Bool.and_eq_true, decide_eq_true_eq]
        exact ⟨h1, h2, ih h3 (by omega)⟩

theorem wf_writeByte {l : List Host.Cell} (x : Nat) (v : Byte) (h : Memory.wf l = true) :
    Memory.wf (writeByte l x v) = true := cellsFrom_writeByte v h (Nat.zero_le x)

theorem wf_writeBytes {l : List Host.Cell} (x : Nat) (vs : List Byte) (h : Memory.wf l = true) :
    Memory.wf (writeBytes l x vs) = true := by
  induction vs generalizing l x with
  | nil => exact h
  | cons v vs ih => exact ih (x + 1) (wf_writeByte x v h)

theorem cellsFrom_filter {l : List Host.Cell} {lo : Nat} (p : Host.Cell → Bool) (h : cellsFrom lo l = true) :
    cellsFrom lo (l.filter p) = true := by
  induction l generalizing lo with
  | nil => rfl
  | cons e r ih =>
    obtain ⟨a, b⟩ := e
    simp only [cellsFrom, Bool.and_eq_true, decide_eq_true_eq] at h
    obtain ⟨h1, h2, h3⟩ := h
    rw [List.filter_cons]
    split
    · simp only [cellsFrom, Bool.and_eq_true, decide_eq_true_eq]; exact ⟨h1, h2, ih h3⟩
    · exact cellsFrom_mono (ih h3) (by omega)

theorem wf_clearRec {l : List Host.Cell} (t : Nat) (h : Memory.wf l = true) : Memory.wf (clearRec l t) = true :=
  cellsFrom_filter _ h

theorem readByte_eq_zero_of_lt {l : List Host.Cell} {lo x : Nat} (h : cellsFrom lo l = true) (hx : x < lo) :
    readByte l x = 0 := by
  induction l generalizing lo with
  | nil => rfl
  | cons e r ih =>
    obtain ⟨a, b⟩ := e
    simp only [cellsFrom, Bool.and_eq_true, decide_eq_true_eq] at h
    have : x ≠ a := by omega
    simp only [readByte, this, if_false]
    exact ih h.2.2 (by omega)

/-- A read after a write: the written byte at its address, every other byte as before. -/
theorem readByte_writeByte {l : List Host.Cell} {lo : Nat} (x y : Nat) (v : Byte) (h : cellsFrom lo l = true) :
    readByte (writeByte l x v) y = if y = x then v else readByte l y := by
  induction l generalizing lo with
  | nil =>
    by_cases hv : v = 0
    · subst hv; simp [writeByte, readByte]
    · rw [writeByte, if_neg hv]; rfl
  | cons e r ih =>
    obtain ⟨a, b⟩ := e
    simp only [cellsFrom, Bool.and_eq_true, decide_eq_true_eq] at h
    obtain ⟨h1, h2, h3⟩ := h
    simp only [writeByte]
    split
    · next hlt =>
      by_cases hv : v = 0
      · subst hv
        simp only [if_true, readByte]
        by_cases hy : y = x
        · subst hy
          have : y ≠ a := by omega
          simp [this, readByte_eq_zero_of_lt h3 (by omega : y < a + 1)]
        · simp [hy]
      · simp only [hv, if_false, readByte]
    · split
      · next heq =>
        subst heq
        by_cases hv : v = 0
        · subst hv
          simp only [if_true, readByte]
          by_cases hy : y = x
          · subst hy; simp [readByte_eq_zero_of_lt h3 (by omega : y < y + 1)]
          · simp [hy]
        · simp only [hv, if_false, readByte]
          by_cases hy : y = x <;> simp [hy]
      · next hne heq =>
        simp only [readByte]
        by_cases hy : y = a
        · subst hy
          have : y ≠ x := fun e => heq e.symm
          simp [this]
        · simp [hy, ih h3]

/-- A cleared buffer reads 0, every byte of another buffer as before. -/
theorem readByte_clearRec (l : List Host.Cell) (t y : Nat) :
    readByte (clearRec l t) y = if y / 1024 = t then 0 else readByte l y := by
  induction l with
  | nil => simp [clearRec, readByte]
  | cons e r ih =>
    obtain ⟨a, b⟩ := e
    simp only [clearRec] at ih
    simp only [clearRec, List.filter_cons]
    by_cases ha : a / 1024 = t
    · simp only [ha, beq_self_eq_true, Bool.not_true, Bool.false_eq_true, if_false, ih, readByte]
      by_cases hy : y / 1024 = t
      · simp [hy]
      · have : y ≠ a := fun e => hy (by rw [e]; exact ha)
        simp [hy, this]
    · have h1 : (!(a / 1024 == t)) = true := by simp [ha]
      simp only [h1, if_true, readByte, ih]
      by_cases hy : y = a
      · subst hy; simp [ha]
      · simp [hy]

theorem readByte_writeBytes {l : List Host.Cell} (x y : Nat) (vs : List Byte) (h : Memory.wf l = true) :
    readByte (writeBytes l x vs) y = if x ≤ y ∧ y < x + vs.length then (vs[y - x]?).getD 0 else readByte l y := by
  induction vs generalizing l x with
  | nil => simp [writeBytes] <;> omega
  | cons v vs ih =>
    rw [writeBytes, ih _ (wf_writeByte x v h), readByte_writeByte (lo := 0) x y v h]
    by_cases hy : y = x
    · subst hy
      rw [if_neg (by omega), if_pos rfl, if_pos (by simp), Nat.sub_self]
      rfl
    · by_cases hx : x + 1 ≤ y ∧ y < x + 1 + vs.length
      · rw [if_pos hx, if_pos (by simp only [List.length_cons]; omega),
          show y - x = (y - (x + 1)) + 1 by omega]
        simp
      · rw [if_neg hx, if_neg hy, if_neg (by simp only [List.length_cons]; omega)]

theorem readBytes_congr {l m : List Host.Cell} (n x : Nat)
    (h : ∀ y, x ≤ y → y < x + n → readByte l y = readByte m y) : readBytes l x n = readBytes m x n := by
  induction n generalizing x with
  | zero => rfl
  | succ n ih =>
    simp only [readBytes]
    rw [h x (Nat.le_refl _) (by omega), ih (x + 1) fun y h1 h2 => h y (by omega) (by omega)]

theorem leNat_leBytes (n v : Nat) : leNat (leBytes n v) = v % 256 ^ n := by
  induction n generalizing v with
  | zero => simp [leBytes, leNat, Nat.mod_one]
  | succ n ih =>
    simp only [leBytes, leNat, ih, BitVec.toNat_ofNat, Nat.reducePow]
    rw [Nat.pow_succ', Nat.mod_mul]

theorem leBytes_length (n v : Nat) : (leBytes n v).length = n := by
  induction n generalizing v with
  | zero => rfl
  | succ n ih => simp [leBytes, ih]

theorem readBytes_writeBytes_same {l : List Host.Cell} (x : Nat) (vs : List Byte) (h : Memory.wf l = true) :
    readBytes (writeBytes l x vs) x vs.length = vs := by
  induction vs generalizing l x with
  | nil => rfl
  | cons v vs ih =>
    simp only [List.length_cons, readBytes, writeBytes]
    rw [ih _ (wf_writeByte x v h), readByte_writeBytes _ _ _ (wf_writeByte x v h), if_neg (by omega),
      readByte_writeByte (lo := 0) x x v h, if_pos rfl]

/-- A number written reads back, modulo what its bytes hold. -/
theorem readLe_writeBytes_same {l : List Host.Cell} (x n v : Nat) (h : Memory.wf l = true) :
    readLe (writeBytes l x (leBytes n v)) x n = v % 256 ^ n := by
  have e := readBytes_writeBytes_same x (leBytes n v) h
  rw [leBytes_length] at e
  rw [readLe, e, leNat_leBytes]

theorem readLe_writeBytes_ne {l : List Host.Cell} (x y n : Nat) (vs : List Byte) (h : Memory.wf l = true)
    (hd : y + n ≤ x ∨ x + vs.length ≤ y) : readLe (writeBytes l x vs) y n = readLe l y n := by
  unfold readLe
  congr 1
  exact readBytes_congr n y fun z h1 h2 => by rw [readByte_writeBytes _ _ _ h, if_neg (by omega)]

end Sys2Proof.Machine
end

