-- ==== Sys2Proof/Laws/Plane.lean ====
section
/-!
SUPPORT. The data plane leaves the management plane alone: every operation of the data plane keeps the time base, the
supplies and the start, the sideband chain, the test port, the claims of the interrupt controller and the bridge.
-/
set_option linter.unusedSimpArgs false
namespace Sys2Proof.Machine

theorem plane_mk (fld tmb pwr sbc tap phy lnk prt xbr bnd ten slt rol txns nextTxn map media mrk rak car flt slp mgt brg sec
    cnt sent draws) :
    Chip.plane ⟨fld, tmb, pwr, sbc, tap, phy, lnk, prt, xbr, bnd, ten, slt, rol, txns, nextTxn, map, media, mrk, rak, car, flt,
      slp, mgt, brg, sec, cnt, sent, draws⟩ = (tmb, pwr, sbc, tap, mgt, brg) := (rfl)

theorem plane_fold (c : Chip) : (c.tmb, c.pwr, c.sbc, c.tap, c.mgt, c.brg) = c.plane := (rfl)

theorem forEach_plane {α : Type} (l : List α) (f : α → Chip → Chip) (c : Chip) (h : ∀ x c, (f x c).plane = c.plane) :
    (forEach l f c).plane = c.plane := by
  induction l generalizing c with
  | nil => rfl
  | cons x xs ih => exact (ih _).trans (h x c)

@[simp] theorem whenB_plane (b : Bool) (f : Chip → Chip) (c : Chip) (hf : ∀  c, (f  c).plane = c.plane) :
    (whenB b f c).plane = c.plane := by
  unfold whenB; (try dsimp only) <;> (repeat' split) <;> simp [*, forEach_plane, plane_mk, plane_fold]
@[simp] theorem setFi_plane (X : Fld) (n : Nat) (i : Nat) (v : Nat) (c : Chip) :
    (setFi X n i v c).plane = c.plane := by
  simp [setFi, *, forEach_plane, plane_mk, plane_fold]
@[simp] theorem setF_plane (X : Fld) (n : Nat) (v : Nat) (c : Chip) : (setF X n v c).plane = c.plane := by
  simp [setF]
@[simp] theorem setLane_plane (X : Fld) (l : Nat) (v : Nat) (c : Chip) : (setLane X l v c).plane = c.plane := by
  simp [setLane]
@[simp] theorem bumpF_plane (X : Fld) (n : Nat) (k : Nat) (c : Chip) : (bumpF X n k c).plane = c.plane := by
  simp [bumpF]
@[simp] theorem wrapF_plane (X : Fld) (n : Nat) (k : Nat) (c : Chip) : (wrapF X n k c).plane = c.plane := by
  simp [wrapF]
@[simp] theorem resetF_plane (X : Fld) (n : Nat) (c : Chip) : (resetF X n c).plane = c.plane := by
  simp [resetF]
@[simp] theorem setF64_plane (L : Fld) (H : Fld) (n : Nat) (v : Nat) (c : Chip) :
    (setF64 L H n v c).plane = c.plane := by
  simp [setF64]
@[simp] theorem send_plane (o : Out) (c : Chip) : (send o c).plane = c.plane := by
  simp [send, *, forEach_plane, plane_mk, plane_fold]
@[simp] theorem takeDraw_plane (c : Chip) : (takeDraw c).plane = c.plane := by
  simp [takeDraw, *, forEach_plane, plane_mk, plane_fold]
@[simp] theorem setLnkSt_plane (p : Nat) (x : LnkSt) (c : Chip) : (setLnkSt p x c).plane = c.plane := by
  simp [setLnkSt, *, forEach_plane, plane_mk, plane_fold]
@[simp] theorem setPrtSt_plane (p : Nat) (x : PrtSt) (c : Chip) : (setPrtSt p x c).plane = c.plane := by
  simp [setPrtSt, *, forEach_plane, plane_mk, plane_fold]
@[simp] theorem setLaneSt_plane (l : Nat) (x : LaneSt) (c : Chip) : (setLaneSt l x c).plane = c.plane := by
  simp [setLaneSt, *, forEach_plane, plane_mk, plane_fold]
@[simp] theorem setTenSt_plane (t : Nat) (x : TenSt) (c : Chip) : (setTenSt t x c).plane = c.plane := by
  simp [setTenSt, *, forEach_plane, plane_mk, plane_fold]
@[simp] theorem setSlpSt_plane (n : Nat) (x : SlpSt) (c : Chip) : (setSlpSt n x c).plane = c.plane := by
  simp [setSlpSt, *, forEach_plane, plane_mk, plane_fold]
@[simp] theorem setLiveWin_plane (w : Nat) (x : Window) (c : Chip) : (setLiveWin w x c).plane = c.plane := by
  simp [setLiveWin, *, forEach_plane, plane_mk, plane_fold]
@[simp] theorem putTxn_plane (t : Txn) (c : Chip) : (putTxn t c).plane = c.plane := by
  simp [putTxn, *, forEach_plane, plane_mk, plane_fold]
@[simp] theorem dropTxn_plane (i : Nat) (c : Chip) : (dropTxn i c).plane = c.plane := by
  simp [dropTxn, *, forEach_plane, plane_mk, plane_fold]
@[simp] theorem emitCode_plane (x : FltCode) (c : Chip) : (emitCode x c).plane = c.plane := by
  unfold emitCode; (try dsimp only) <;> (repeat' split) <;> simp [*, forEach_plane, plane_mk, plane_fold]
@[simp] theorem raiseWith_plane (inj : Bool) (k : PK) (n : Nat) (b : Nat) (c : Chip) :
    (raiseWith inj k n b c).plane = c.plane := by
  unfold raiseWith; (try dsimp only) <;> (repeat' split) <;> simp [*, forEach_plane, plane_mk, plane_fold]
@[simp] theorem raise_plane (k : PK) (n : Nat) (b : Nat) (c : Chip) : (raise k n b c).plane = c.plane := by
  simp [raise]
@[simp] theorem event_plane (k : PK) (n : Nat) (b : Nat) (c : Chip) : (event k n b c).plane = c.plane := by
  simp [event]
@[simp] theorem setCtr_plane (pg : Nat) (i : Nat) (x : Ctr) (c : Chip) : (setCtr pg i x c).plane = c.plane := by
  simp [setCtr, *, forEach_plane, plane_mk, plane_fold]
@[simp] theorem countN_plane (k : PK) (n : Nat) (x : Nat) (q : Option Nat) (amount : Nat) (c : Chip) :
    (countN k n x q amount c).plane = c.plane := by
  unfold countN; (try dsimp only) <;> (repeat' split) <;> simp [*, forEach_plane, plane_mk, plane_fold]
@[simp] theorem count_plane (k : PK) (n : Nat) (x : Nat) (c : Chip) : (count k n x c).plane = c.plane := by
  simp [count]
@[simp] theorem countQ_plane (k : PK) (n : Nat) (x : Nat) (q : Nat) (c : Chip) :
    (countQ k n x q c).plane = c.plane := by
  simp [countQ]
@[simp] theorem countRol_plane (slice : Nat) (x : Nat) (q : Option Nat) (c : Chip) :
    (countRol slice x q c).plane = c.plane := by
  simp [countRol]
@[simp] theorem countMgt_plane (core : Nat) (x : Nat) (c : Chip) : (countMgt core x c).plane = c.plane := by
  simp [countMgt]
@[simp] theorem closedHit_plane (pa : Path) (c : Chip) : (closedHit pa c).plane = c.plane := by
  simp [closedHit]
@[simp] theorem noteRefusal_plane (pa : Path) (kind : Nat) (addr : Nat) (c : Chip) :
    (noteRefusal pa kind addr c).plane = c.plane := by
  unfold noteRefusal; (try dsimp only) <;> (repeat' split) <;> simp [*, forEach_plane, plane_mk, plane_fold]
@[simp] theorem refuseAccess_plane (pa : Path) (kind : Nat) (addr : Nat) (c : Chip) :
    (refuseAccess pa kind addr c).plane = c.plane := by
  simp [refuseAccess]
@[simp] theorem pathAbsent_plane (pa : Path) (c : Chip) : (pathAbsent pa c).plane = c.plane := by
  unfold pathAbsent; split <;> simp
@[simp] theorem reachReg_plane (pa : Path) (k : PK) (n : Nat) (off : Nat) (eff : Chip → Chip) (c : Chip) (heff : ∀  c, (eff  c).plane = c.plane) :
    (reachReg pa k n off eff c).plane = c.plane := by
  unfold reachReg; (try dsimp only) <;> (repeat' split) <;> simp [*, forEach_plane, plane_mk, plane_fold]
@[simp] theorem writeFld_plane (X : Fld) (n : Nat) (i : Nat) (v : Nat) (c : Chip) :
    (writeFld X n i v c).plane = c.plane := by
  unfold writeFld; (try dsimp only) <;> (repeat' split) <;> simp [*, forEach_plane, plane_mk, plane_fold]
@[simp] theorem noteMiss_plane (typ : Nat) (port : Nat) (addr : Nat) (c : Chip) :
    (noteMiss typ port addr c).plane = c.plane := by
  unfold noteMiss; split <;> simp
@[simp] theorem windowUe_plane (w : Nat) (c : Chip) : (windowUe w c).plane = c.plane := by
  unfold windowUe; split <;> simp
@[simp] theorem windowEcc_plane (cor : Bool) (ue : Bool) (w : Option Nat) (c : Chip) :
    (windowEcc cor ue w c).plane = c.plane := by
  unfold windowEcc; split <;> simp
@[simp] theorem checkDrained_plane (c : Chip) : (checkDrained c).plane = c.plane := by
  unfold checkDrained; (try dsimp only) <;> (repeat' split) <;> simp [*, forEach_plane, plane_mk, plane_fold]
@[simp] theorem setDcLog_plane (p : Nat) (l : DcLog) (c : Chip) : (setDcLog p l c).plane = c.plane := by
  simp [setDcLog, *, forEach_plane, plane_mk, plane_fold]
@[simp] theorem placeRecord_plane (p : Nat) (r : DcRec) (c : Chip) : (placeRecord p r c).plane = c.plane := by
  unfold placeRecord; (try dsimp only) <;> (repeat' split) <;> simp [*, forEach_plane, plane_mk, plane_fold]
@[simp] theorem placeWinRecord_plane (w : Nat) (x : Window) (kind : Nat) (c : Chip) :
    (placeWinRecord w x kind c).plane = c.plane := by
  unfold placeWinRecord; (try dsimp only) <;> (repeat' split) <;> simp [*, forEach_plane, plane_mk, plane_fold]
@[simp] theorem changeRecord_plane (w : Nat) (old : Window) (x : Window) (c : Chip) :
    (changeRecord w old x c).plane = c.plane := by
  unfold changeRecord; (try dsimp only) <;> (repeat' split) <;> simp [*, forEach_plane, plane_mk, plane_fold]
@[simp] theorem noteOwed_plane (w : Nat) (old : Window) (x : Window) (c : Chip) :
    (noteOwed w old x c).plane = c.plane := by
  simp [noteOwed, *, forEach_plane, plane_mk, plane_fold]
@[simp] theorem applyWindow_plane (e : Nat) (w : Nat) (c : Chip) : (applyWindow e w c).plane = c.plane := by
  simp [applyWindow]
@[simp] theorem commitOk_plane (c : Chip) : (commitOk c).plane = c.plane := by
  simp [commitOk, *, forEach_plane, plane_mk, plane_fold]
@[simp] theorem commitRefuse_plane (code : Nat) (detail : Nat) (w : Nat) (c : Chip) :
    (commitRefuse code detail w c).plane = c.plane := by
  simp [commitRefuse]
@[simp] theorem stageWord_plane (w : Nat) (i : Nat) (v : Nat) (c : Chip) : (stageWord w i v c).plane = c.plane := by
  unfold stageWord; (try dsimp only) <;> (repeat' split) <;> simp [*, forEach_plane, plane_mk, plane_fold]
@[simp] theorem windowStage_plane (pa : Path) (w : Nat) (i : Nat) (v : Nat) (c : Chip) :
    (windowStage pa w i v c).plane = c.plane := by
  unfold windowStage; split <;> simp
@[simp] theorem commitStart_plane (c : Chip) : (commitStart c).plane = c.plane := by
  simp [commitStart]
@[simp] theorem discardStaged_plane (c : Chip) : (discardStaged c).plane = c.plane := by
  simp [discardStaged, *, forEach_plane, plane_mk, plane_fold]
@[simp] theorem holdWrite_plane (h : HeldWrite) (c : Chip) : (holdWrite h c).plane = c.plane := by
  simp [holdWrite, *, forEach_plane, plane_mk, plane_fold]
@[simp] theorem bndWrite_plane (h : HeldWrite) (c : Chip) : (bndWrite h c).plane = c.plane := by
  unfold bndWrite; (try dsimp only) <;> (repeat' split) <;> simp [*, forEach_plane, plane_mk, plane_fold]
@[simp] theorem releaseHeld_plane (c : Chip) : (releaseHeld c).plane = c.plane := by
  simp [releaseHeld, *, forEach_plane, plane_mk, plane_fold]
@[simp] theorem commitRun_plane (c : Chip) : (commitRun c).plane = c.plane := by
  unfold commitRun; split <;> simp
@[simp] theorem setExtent_plane (e : Nat) (st : Nat) (w : Nat) (c : Chip) :
    (setExtent e st w c).plane = c.plane := by
  simp [setExtent]
@[simp] theorem answerExtent_plane (e : Nat) (accepted : List Nat) (w : Nat) (c : Chip) :
    (answerExtent e accepted w c).plane = c.plane := by
  unfold answerExtent; split <;> simp
@[simp] theorem asCommit_plane (p : Nat) (f : Nat → Chip → Chip) (c : Chip) (hf : ∀ x0 c, (f x0 c).plane = c.plane) :
    (asCommit p f c).plane = c.plane := by
  simp [asCommit, *, forEach_plane, plane_mk, plane_fold]
@[simp] theorem dcApply_plane (x : DcCmd) (c : Chip) : (dcApply x c).plane = c.plane := by
  unfold dcApply; (try dsimp only) <;> (repeat' split) <;> simp [*, forEach_plane, plane_mk, plane_fold]
@[simp] theorem dcCommand_plane (x : DcCmd) (c : Chip) : (dcCommand x c).plane = c.plane := by
  unfold dcCommand; (try dsimp only) <;> (repeat' split) <;> simp [*, forEach_plane, plane_mk, plane_fold]
@[simp] theorem dcNext_plane (f : DcCmd → Chip → Chip) (c : Chip) (hf : ∀ x0 c, (f x0 c).plane = c.plane) :
    (dcNext f c).plane = c.plane := by
  unfold dcNext; (try dsimp only) <;> (repeat' split) <;> simp [*, forEach_plane, plane_mk, plane_fold]
@[simp] theorem dcBusy_plane (x : DcCmd) (c : Chip) : (dcBusy x c).plane = c.plane := by
  simp [dcBusy]
@[simp] theorem dcDrop_plane (p : Nat) (c : Chip) : (dcDrop p c).plane = c.plane := by
  simp [dcDrop, *, forEach_plane, plane_mk, plane_fold]
@[simp] theorem effDcAdd_plane (p : Nat) (accepted : List Nat) (c : Chip) :
    (effDcAdd p accepted c).plane = c.plane := by
  simp [effDcAdd]
@[simp] theorem effDcRelease_plane (p : Nat) (w : Nat) (c : Chip) : (effDcRelease p w c).plane = c.plane := by
  unfold effDcRelease; split <;> simp
@[simp] theorem placeHeld_plane (p : Nat) (c : Chip) : (placeHeld p c).plane = c.plane := by
  unfold placeHeld; (try dsimp only) <;> (repeat' split) <;> simp [*, forEach_plane, plane_mk, plane_fold]
@[simp] theorem effWindowWrite_plane (pa : Path) (w : Nat) (i : Nat) (v : Nat) (c : Chip) :
    (effWindowWrite pa w i v c).plane = c.plane := by
  unfold effWindowWrite; (try dsimp only) <;> (repeat' split) <;> simp [*, forEach_plane, plane_mk, plane_fold]
@[simp] theorem effCommitTimeout_plane (dc : Bool) (c : Chip) : (effCommitTimeout dc c).plane = c.plane := by
  unfold effCommitTimeout; (try dsimp only) <;> (repeat' split) <;> simp [*, forEach_plane, plane_mk, plane_fold]
@[simp] theorem effCommitApply_plane (dc : Bool) (c : Chip) : (effCommitApply dc c).plane = c.plane := by
  unfold effCommitApply; (try dsimp only) <;> (repeat' split) <;> simp [*, forEach_plane, plane_mk, plane_fold]
@[simp] theorem effDcGet_plane (p : Nat) (c : Chip) : (effDcGet p c).plane = c.plane := by
  unfold effDcGet; split <;> simp
@[simp] theorem effClearRecords_plane (p : Nat) (n : Nat) (c : Chip) : (effClearRecords p n c).plane = c.plane := by
  unfold effClearRecords; split <;> simp
@[simp] theorem effDrainTgt_plane (v : Nat) (c : Chip) : (effDrainTgt v c).plane = c.plane := by
  simp [effDrainTgt, *, forEach_plane, plane_mk, plane_fold]
@[simp] theorem effHdm_plane (p : Nat) (i : Nat) (d : HdmDec) (c : Chip) : (effHdm p i d c).plane = c.plane := by
  unfold effHdm; (try dsimp only) <;> (repeat' split) <;> simp [*, forEach_plane, plane_mk, plane_fold]
@[simp] theorem addLoss_plane (t : Nat) (line : Nat) (cause : Nat) (c : Chip) :
    (addLoss t line cause c).plane = c.plane := by
  unfold addLoss; (try dsimp only) <;> (repeat' split) <;> simp [*, forEach_plane, plane_mk, plane_fold]
@[simp] theorem clearLoss_plane (t : Nat) (v : Nat) (c : Chip) : (clearLoss t v c).plane = c.plane := by
  simp [clearLoss]
@[simp] theorem fillBuckets_plane (t : Nat) (c : Chip) : (fillBuckets t c).plane = c.plane := by
  simp [fillBuckets]
@[simp] theorem policerTake_plane (t : Nat) (cost : Nat) (c : Chip) : (policerTake t cost c).plane = c.plane := by
  unfold policerTake; split <;> simp
@[simp] theorem shaperTake_plane (t : Nat) (cost : Nat) (c : Chip) : (shaperTake t cost c).plane = c.plane := by
  unfold shaperTake; split <;> simp
@[simp] theorem refillTen_plane (t : Nat) (c : Chip) : (refillTen t c).plane = c.plane := by
  simp [refillTen]
@[simp] theorem noteDiscard_plane (t : Nat) (cause : Nat) (c : Chip) : (noteDiscard t cause c).plane = c.plane := by
  simp [noteDiscard]
@[simp] theorem cmdBegin_plane (t : Nat) (op : Nat) (c : Chip) : (cmdBegin t op c).plane = c.plane := by
  simp [cmdBegin]
@[simp] theorem cmdEnd_plane (t : Nat) (status : Nat) (c : Chip) : (cmdEnd t status c).plane = c.plane := by
  simp [cmdEnd]
@[simp] theorem cmdRefuse_plane (t : Nat) (op : Nat) (status : Nat) (c : Chip) :
    (cmdRefuse t op status c).plane = c.plane := by
  simp [cmdRefuse]
@[simp] theorem takeSettings_plane (d : Nat) (c : Chip) : (takeSettings d c).plane = c.plane := by
  simp [takeSettings, *, forEach_plane, plane_mk, plane_fold]
@[simp] theorem updDisk_plane (p : Nat) (f : Disk → Disk) (c : Chip) : (updDisk p f c).plane = c.plane := by
  simp [updDisk, *, forEach_plane, plane_mk, plane_fold]
@[simp] theorem wipeDev_plane (i : Nat) (k : Nat) (start : Nat) (c : Chip) :
    (wipeDev i k start c).plane = c.plane := by
  simp [wipeDev]
@[simp] theorem wipeCopy_plane (i : Nat) (start : Nat) (c : Chip) : (wipeCopy i start c).plane = c.plane := by
  simp [wipeCopy, *, forEach_plane, plane_mk, plane_fold]
@[simp] theorem setStored_plane (i : Nat) (t : Nat) (e : Entry) (c : Chip) :
    (setStored i t e c).plane = c.plane := by
  simp [setStored]
@[simp] theorem noteWritten_plane (t : Nat) (e : Entry) (c : Chip) : (noteWritten t e c).plane = c.plane := by
  unfold noteWritten; (try dsimp only) <;> (repeat' split) <;> simp [*, forEach_plane, plane_mk, plane_fold]
@[simp] theorem writeCopies_plane (t : Nat) (e : Entry) (cw : CopyWrites) (c : Chip) :
    (writeCopies t e cw c).2.plane = c.plane := by
  simp [writeCopies]
@[simp] theorem writeBackMarks_plane (l : Nat) (x : CacheLine) (c : Chip) :
    (writeBackMarks l x c).plane = c.plane := by
  unfold writeBackMarks; (try dsimp only) <;> (repeat' split) <;> simp [*, forEach_plane, plane_mk, plane_fold]
@[simp] theorem evictMapLine_plane (l : Nat) (c : Chip) : (evictMapLine l c).plane = c.plane := by
  unfold evictMapLine; (try dsimp only) <;> (repeat' split) <;> simp [*, forEach_plane, plane_mk, plane_fold]
@[simp] theorem fillLine_plane (i : Nat) (l : Nat) (c : Chip) : (fillLine i l c).plane = c.plane := by
  simp [fillLine, *, forEach_plane, plane_mk, plane_fold]
@[simp] theorem ensureCached_plane (t : Nat) (c : Chip) : (ensureCached t c).plane = c.plane := by
  unfold ensureCached; split <;> simp
@[simp] theorem setEntry_plane (t : Nat) (e : Entry) (c : Chip) : (setEntry t e c).plane = c.plane := by
  unfold setEntry; (try dsimp only) <;> (repeat' split) <;> simp [*, forEach_plane, plane_mk, plane_fold]
@[simp] theorem setUnwritten_plane (t : Nat) (on : Bool) (c : Chip) : (setUnwritten t on c).plane = c.plane := by
  unfold setUnwritten; (try dsimp only) <;> (repeat' split) <;> simp [*, forEach_plane, plane_mk, plane_fold]
@[simp] theorem markTile_plane (t : Nat) (rd : Nat) (wr : Nat) (c : Chip) :
    (markTile t rd wr c).plane = c.plane := by
  unfold markTile; split <;> simp
@[simp] theorem noteUnreadable_plane (t : Nat) (c : Chip) : (noteUnreadable t c).plane = c.plane := by
  unfold noteUnreadable; (try dsimp only) <;> (repeat' split) <;> simp [*, forEach_plane, plane_mk, plane_fold]
@[simp] theorem noteLineUnreadable_plane (t : Nat) (c : Chip) : (noteLineUnreadable t c).plane = c.plane := by
  simp [noteLineUnreadable, *, forEach_plane, plane_mk, plane_fold]
@[simp] theorem ringPut_plane (i : RingItem) (c : Chip) : (ringPut i c).plane = c.plane := by
  unfold ringPut; (try dsimp only) <;> (repeat' split) <;> simp [*, forEach_plane, plane_mk, plane_fold]
@[simp] theorem releaseLocs_plane (t : Nat) (ls : List Nat) (c : Chip) : (releaseLocs t ls c).plane = c.plane := by
  simp [releaseLocs, *, forEach_plane, plane_mk, plane_fold]
@[simp] theorem addSplit_plane (t : Nat) (good1 : Bool) (c : Chip) : (addSplit t good1 c).plane = c.plane := by
  unfold addSplit; (try dsimp only) <;> (repeat' split) <;> simp [*, forEach_plane, plane_mk, plane_fold]
@[simp] theorem clearSplit_plane (t : Nat) (c : Chip) : (clearSplit t c).plane = c.plane := by
  simp [clearSplit, *, forEach_plane, plane_mk, plane_fold]
@[simp] theorem setRol_plane (l : Nat) (e : RollEntry) (c : Chip) : (setRol l e c).plane = c.plane := by
  simp [setRol, *, forEach_plane, plane_mk, plane_fold]
@[simp] theorem freeRol_plane (l : Nat) (c : Chip) : (freeRol l c).plane = c.plane := by
  simp [freeRol, *, forEach_plane, plane_mk, plane_fold]
@[simp] theorem setGone_plane (h : Nat) (on : Bool) (c : Chip) : (setGone h on c).plane = c.plane := by
  simp [setGone]
@[simp] theorem removeHost_plane (h : Nat) (l : Nat) (c : Chip) : (removeHost h l c).plane = c.plane := by
  unfold removeHost; (try dsimp only) <;> (repeat' split) <;> simp [*, forEach_plane, plane_mk, plane_fold]
@[simp] theorem ownBy_plane (h : Nat) (l : Nat) (c : Chip) : (ownBy h l c).plane = c.plane := by
  simp [ownBy]
@[simp] theorem shareWith_plane (h : Nat) (l : Nat) (c : Chip) : (shareWith h l c).plane = c.plane := by
  simp [shareWith]
@[simp] theorem noteRolErr_plane (cause : Nat) (host : Nat) (line : Nat) (c : Chip) :
    (noteRolErr cause host line c).plane = c.plane := by
  unfold noteRolErr; split <;> simp
@[simp] theorem takePatterns_plane (l : Nat) (c : Chip) : (takePatterns l c).plane = c.plane := by
  simp [takePatterns]
@[simp] theorem adaptAs_plane (l : Nat) (phase : Nat) (c : Chip) : (adaptAs l phase c).plane = c.plane := by
  simp [adaptAs]
@[simp] theorem adaptNow_plane (l : Nat) (c : Chip) : (adaptNow l c).plane = c.plane := by
  simp [adaptNow]
@[simp] theorem idleLane_plane (l : Nat) (c : Chip) : (idleLane l c).plane = c.plane := by
  unfold idleLane; (try dsimp only) <;> (repeat' split) <;> simp [*, forEach_plane, plane_mk, plane_fold]
@[simp] theorem takePower_plane (l : Nat) (c : Chip) : (takePower l c).plane = c.plane := by
  unfold takePower; (try dsimp only) <;> (repeat' split) <;> simp [*, forEach_plane, plane_mk, plane_fold]
@[simp] theorem lanesIdle_plane (p : Nat) (c : Chip) : (lanesIdle p c).plane = c.plane := by
  simp [lanesIdle, *, forEach_plane, plane_mk, plane_fold]
@[simp] theorem setCarrier_plane (prim : Nat) (b : Nat) (m : Nat) (c : Chip) :
    (setCarrier prim b m c).plane = c.plane := by
  unfold setCarrier; (try dsimp only) <;> (repeat' split) <;> simp [*, forEach_plane, plane_mk, plane_fold]
@[simp] theorem setAvail_plane (p : Nat) (cls : Nat) (v : Nat) (c : Chip) :
    (setAvail p cls v c).plane = c.plane := by
  unfold setAvail; split <;> simp
@[simp] theorem takeNeeds_plane (p : Nat) (n : List Nat) (c : Chip) : (takeNeeds p n c).plane = c.plane := by
  unfold takeNeeds; (try dsimp only) <;> (repeat' split) <;> (try simp [*, forEach_plane, plane_mk, plane_fold]) <;>
    (try (refine (forEach_plane _ _ _ (fun _ _ => ?_)).trans ?_ <;> (try dsimp only) <;> (repeat' split) <;> (try simp [*, forEach_plane, plane_mk, plane_fold]) <;>
      (repeat' split) <;> (try simp [*, forEach_plane, plane_mk, plane_fold])))
@[simp] theorem freeNeeds_plane (p : Nat) (n : List Nat) (c : Chip) : (freeNeeds p n c).plane = c.plane := by
  simp [freeNeeds]
@[simp] theorem freeCredits_plane (p : Nat) (t : MsgType) (lines : Nat) (c : Chip) :
    (freeCredits p t lines c).plane = c.plane := by
  simp [freeCredits]
@[simp] theorem emitFlit_plane (p : Nat) (seq : Nat) (msg : Option FlitMsg) (orig : Option Nat) (c : Chip) :
    (emitFlit p seq msg orig c).plane = c.plane := by
  simp [emitFlit]
@[simp] theorem sendFlit_plane (p : Nat) (msg : Option FlitMsg) (bucket : Nat) (orig : Option Nat) (c : Chip) :
    (sendFlit p msg bucket orig c).plane = c.plane := by
  simp [sendFlit]
@[simp] theorem replayFrom_plane (p : Nat) (seq : Nat) (c : Chip) : (replayFrom p seq c).plane = c.plane := by
  simp [replayFrom, *, forEach_plane, plane_mk, plane_fold]
@[simp] theorem setReplays_plane (p : Nat) (n : Nat) (c : Chip) : (setReplays p n c).plane = c.plane := by
  simp [setReplays]
@[simp] theorem sendResend_plane (p : Nat) (f : TxFlit) (c : Chip) : (sendResend p f c).plane = c.plane := by
  unfold sendResend; split <;> simp
@[simp] theorem resendAll_plane (p : Nat) (l : List TxFlit) (c : Chip) : (resendAll p l c).plane = c.plane := by
  induction l generalizing c with
  | nil => simp [resendAll]
  | cons x xs ih => unfold resendAll; (repeat' split) <;> simp [ih]
@[simp] theorem setTrunkOut_plane (prim : Nat) (l : List TrunkMsg) (c : Chip) :
    (setTrunkOut prim l c).plane = c.plane := by
  simp [setTrunkOut, *, forEach_plane, plane_mk, plane_fold]
@[simp] theorem sendTrunk_plane (m : Nat) (x : TrunkMsg) (c : Chip) : (sendTrunk m x c).plane = c.plane := by
  simp [sendTrunk]
@[simp] theorem pumpOut_plane (p : Nat) (l k : List TrunkMsg) (c : Chip) : (pumpOut p l k c).plane = c.plane := by
  induction l generalizing k c with
  | nil => simp [pumpOut]
  | cons x xs ih => unfold pumpOut; dsimp only; split <;> simp [ih]
@[simp] theorem pump_plane (p : Nat) (c : Chip) : (pump p c).plane = c.plane := by
  unfold pump; (try dsimp only) <;> (repeat' split) <;> simp [*, forEach_plane, plane_mk, plane_fold]
@[simp] theorem trunkPost_plane (p : Nat) (x : TrunkMsg) (c : Chip) : (trunkPost p x c).plane = c.plane := by
  simp [trunkPost]
@[simp] theorem addTxn_plane (t : Txn) (c : Chip) : (addTxn t c).plane = c.plane := by
  simp [addTxn, *, forEach_plane, plane_mk, plane_fold]
@[simp] theorem waitAt_plane (t : Txn) (st : Stage) (c : Chip) : (waitAt t st c).plane = c.plane := by
  simp [waitAt]
@[simp] theorem answerHost_plane (t : Txn) (a : HostAns) (c : Chip) : (answerHost t a c).plane = c.plane := by
  unfold answerHost; (try dsimp only) <;> (repeat' split) <;> simp [*, forEach_plane, plane_mk, plane_fold]
@[simp] theorem dropLost_plane (l : Nat) (c : Chip) : (dropLost l c).plane = c.plane := by
  simp [dropLost, *, forEach_plane, plane_mk, plane_fold]
@[simp] theorem endPoisoning_plane (l : Nat) (c : Chip) : (endPoisoning l c).plane = c.plane := by
  simp [endPoisoning, *, forEach_plane, plane_mk, plane_fold]
@[simp] theorem dropLostTile_plane (t : Nat) (c : Chip) : (dropLostTile t c).plane = c.plane := by
  simp [dropLostTile, *, forEach_plane, plane_mk, plane_fold]
@[simp] theorem jobNote_plane (t : Txn) (failed : Bool) (poison : Bool) (c : Chip) :
    (jobNote t failed poison c).plane = c.plane := by
  unfold jobNote; (try dsimp only) <;> (repeat' split) <;> simp [*, forEach_plane, plane_mk, plane_fold]
@[simp] theorem trunkAnswer_plane (p : Nat) (tag : Nat) (e : Nat) (write : Bool) (d : Line) (poison : Bool) (c : Chip) :
    (trunkAnswer p tag e write d poison c).plane = c.plane := by
  simp [trunkAnswer]
@[simp] theorem finishRead_plane (t : Txn) (d : Line) (poison : Bool) (c : Chip) :
    (finishRead t d poison c).plane = c.plane := by
  unfold finishRead; split <;> simp
@[simp] theorem finishWrite_plane (t : Txn) (r : Nat) (c : Chip) : (finishWrite t r c).plane = c.plane := by
  unfold finishWrite; (try dsimp only) <;> (repeat' split) <;> simp [*, forEach_plane, plane_mk, plane_fold]
@[simp] theorem finishInv_plane (t : Txn) (c : Chip) : (finishInv t c).plane = c.plane := by
  simp [finishInv]
@[simp] theorem finishAtomPoison_plane (t : Txn) (c : Chip) : (finishAtomPoison t c).plane = c.plane := by
  simp [finishAtomPoison]
@[simp] theorem noteCareHit_plane (tile : Nat) (e : Entry) (c : Chip) : (noteCareHit tile e c).plane = c.plane := by
  simp [noteCareHit]
@[simp] theorem issueRd_plane (t : Txn) (l : Nat × Nat) (c : Chip) : (issueRd t l c).plane = c.plane := by
  simp [issueRd, *, forEach_plane, plane_mk, plane_fold]
@[simp] theorem issueWr_plane (t : Txn) (ls : List (Nat × Nat)) (c : Chip) : (issueWr t ls c).plane = c.plane := by
  simp [issueWr, *, forEach_plane, plane_mk, plane_fold]
@[simp] theorem gatherMark_plane (p : Nat) (tile : Nat) (rd : Nat) (wr : Nat) (c : Chip) :
    (gatherMark p tile rd wr c).plane = c.plane := by
  unfold gatherMark; (try dsimp only) <;> (repeat' split) <;> simp [*, forEach_plane, plane_mk, plane_fold]
@[simp] theorem remoteGo_plane (t : Txn) (p : Nat) (write : Bool) (c : Chip) :
    (remoteGo t p write c).plane = c.plane := by
  simp [remoteGo, *, forEach_plane, plane_mk, plane_fold]
@[simp] theorem routeLookup_plane (t : Txn) (c : Chip) : (routeLookup t c).plane = c.plane := by
  simp [routeLookup]
@[simp] theorem routeMiss_plane (t : Txn) (c : Chip) : (routeMiss t c).plane = c.plane := by
  simp [routeMiss]
@[simp] theorem markFor_plane (t : Txn) (c : Chip) : (markFor t c).plane = c.plane := by
  unfold markFor; split <;> simp
@[simp] theorem refetchEntry_plane (t : Nat) (e : Entry) (c : Chip) : (refetchEntry t e c).plane = c.plane := by
  unfold refetchEntry; (try dsimp only) <;> (repeat' split) <;> simp [*, forEach_plane, plane_mk, plane_fold]
@[simp] theorem mapEcc_plane (t : Txn) (c : Chip) : (mapEcc t c).plane = c.plane := by
  unfold mapEcc; (try dsimp only) <;> (repeat' split) <;> simp [*, forEach_plane, plane_mk, plane_fold]
@[simp] theorem waitLast_plane (t : Txn) (st : Stage) (c : Chip) : (waitLast t st c).plane = c.plane := by
  unfold waitLast; split <;> simp
@[simp] theorem holdFirst_plane (t : Txn) (c : Chip) : (holdFirst t c).plane = c.plane := by
  simp [holdFirst, *, forEach_plane, plane_mk, plane_fold]
@[simp] theorem setRakSlot_plane (k : Nat) (s : RakSt) (c : Chip) : (setRakSlot k s c).plane = c.plane := by
  simp [setRakSlot, *, forEach_plane, plane_mk, plane_fold]
@[simp] theorem failDest_plane (tile : Nat) (c : Chip) : (failDest tile c).plane = c.plane := by
  unfold failDest; (try dsimp only) <;> (repeat' split) <;> simp [*, forEach_plane, plane_mk, plane_fold]
@[simp] theorem writeMove_plane (t : Txn) (e : Entry) (c : Chip) : (writeMove t e c).plane = c.plane := by
  unfold writeMove; (try dsimp only) <;> (repeat' split) <;> simp [*, forEach_plane, plane_mk, plane_fold]
@[simp] theorem writeAt_plane (t : Txn) (e : Entry) (c : Chip) : (writeAt t e c).plane = c.plane := by
  unfold writeAt; (try dsimp only) <;> (repeat' split) <;> simp [*, forEach_plane, plane_mk, plane_fold]
@[simp] theorem homeWrite_plane (t : Txn) (c : Chip) : (homeWrite t c).plane = c.plane := by
  unfold homeWrite; (try dsimp only) <;> (repeat' split) <;> simp [*, forEach_plane, plane_mk, plane_fold]
@[simp] theorem readReturned_plane (t : Txn) (d : Line) (poison : Bool) (c : Chip) :
    (readReturned t d poison c).plane = c.plane := by
  unfold readReturned; (try dsimp only) <;> (repeat' split) <;> simp [*, forEach_plane, plane_mk, plane_fold]
@[simp] theorem readAt_plane (t : Txn) (e : Entry) (c : Chip) : (readAt t e c).plane = c.plane := by
  unfold readAt; (try dsimp only) <;> (repeat' split) <;> simp [*, forEach_plane, plane_mk, plane_fold]
@[simp] theorem homeRead_plane (t : Txn) (c : Chip) : (homeRead t c).plane = c.plane := by
  unfold homeRead; (try dsimp only) <;> (repeat' split) <;> simp [*, forEach_plane, plane_mk, plane_fold]
@[simp] theorem homeGo_plane (t : Txn) (c : Chip) : (homeGo t c).plane = c.plane := by
  unfold homeGo; (try dsimp only) <;> (repeat' split) <;> simp [*, forEach_plane, plane_mk, plane_fold]
@[simp] theorem carDefect_plane (w : Nat) (c : Chip) : (carDefect w c).plane = c.plane := by
  unfold carDefect; (try dsimp only) <;> (repeat' split) <;> simp [*, forEach_plane, plane_mk, plane_fold]
@[simp] theorem queueMend_plane (line : Nat) (bad : Bool) (port : Nat) (c : Chip) :
    (queueMend line bad port c).plane = c.plane := by
  unfold queueMend; (try dsimp only) <;> (repeat' split) <;> simp [*, forEach_plane, plane_mk, plane_fold]
@[simp] theorem retryRead_plane (t : Txn) (c : Chip) : (retryRead t c).plane = c.plane := by
  unfold retryRead; (try dsimp only) <;> (repeat' split) <;> simp [*, forEach_plane, plane_mk, plane_fold]
@[simp] theorem noteMend_plane (t : Txn) (c : Chip) : (noteMend t c).plane = c.plane := by
  unfold noteMend; split <;> simp
@[simp] theorem readLegEnd_plane (t : Txn) (g : Leg) (st : LegSt) (d : Line) (c : Chip) :
    (readLegEnd t g st d c).plane = c.plane := by
  unfold readLegEnd; (try dsimp only) <;> (repeat' split) <;> simp [*, forEach_plane, plane_mk, plane_fold]
@[simp] theorem writeResult_plane (t : Txn) (link : Bool) (c : Chip) : (writeResult t link c).2.plane = c.plane := by
  unfold writeResult; (try dsimp only) <;> (repeat' split) <;> simp [*, forEach_plane, plane_mk, plane_fold]
@[simp] theorem writeLegEnd_plane (t : Txn) (g : Leg) (link : Bool) (c : Chip) :
    (writeLegEnd t g link c).plane = c.plane := by
  unfold writeLegEnd; (try dsimp only) <;> (repeat' split) <;> simp [*, forEach_plane, plane_mk, plane_fold]
@[simp] theorem legEnd_plane (t : Txn) (g : Leg) (st : LegSt) (link : Bool) (d : Line) (c : Chip) :
    (legEnd t g st link d c).plane = c.plane := by
  unfold legEnd; split <;> simp
@[simp] theorem deviceAnswer_plane (dport : Nat) (dtag : Nat) (st : DevStatus) (d : Line) (c : Chip) :
    (deviceAnswer dport dtag st d c).plane = c.plane := by
  unfold deviceAnswer; split <;> simp
@[simp] theorem startTxn_plane (t : Txn) (f : Txn → Chip → Chip) (c : Chip) (hf : ∀ x0 c, (f x0 c).plane = c.plane) :
    (startTxn t f c).plane = c.plane := by
  simp [startTxn, *, forEach_plane, plane_mk, plane_fold]
@[simp] theorem ownerWrite_plane (t : Txn) (c : Chip) : (ownerWrite t c).plane = c.plane := by
  unfold ownerWrite; split <;> simp
@[simp] theorem ownerLost_plane (h : Nat) (l : Nat) (c : Chip) : (ownerLost h l c).plane = c.plane := by
  simp [ownerLost]
@[simp] theorem scrubEntry_plane (h : Nat) (l : Nat) (e : RollEntry) (c : Chip) :
    (scrubEntry h l e c).plane = c.plane := by
  unfold scrubEntry; (try dsimp only) <;> (repeat' split) <;> simp [*, forEach_plane, plane_mk, plane_fold]
@[simp] theorem departHost_plane (h : Nat) (met : Bool) (c : Chip) : (departHost h met c).plane = c.plane := by
  unfold departHost; (try dsimp only) <;> (repeat' split) <;> simp [*, forEach_plane, plane_mk, plane_fold]
@[simp] theorem departFace_plane (p : Nat) (met : Bool) (c : Chip) : (departFace p met c).plane = c.plane := by
  unfold departFace; split <;> simp
@[simp] theorem notePark_plane (t : Txn) (c : Chip) : (notePark t c).plane = c.plane := by
  simp [notePark]
@[simp] theorem waitLock_plane (t : Txn) (c : Chip) : (waitLock t c).plane = c.plane := by
  unfold waitLock; split <;> simp
@[simp] theorem applyAnswer_plane (s : Snoop) (c : Chip) : (applyAnswer s c).plane = c.plane := by
  unfold applyAnswer; (try dsimp only) <;> (repeat' split) <;> simp [*, forEach_plane, plane_mk, plane_fold]
@[simp] theorem listHost_plane (t : Txn) (f : Nat → Nat → Chip → Chip) (c : Chip) (hf : ∀ x0 x1 c, (f x0 x1 c).plane = c.plane) :
    (listHost t f c).plane = c.plane := by
  unfold listHost; (try dsimp only) <;> (repeat' split) <;> simp [*, forEach_plane, plane_mk, plane_fold]
@[simp] theorem entryAfter_plane (t : Txn) (c : Chip) : (entryAfter t c).plane = c.plane := by
  unfold entryAfter; (try dsimp only) <;> (repeat' split) <;> simp [*, forEach_plane, plane_mk, plane_fold]
@[simp] theorem closeSnoop_plane (t : Txn) (c : Chip) : (closeSnoop t c).plane = c.plane := by
  simp [closeSnoop, *, forEach_plane, plane_mk, plane_fold]
@[simp] theorem openSnoop_plane (t : Txn) (typ : SnpType) (h : Nat) (c : Chip) :
    (openSnoop t typ h c).plane = c.plane := by
  unfold openSnoop; (try dsimp only) <;> (repeat' split) <;> simp [*, forEach_plane, plane_mk, plane_fold]
@[simp] theorem sendSnoop_plane (s : Snoop) (c : Chip) : (sendSnoop s c).plane = c.plane := by
  simp [sendSnoop]
@[simp] theorem injectWaiting_plane (l : List Pkt) (c : Chip) : (injectWaiting l c).plane = c.plane := by
  induction l generalizing c with
  | nil => rfl
  | cons x xs ih => unfold injectWaiting; split <;> simp [ih] <;> rfl
@[simp] theorem injectMore_plane (c : Chip) : (injectMore c).plane = c.plane := by
  simp [injectMore]
@[simp] theorem injectMulticast_plane (t : Txn) (ss : List Snoop) (c : Chip) :
    (injectMulticast t ss c).plane = c.plane := by
  unfold injectMulticast; (try dsimp only) <;> (repeat' split) <;> simp [*, forEach_plane, plane_mk, plane_fold]
@[simp] theorem launchSnoops_plane (t : Txn) (c : Chip) : (launchSnoops t c).plane = c.plane := by
  unfold launchSnoops; split <;> simp
@[simp] theorem snoopHosts_plane (t : Txn) (typ : SnpType) (hs : List Nat) (onClose : Txn → Chip → Chip) (c : Chip) (honClose : ∀ x0 c, (onClose x0 c).plane = c.plane) :
    (snoopHosts t typ hs onClose c).plane = c.plane := by
  unfold snoopHosts; (try dsimp only) <;> (repeat' split) <;> simp [*, forEach_plane, plane_mk, plane_fold]
@[simp] theorem serveEntry_plane (t : Txn) (c : Chip) : (serveEntry t c).plane = c.plane := by
  unfold serveEntry; split <;> simp
@[simp] theorem closeEvict_plane (t : Txn) (c : Chip) : (closeEvict t c).plane = c.plane := by
  unfold closeEvict; (try dsimp only) <;> (repeat' split) <;> simp [*, forEach_plane, plane_mk, plane_fold]
@[simp] theorem evictFor_plane (t : Txn) (c : Chip) : (evictFor t c).plane = c.plane := by
  unfold evictFor; (try dsimp only) <;> (repeat' split) <;> simp [*, forEach_plane, plane_mk, plane_fold]
@[simp] theorem broadcastGo_plane (u : Txn) (c : Chip) : (broadcastGo u c).plane = c.plane := by
  unfold broadcastGo; split <;> simp
@[simp] theorem startBroadcast_plane (l : Nat) (c : Chip) : (startBroadcast l c).plane = c.plane := by
  simp [startBroadcast]
@[simp] theorem broadcastFor_plane (t : Txn) (c : Chip) : (broadcastFor t c).plane = c.plane := by
  simp [broadcastFor]
@[simp] theorem rollLook_plane (t : Txn) (c : Chip) : (rollLook t c).plane = c.plane := by
  simp [rollLook]
@[simp] theorem rollDecide_plane (t : Txn) (c : Chip) : (rollDecide t c).plane = c.plane := by
  unfold rollDecide; (try dsimp only) <;> (repeat' split) <;> simp [*, forEach_plane, plane_mk, plane_fold]
@[simp] theorem rollHolder_plane (t : Txn) (h : Nat) (c : Chip) : (rollHolder t h c).plane = c.plane := by
  unfold rollHolder; (try dsimp only) <;> (repeat' split) <;> simp [*, forEach_plane, plane_mk, plane_fold]
@[simp] theorem rollGo_plane (t : Txn) (c : Chip) : (rollGo t c).plane = c.plane := by
  unfold rollGo; (try dsimp only) <;> (repeat' split) <;> simp [*, forEach_plane, plane_mk, plane_fold]
@[simp] theorem requestCredits_plane (p : Nat) (write : Bool) (c : Chip) :
    (requestCredits p write c).plane = c.plane := by
  unfold requestCredits; split <;> simp
@[simp] theorem ioCredits_plane (p : Nat) (write : Bool) (c : Chip) : (ioCredits p write c).plane = c.plane := by
  unfold ioCredits; split <;> simp
@[simp] theorem takenCredits_plane (p : Nat) (i : Nat) (write : Bool) (c : Chip) :
    (takenCredits p i write c).plane = c.plane := by
  unfold takenCredits; (try dsimp only) <;> (repeat' split) <;> simp [*, forEach_plane, plane_mk, plane_fold]
@[simp] theorem goneAnswer_plane (t : Txn) (c : Chip) : (goneAnswer t c).plane = c.plane := by
  simp [goneAnswer]
@[simp] theorem stage6_plane (t : Txn) (c : Chip) : (stage6 t c).plane = c.plane := by
  unfold stage6; (try dsimp only) <;> (repeat' split) <;> simp [*, forEach_plane, plane_mk, plane_fold]
@[simp] theorem setEntryOf_plane (e : SlateEntry) (c : Chip) : (setEntryOf e c).plane = c.plane := by
  simp [setEntryOf, *, forEach_plane, plane_mk, plane_fold]
@[simp] theorem shedSlate_plane (p : Nat) (c : Chip) : (shedSlate p c).plane = c.plane := by
  simp [shedSlate, *, forEach_plane, plane_mk, plane_fold]
@[simp] theorem startDrain_plane (trigger : Nat) (e : SlateEntry) (c : Chip) :
    (startDrain trigger e c).plane = c.plane := by
  unfold startDrain; (try dsimp only) <;> (repeat' split) <;> simp [*, forEach_plane, plane_mk, plane_fold]
@[simp] theorem drainListed_plane (trigger : Nat) (ids : List Nat) (c : Chip) :
    (drainListed trigger ids c).plane = c.plane := by
  unfold drainListed; (try dsimp only) <;> (repeat' split) <;> (try simp [*, forEach_plane, plane_mk, plane_fold]) <;>
    (try (refine (forEach_plane _ _ _ (fun _ _ => ?_)).trans ?_ <;> (try dsimp only) <;> (repeat' split) <;> (try simp [*, forEach_plane, plane_mk, plane_fold]) <;>
      (repeat' split) <;> (try simp [*, forEach_plane, plane_mk, plane_fold])))
@[simp] theorem pressureDrain_plane (p : Nat) (c : Chip) : (pressureDrain p c).plane = c.plane := by
  unfold pressureDrain; split <;> simp
@[simp] theorem drainEntry_plane (trigger : Nat) (e : SlateEntry) (c : Chip) :
    (drainEntry trigger e c).plane = c.plane := by
  simp [drainEntry]
@[simp] theorem drainIds_plane (trigger : Nat) (ids : List Nat) (c : Chip) :
    (drainIds trigger ids c).plane = c.plane := by
  simp [drainIds, *, forEach_plane, plane_mk, plane_fold]
@[simp] theorem drainWhere_plane (trigger : Nat) (p : SlateEntry → Bool) (c : Chip) :
    (drainWhere trigger p c).plane = c.plane := by
  simp [drainWhere]
@[simp] theorem waitDrain_plane (p : Nat) (c : Chip) : (waitDrain p c).plane = c.plane := by
  unfold waitDrain; (try dsimp only) <;> (repeat' split) <;> simp [*, forEach_plane, plane_mk, plane_fold]
@[simp] theorem mergeDone_plane (t : Txn) (c : Chip) : (mergeDone t c).plane = c.plane := by
  simp [mergeDone]
@[simp] theorem mergeInto_plane (t : Txn) (e : SlateEntry) (c : Chip) : (mergeInto t e c).plane = c.plane := by
  simp [mergeInto]
@[simp] theorem takeEntry_plane (t : Txn) (c : Chip) : (takeEntry t c).plane = c.plane := by
  simp [takeEntry, *, forEach_plane, plane_mk, plane_fold]
@[simp] theorem waitIngress_plane (t : Txn) (c : Chip) : (waitIngress t c).plane = c.plane := by
  simp [waitIngress]
@[simp] theorem merge_plane (t : Txn) (c : Chip) : (merge t c).plane = c.plane := by
  unfold merge; (try dsimp only) <;> (repeat' split) <;> simp [*, forEach_plane, plane_mk, plane_fold]
@[simp] theorem freeEntry_plane (e : SlateEntry) (c : Chip) : (freeEntry e c).plane = c.plane := by
  unfold freeEntry; (try dsimp only) <;> (repeat' split) <;> simp [*, forEach_plane, plane_mk, plane_fold]
@[simp] theorem addLost_plane (p : Nat) (l : Nat) (c : Chip) : (addLost p l c).plane = c.plane := by
  unfold addLost; (try dsimp only) <;> (repeat' split) <;> simp [*, forEach_plane, plane_mk, plane_fold]
@[simp] theorem declareLost_plane (cause : Nat) (e : SlateEntry) (c : Chip) :
    (declareLost cause e c).plane = c.plane := by
  unfold declareLost; (try dsimp only) <;> (repeat' split) <;> simp [*, forEach_plane, plane_mk, plane_fold]
@[simp] theorem withEntryEcc_plane (ecc : Nat) (e : SlateEntry) (f : Chip → Chip) (c : Chip) (hf : ∀  c, (f  c).plane = c.plane) :
    (withEntryEcc ecc e f c).plane = c.plane := by
  unfold withEntryEcc; (try dsimp only) <;> (repeat' split) <;> simp [*, forEach_plane, plane_mk, plane_fold]
@[simp] theorem holdForSlate_plane (t : Txn) (c : Chip) : (holdForSlate t c).plane = c.plane := by
  unfold holdForSlate; (try dsimp only) <;> (repeat' split) <;> simp [*, forEach_plane, plane_mk, plane_fold]
@[simp] theorem readSlate_plane (t : Txn) (c : Chip) : (readSlate t c).plane = c.plane := by
  unfold readSlate; split <;> simp
@[simp] theorem regionServe_plane (t : Txn) (c : Chip) : (regionServe t c).plane = c.plane := by
  unfold regionServe; (try dsimp only) <;> (repeat' split) <;> simp [*, forEach_plane, plane_mk, plane_fold]
@[simp] theorem regionGo_plane (t : Txn) (c : Chip) : (regionGo t c).plane = c.plane := by
  unfold regionGo; (try dsimp only) <;> (repeat' split) <;> simp [*, forEach_plane, plane_mk, plane_fold]
@[simp] theorem ingressNext_plane (p : Nat) (c : Chip) : (ingressNext p c).plane = c.plane := by
  unfold ingressNext; split <;> simp
@[simp] theorem discardTxn_plane (cause : Nat) (t : Txn) (c : Chip) : (discardTxn cause t c).plane = c.plane := by
  simp [discardTxn]
@[simp] theorem admitNow_plane (t : Txn) (c : Chip) : (admitNow t c).plane = c.plane := by
  simp [admitNow]
@[simp] theorem shapeTxn_plane (t : Txn) (c : Chip) : (shapeTxn t c).plane = c.plane := by
  unfold shapeTxn; (try dsimp only) <;> (repeat' split) <;> simp [*, forEach_plane, plane_mk, plane_fold]
@[simp] theorem policeTxn_plane (t : Txn) (c : Chip) : (policeTxn t c).plane = c.plane := by
  unfold policeTxn; (try dsimp only) <;> (repeat' split) <;> simp [*, forEach_plane, plane_mk, plane_fold]
@[simp] theorem missAnswer_plane (k : TxnKind) (p : Nat) (tag : Nat) (dpa : Nat) (c : Chip) :
    (missAnswer k p tag dpa c).plane = c.plane := by
  simp [missAnswer]
@[simp] theorem lookupFor_plane (p : Nat) (dpa : Nat) (ecc : Ecc) (c : Chip) :
    (lookupFor p dpa ecc c).plane = c.plane := by
  simp [lookupFor]
@[simp] theorem countAttributed_plane (k : TxnKind) (x : Nat) (c : Chip) :
    (countAttributed k x c).plane = c.plane := by
  unfold countAttributed; split <;> simp
@[simp] theorem memGo_plane (k : TxnKind) (p : Nat) (dpa : Nat) (tag : Nat) (mv : MetaVal) (ecc : Ecc) (f : Txn → Txn) (c : Chip) :
    (memGo k p dpa tag mv ecc f c).plane = c.plane := by
  unfold memGo; (try dsimp only) <;> (repeat' split) <;> simp [*, forEach_plane, plane_mk, plane_fold]
@[simp] theorem shaperHead_plane (x : Nat) (free : Bool) (c : Chip) : (shaperHead x free c).plane = c.plane := by
  unfold shaperHead; (try dsimp only) <;> (repeat' split) <;> simp [*, forEach_plane, plane_mk, plane_fold]
@[simp] theorem shaperFlush_plane (x : Nat) (free : Bool) (c : Chip) : (shaperFlush x free c).plane = c.plane := by
  simp [shaperFlush, *, forEach_plane, plane_mk, plane_fold]
@[simp] theorem endDrain_plane (t : Txn) (e : SlateEntry) (c : Chip) : (endDrain t e c).plane = c.plane := by
  unfold endDrain; split <;> simp
@[simp] theorem bellAnswer_plane (x : Nat) (b : Bell) (v : Nat) (c : Chip) :
    (bellAnswer x b v c).plane = c.plane := by
  unfold bellAnswer; (try dsimp only) <;> (repeat' split) <;> simp [*, forEach_plane, plane_mk, plane_fold]
@[simp] theorem bellFinish_plane (x : Nat) (c : Chip) : (bellFinish x c).plane = c.plane := by
  unfold bellFinish; (try dsimp only) <;> (repeat' split) <;> simp [*, forEach_plane, plane_mk, plane_fold]
@[simp] theorem jobEnd_plane (x : Nat) (status : Nat) (c : Chip) : (jobEnd x status c).plane = c.plane := by
  simp [jobEnd, *, forEach_plane, plane_mk, plane_fold]
@[simp] theorem jobChunkEnds_plane (x : Nat) (c : Chip) : (jobChunkEnds x c).plane = c.plane := by
  unfold jobChunkEnds; (try dsimp only) <;> (repeat' split) <;> simp [*, forEach_plane, plane_mk, plane_fold]
@[simp] theorem resumeTxn_plane (i : Nat) (c : Chip) : (resumeTxn i c).plane = c.plane := by
  unfold resumeTxn; (try dsimp only) <;> (repeat' split) <;> simp [*, forEach_plane, plane_mk, plane_fold]
@[simp] theorem settleOnce_plane (c : Chip) : (settleOnce c).plane = c.plane := by
  simp [settleOnce, *, forEach_plane, plane_mk, plane_fold]
@[simp] theorem settle_plane (c : Chip) : (settle c).plane = c.plane := by
  simp [settle, *, forEach_plane, plane_mk, plane_fold]
@[simp] theorem resolveLeg_plane (p : Nat) (final : Bool) (dtag : Nat) (c : Chip) :
    (resolveLeg p final dtag c).plane = c.plane := by
  unfold resolveLeg; (try dsimp only) <;> (repeat' split) <;> simp [*, forEach_plane, plane_mk, plane_fold]
@[simp] theorem linkLosses_plane (c : Chip) : (linkLosses c).plane = c.plane := by
  unfold linkLosses; (try dsimp only) <;> (repeat' split) <;> (try simp [*, forEach_plane, plane_mk, plane_fold]) <;>
    (try (refine (forEach_plane _ _ _ (fun _ _ => ?_)).trans ?_ <;> (try dsimp only) <;> (repeat' split) <;> (try simp [*, forEach_plane, plane_mk, plane_fold]) <;>
      (repeat' split) <;> (try simp [*, forEach_plane, plane_mk, plane_fold])))
@[simp] theorem deviceGone_plane (p : Nat) (final : Bool) (c : Chip) : (deviceGone p final c).plane = c.plane := by
  simp [deviceGone, *, forEach_plane, plane_mk, plane_fold]
@[simp] theorem publishUsed_plane (c : Chip) : (publishUsed c).plane = c.plane := by
  unfold publishUsed; (try dsimp only) <;> (repeat' split) <;> simp [*, forEach_plane, plane_mk, plane_fold]
@[simp] theorem setI_plane (i : Nat) (m : Fld) (p : Fld) (v : Nat) (c : Chip) :
    (setI i m p v c).plane = c.plane := by
  unfold setI; split <;> simp
@[simp] theorem mapEnd_plane (i : Nat) (status : Nat) (c : Chip) : (mapEnd i status c).plane = c.plane := by
  unfold mapEnd; split <;> simp
@[simp] theorem ringPush_plane (k : Nat) (t : Nat) (w : Nat) (c : Chip) : (ringPush k t w c).plane = c.plane := by
  simp [ringPush, *, forEach_plane, plane_mk, plane_fold]
@[simp] theorem pushReleases_plane (t : Nat) (ls : List Nat) (c : Chip) : (pushReleases t ls c).plane = c.plane := by
  simp [pushReleases, *, forEach_plane, plane_mk, plane_fold]
@[simp] theorem ringWait_plane (w : RingWait) (front : Bool) (c : Chip) : (ringWait w front c).plane = c.plane := by
  simp [ringWait, *, forEach_plane, plane_mk, plane_fold]
@[simp] theorem ringForget_plane (t : Nat) (c : Chip) : (ringForget t c).plane = c.plane := by
  simp [ringForget, *, forEach_plane, plane_mk, plane_fold]
@[simp] theorem foundOrphan_plane (t : Nat) (c : Chip) : (foundOrphan t c).plane = c.plane := by
  unfold foundOrphan; (try dsimp only) <;> (repeat' split) <;> simp [*, forEach_plane, plane_mk, plane_fold]
@[simp] theorem fetchLine_plane (i : Nat) (l : Nat) (c : Chip) : (fetchLine i l c).plane = c.plane := by
  simp [fetchLine, *, forEach_plane, plane_mk, plane_fold]
@[simp] theorem fetchFor_plane (t : Nat) (rd : CopyReads) (c : Chip) : (fetchFor t rd c).plane = c.plane := by
  unfold fetchFor; (try dsimp only) <;> (repeat' split) <;> simp [*, forEach_plane, plane_mk, plane_fold]
@[simp] theorem resumeStage_plane (st : Stage) (t : Nat) (c : Chip) : (resumeStage st t c).plane = c.plane := by
  unfold resumeStage; (try dsimp only) <;> (repeat' split) <;> (try simp [*, forEach_plane, plane_mk, plane_fold]) <;>
    (try (refine (forEach_plane _ _ _ (fun _ _ => ?_)).trans ?_ <;> (try dsimp only) <;> (repeat' split) <;> (try simp [*, forEach_plane, plane_mk, plane_fold]) <;>
      (repeat' split) <;> (try simp [*, forEach_plane, plane_mk, plane_fold])))
@[simp] theorem resumeHeld_plane (t : Nat) (c : Chip) : (resumeHeld t c).plane = c.plane := by
  simp [resumeHeld]
@[simp] theorem dropSlot_plane (k : Nat) (c : Chip) : (dropSlot k c).plane = c.plane := by
  simp [dropSlot, *, forEach_plane, plane_mk, plane_fold]
@[simp] theorem forgetSecond_plane (t : Nat) (c : Chip) : (forgetSecond t c).plane = c.plane := by
  simp [forgetSecond, *, forEach_plane, plane_mk, plane_fold]
@[simp] theorem stopMove_plane (t : Nat) (c0 : Chip) : (stopMove t c0).plane = c0.plane := by
  unfold stopMove; (try dsimp only) <;> (repeat' split) <;> simp [*, forEach_plane, plane_mk, plane_fold]
@[simp] theorem forgetBefore_plane (t : Nat) (c : Chip) : (forgetBefore t c).plane = c.plane := by
  simp [forgetBefore, *, forEach_plane, plane_mk, plane_fold]
@[simp] theorem flipSplit_plane (t : Nat) (e : Entry) (drop : Bool) (c : Chip) :
    (flipSplit t e drop c).plane = c.plane := by
  unfold flipSplit; (try dsimp only) <;> (repeat' split) <;> simp [*, forEach_plane, plane_mk, plane_fold]
@[simp] theorem flipMends_plane (t : Nat) (e : Entry) (c : Chip) : (flipMends t e c).plane = c.plane := by
  unfold flipMends; (try dsimp only) <;> (repeat' split) <;> simp [*, forEach_plane, plane_mk, plane_fold]
@[simp] theorem endMove_plane (t : Nat) (c : Chip) : (endMove t c).plane = c.plane := by
  unfold endMove; (try dsimp only) <;> (repeat' split) <;> simp [*, forEach_plane, plane_mk, plane_fold]
@[simp] theorem applyAbort_plane (t : Nat) (cw : CopyWrites) (release : Bool) (c : Chip) :
    (applyAbort t cw release c).plane = c.plane := by
  simp [applyAbort]
@[simp] theorem applyFlip_plane (t : Nat) (cw : CopyWrites) (drop : Bool) (c : Chip) :
    (applyFlip t cw drop c).plane = c.plane := by
  unfold applyFlip; (try dsimp only) <;> (repeat' split) <;> simp [*, forEach_plane, plane_mk, plane_fold]
@[simp] theorem askFlip_plane (t : Nat) (cw : CopyWrites) (drop : Bool) (front : Bool) (c : Chip) :
    (askFlip t cw drop front c).plane = c.plane := by
  unfold askFlip; split <;> simp
@[simp] theorem askAbort_plane (t : Nat) (cw : CopyWrites) (front : Bool) (c : Chip) :
    (askAbort t cw front c).plane = c.plane := by
  unfold askAbort; split <;> simp
@[simp] theorem afterCmd_plane (i : Nat) (op : Nat) (t : Nat) (cw : CopyWrites) (e : Entry) (front : Bool) (c : Chip) :
    (afterCmd i op t cw e front c).plane = c.plane := by
  unfold afterCmd; (try dsimp only) <;> (repeat' split) <;> simp [*, forEach_plane, plane_mk, plane_fold]
@[simp] theorem applyCmd_plane (i : Nat) (cw : CopyWrites) (front : Bool) (c : Chip) :
    (applyCmd i cw front c).plane = c.plane := by
  unfold applyCmd; (try dsimp only) <;> (repeat' split) <;> simp [*, forEach_plane, plane_mk, plane_fold]
@[simp] theorem setE_plane (i : Nat) (k : Nat) (v : Nat) (c : Chip) : (setE i k v c).plane = c.plane := by
  unfold setE; split <;> simp
@[simp] theorem readEntry_plane (i : Nat) (c : Chip) : (readEntry i c).plane = c.plane := by
  unfold readEntry; (try dsimp only) <;> (repeat' split) <;> (try simp [*, forEach_plane, plane_mk, plane_fold]) <;>
    (try (refine (forEach_plane _ _ _ (fun _ _ => ?_)).trans ?_ <;> (try dsimp only) <;> (repeat' split) <;> (try simp [*, forEach_plane, plane_mk, plane_fold]) <;>
      (repeat' split) <;> (try simp [*, forEach_plane, plane_mk, plane_fold])))
@[simp] theorem decideCmd_plane (i : Nat) (cw : CopyWrites) (front : Bool) (c0 : Chip) :
    (decideCmd i cw front c0).plane = c0.plane := by
  unfold decideCmd; (try dsimp only) <;> (repeat' split) <;> simp [*, forEach_plane, plane_mk, plane_fold]
@[simp] theorem retryMoves_plane (c : Chip) : (retryMoves c).plane = c.plane := by
  unfold retryMoves; (try dsimp only) <;> (repeat' split) <;> (try simp [*, forEach_plane, plane_mk, plane_fold]) <;>
    (try (refine (forEach_plane _ _ _ (fun _ _ => ?_)).trans ?_ <;> (try dsimp only) <;> (repeat' split) <;> (try simp [*, forEach_plane, plane_mk, plane_fold]) <;>
      (repeat' split) <;> (try simp [*, forEach_plane, plane_mk, plane_fold])))
@[simp] theorem runCmd_plane (i : Nat) (op : Nat) (cw : CopyWrites) (c : Chip) :
    (runCmd i op cw c).plane = c.plane := by
  simp [runCmd]
@[simp] theorem mapCmd_plane (i : MapIface) (op : Nat) (cw : CopyWrites) (c : Chip) :
    (mapCmd i op cw c).plane = c.plane := by
  unfold mapCmd; split <;> simp
@[simp] theorem issueMove_plane (t : Nat) (a : Nat) (b : Nat) (reason : Nat) (mslot : Bool) (cw : CopyWrites) (c : Chip) :
    (issueMove t a b reason mslot cw c).plane = c.plane := by
  unfold issueMove; (try dsimp only) <;> (repeat' split) <;> simp [*, forEach_plane, plane_mk, plane_fold]
@[simp] theorem issueHeatMove_plane (t : Nat) (a : Nat) (mslot : Bool) (cw : CopyWrites) (c : Chip) :
    (issueHeatMove t a mslot cw c).plane = c.plane := by
  simp [issueHeatMove, *, forEach_plane, plane_mk, plane_fold]
@[simp] theorem issueSecond_plane (m : SecondMove) (c : Chip) : (issueSecond m c).plane = c.plane := by
  unfold issueSecond; split <;> simp
@[simp] theorem issueSeconds_plane (c : Chip) : (issueSeconds c).plane = c.plane := by
  simp [issueSeconds, *, forEach_plane, plane_mk, plane_fold]
@[simp] theorem issueCmd_plane (op : Nat) (t : Nat) (a : Nat) (b : Nat) (twin : Bool) (cw : CopyWrites) (c : Chip) :
    (issueCmd op t a b twin cw c).plane = c.plane := by
  unfold issueCmd; (try dsimp only) <;> (repeat' split) <;> simp [*, forEach_plane, plane_mk, plane_fold]
@[simp] theorem pairMove_plane (t : Nat) (w : Nat) (cw : CopyWrites) (c : Chip) :
    (pairMove t w cw c).plane = c.plane := by
  unfold pairMove; (try dsimp only) <;> (repeat' split) <;> simp [*, forEach_plane, plane_mk, plane_fold]
@[simp] theorem issueHeat_plane (ps : List MovePick) (t : Nat) (pan : Nat) (c : Chip) :
    (issueHeat ps t pan c).plane = c.plane := by
  unfold issueHeat; (try dsimp only) <;> (repeat' split) <;> simp [*, forEach_plane, plane_mk, plane_fold]
@[simp] theorem heatMove_plane (ps : List MovePick) (dest : Chip → Option Nat) (t : Nat) (c : Chip) :
    (heatMove ps dest t c).plane = c.plane := by
  unfold heatMove; split <;> simp
@[simp] theorem issueTwin_plane (ps : List MovePick) (t : Nat) (c : Chip) : (issueTwin ps t c).plane = c.plane := by
  unfold issueTwin; (try dsimp only) <;> (repeat' split) <;> simp [*, forEach_plane, plane_mk, plane_fold]
@[simp] theorem twinMoves_plane (ps : List MovePick) (c : Chip) : (twinMoves ps c).plane = c.plane := by
  simp [twinMoves, *, forEach_plane, plane_mk, plane_fold]
@[simp] theorem misplacedMoves_plane (ps : List MovePick) (l : List Nat) (c : Chip) :
    (misplacedMoves ps l c).plane = c.plane := by
  simp [misplacedMoves, *, forEach_plane, plane_mk, plane_fold]
@[simp] theorem heatMoves_plane (ps : List MovePick) (l : List Cand) (c : Chip) :
    (heatMoves ps l c).plane = c.plane := by
  simp [heatMoves, *, forEach_plane, plane_mk, plane_fold]
@[simp] theorem placeTile_plane (t : Nat) (ch : PlaceChoice) (c : Chip) : (placeTile t ch c).plane = c.plane := by
  unfold placeTile; (try dsimp only) <;> (repeat' split) <;> simp [*, forEach_plane, plane_mk, plane_fold]
@[simp] theorem placesGo_plane (c : Chip) : (placesGo c).plane = c.plane := by
  simp [placesGo, *, forEach_plane, plane_mk, plane_fold]
@[simp] theorem prefectGo_plane (c : Chip) : (prefectGo c).plane = c.plane := by
  unfold prefectGo; (try dsimp only) <;> (repeat' split) <;> simp [*, forEach_plane, plane_mk, plane_fold]
@[simp] theorem decideMoves_plane (ps : List MovePick) (c : Chip) : (decideMoves ps c).plane = c.plane := by
  simp [decideMoves, *, forEach_plane, plane_mk, plane_fold]
@[simp] theorem prefectsSee_plane (ps : List MovePick) (c : Chip) : (prefectsSee ps c).plane = c.plane := by
  unfold prefectsSee; (try dsimp only) <;> (repeat' split) <;> simp [*, forEach_plane, plane_mk, plane_fold]
@[simp] theorem moveEnded_plane (c : Chip) : (moveEnded c).plane = c.plane := by
  simp [moveEnded]
@[simp] theorem formsForget_plane (p : Nat → Bool) (c : Chip) : (formsForget p c).plane = c.plane := by
  simp [formsForget, *, forEach_plane, plane_mk, plane_fold]
@[simp] theorem secondHeat_plane (t : Nat) (e : Entry) (cw : CopyWrites) (c : Chip) :
    (secondHeat t e cw c).plane = c.plane := by
  unfold secondHeat; (try dsimp only) <;> (repeat' split) <;> simp [*, forEach_plane, plane_mk, plane_fold]
@[simp] theorem effMapFlip_plane (t : Nat) (cw : CopyWrites) (c : Chip) : (effMapFlip t cw c).plane = c.plane := by
  unfold effMapFlip; split <;> simp
@[simp] theorem effAbortRewrite_plane (t : Nat) (cw : CopyWrites) (c : Chip) :
    (effAbortRewrite t cw c).plane = c.plane := by
  unfold effAbortRewrite; (try dsimp only) <;> (repeat' split) <;> simp [*, forEach_plane, plane_mk, plane_fold]
@[simp] theorem loseCopy_plane (i : Nat) (c : Chip) : (loseCopy i c).plane = c.plane := by
  unfold loseCopy; (try dsimp only) <;> (repeat' split) <;> simp [*, forEach_plane, plane_mk, plane_fold]
@[simp] theorem checkCopies_plane (c : Chip) : (checkCopies c).plane = c.plane := by
  unfold checkCopies; (try dsimp only) <;> (repeat' split) <;> simp [*, forEach_plane, plane_mk, plane_fold]
@[simp] theorem startMap_plane (lost : Option Nat) (c : Chip) : (startMap lost c).plane = c.plane := by
  unfold startMap; (try dsimp only) <;> (repeat' split) <;> simp [*, forEach_plane, plane_mk, plane_fold]
@[simp] theorem runHeaders_plane (c : Chip) : (runHeaders c).plane = c.plane := by
  unfold runHeaders; split <;> simp
@[simp] theorem effMapRun_plane (c : Chip) : (effMapRun c).plane = c.plane := by
  unfold effMapRun; (try dsimp only) <;> (repeat' split) <;> simp [*, forEach_plane, plane_mk, plane_fold]
@[simp] theorem effMapInit_plane (c : Chip) : (effMapInit c).plane = c.plane := by
  unfold effMapInit; (try dsimp only) <;> (repeat' split) <;> simp [*, forEach_plane, plane_mk, plane_fold]
@[simp] theorem writeHeaders_plane (i : Nat) (gen : Nat) (c : Chip) : (writeHeaders i gen c).plane = c.plane := by
  simp [writeHeaders, *, forEach_plane, plane_mk, plane_fold]
@[simp] theorem effMapInitDone_plane (c : Chip) : (effMapInitDone c).plane = c.plane := by
  unfold effMapInitDone; split <;> simp
@[simp] theorem mirrorEntry_plane (dst : Nat) (t : Nat) (c : Chip) : (mirrorEntry dst t c).plane = c.plane := by
  simp [mirrorEntry]
@[simp] theorem effMapScrub_plane (badA : List Nat) (badB : List Nat) (c : Chip) :
    (effMapScrub badA badB c).plane = c.plane := by
  unfold effMapScrub; (try dsimp only) <;> (repeat' split) <;> simp [*, forEach_plane, plane_mk, plane_fold]
@[simp] theorem effMapRebuild_plane (c : Chip) : (effMapRebuild c).plane = c.plane := by
  unfold effMapRebuild; (try dsimp only) <;> (repeat' split) <;> simp [*, forEach_plane, plane_mk, plane_fold]
@[simp] theorem rebuildLine_plane (c : Chip) : (rebuildLine c).plane = c.plane := by
  unfold rebuildLine; (try dsimp only) <;> (repeat' split) <;> simp [*, forEach_plane, plane_mk, plane_fold]
@[simp] theorem copyRest_plane (c : Chip) : (copyRest c).plane = c.plane := by
  simp [copyRest, *, forEach_plane, plane_mk, plane_fold]
@[simp] theorem effMapRebuilt_plane (c : Chip) : (effMapRebuilt c).plane = c.plane := by
  unfold effMapRebuilt; (try dsimp only) <;> (repeat' split) <;> simp [*, forEach_plane, plane_mk, plane_fold]
@[simp] theorem effMissFill_plane (l : Nat) (rd : CopyReads) (c : Chip) : (effMissFill l rd c).plane = c.plane := by
  unfold effMissFill; (try dsimp only) <;> (repeat' split) <;> (try simp [*, forEach_plane, plane_mk, plane_fold]) <;>
    (try (refine (forEach_plane _ _ _ (fun _ _ => ?_)).trans ?_ <;> (try dsimp only) <;> (repeat' split) <;> (try simp [*, forEach_plane, plane_mk, plane_fold]) <;>
      (repeat' split) <;> (try simp [*, forEach_plane, plane_mk, plane_fold])))
@[simp] theorem effPlaceTimeout_plane (t : Nat) (c : Chip) : (effPlaceTimeout t c).plane = c.plane := by
  unfold effPlaceTimeout; (try dsimp only) <;> (repeat' split) <;> simp [*, forEach_plane, plane_mk, plane_fold]
@[simp] theorem prefectItem_plane (i : RingItem) (ch : PlaceChoice) (c : Chip) :
    (prefectItem i ch c).plane = c.plane := by
  unfold prefectItem; split <;> simp
@[simp] theorem effRingRead_plane (pa : Path) (ch : Option PlaceChoice) (c : Chip) :
    (effRingRead pa ch c).plane = c.plane := by
  unfold effRingRead; (try dsimp only) <;> (repeat' split) <;> simp [*, forEach_plane, plane_mk, plane_fold]
@[simp] theorem effRingItemPlace_plane (c : Chip) : (effRingItemPlace c).plane = c.plane := by
  unfold effRingItemPlace; (try dsimp only) <;> (repeat' split) <;> simp [*, forEach_plane, plane_mk, plane_fold]
@[simp] theorem badLines_plane (bad : List Nat) (c : Chip) : (badLines bad c).plane = c.plane := by
  simp [badLines, *, forEach_plane, plane_mk, plane_fold]
@[simp] theorem effOrphanScanDone_plane (bad : List Nat) (c : Chip) : (effOrphanScanDone bad c).plane = c.plane := by
  unfold effOrphanScanDone; (try dsimp only) <;> (repeat' split) <;> simp [*, forEach_plane, plane_mk, plane_fold]
@[simp] theorem takeJob_plane (x : Nat) (k : Nat) (c : Chip) : (takeJob x k c).plane = c.plane := by
  simp [takeJob, *, forEach_plane, plane_mk, plane_fold]
@[simp] theorem checkSlot_plane (k : Nat) (c : Chip) : (checkSlot k c).plane = c.plane := by
  unfold checkSlot; (try dsimp only) <;> (repeat' split) <;> simp [*, forEach_plane, plane_mk, plane_fold]
@[simp] theorem checkSlots_plane (c : Chip) : (checkSlots c).plane = c.plane := by
  simp [checkSlots, *, forEach_plane, plane_mk, plane_fold]
@[simp] theorem reachChanged_plane (c : Chip) : (reachChanged c).plane = c.plane := by
  simp [reachChanged]
@[simp] theorem effSlotAssign_plane (k : Nat) (claims : Nat) (c : Chip) :
    (effSlotAssign k claims c).plane = c.plane := by
  unfold effSlotAssign; (try dsimp only) <;> (repeat' split) <;> simp [*, forEach_plane, plane_mk, plane_fold]
@[simp] theorem noteRakErr_plane (cause : Nat) (t : Nat) (c : Chip) : (noteRakErr cause t c).plane = c.plane := by
  unfold noteRakErr; split <;> simp
@[simp] theorem poisonedLine_plane (t : Nat) (l : Nat) (e : Entry) (k : Nat) (s : RakSt) (c : Chip) :
    (poisonedLine t l e k s c).plane = c.plane := by
  unfold poisonedLine; (try dsimp only) <;> (repeat' split) <;> simp [*, forEach_plane, plane_mk, plane_fold]
@[simp] theorem sendCopy_plane (t : Nat) (l : Nat) (e : Entry) (s : RakSt) (d : Line) (poison : Bool) (c : Chip) :
    (sendCopy t l e s d poison c).plane = c.plane := by
  unfold sendCopy; (try dsimp only) <;> (repeat' split) <;> simp [*, forEach_plane, plane_mk, plane_fold]
@[simp] theorem effLineCopy_plane (k : Nat) (d : Line) (poison : Bool) (claims : Nat) (c : Chip) :
    (effLineCopy k d poison claims c).plane = c.plane := by
  unfold effLineCopy; (try dsimp only) <;> (repeat' split) <;> simp [*, forEach_plane, plane_mk, plane_fold]
@[simp] theorem effDstFail_plane (k : Nat) (cw : CopyWrites) (c : Chip) : (effDstFail k cw c).plane = c.plane := by
  unfold effDstFail; split <;> simp
@[simp] theorem effSrcWaitExpiry_plane (k : Nat) (cw : CopyWrites) (c : Chip) :
    (effSrcWaitExpiry k cw c).plane = c.plane := by
  unfold effSrcWaitExpiry; (try dsimp only) <;> (repeat' split) <;> simp [*, forEach_plane, plane_mk, plane_fold]
@[simp] theorem effSrcResume_plane (k : Nat) (c : Chip) : (effSrcResume k c).plane = c.plane := by
  unfold effSrcResume; (try dsimp only) <;> (repeat' split) <;> simp [*, forEach_plane, plane_mk, plane_fold]
@[simp] theorem effSlotFree_plane (k : Nat) (c : Chip) : (effSlotFree k c).plane = c.plane := by
  unfold effSlotFree; (try dsimp only) <;> (repeat' split) <;> simp [*, forEach_plane, plane_mk, plane_fold]
@[simp] theorem effJobStart_plane (t : Nat) (c : Chip) : (effJobStart t c).plane = c.plane := by
  unfold effJobStart; (try dsimp only) <;> (repeat' split) <;> simp [*, forEach_plane, plane_mk, plane_fold]
@[simp] theorem chunkLine_plane (x : Nat) (src : Nat) (dst : Nat) (copy : Bool) (eccs : List (Nat × Ecc)) (i : Nat) (c : Chip) :
    (chunkLine x src dst copy eccs i c).plane = c.plane := by
  simp [chunkLine]
@[simp] theorem effJobChunk_plane (x : Nat) (eccs : List (Nat × Ecc)) (c : Chip) :
    (effJobChunk x eccs c).plane = c.plane := by
  unfold effJobChunk; (try dsimp only) <;> (repeat' split) <;> simp [*, forEach_plane, plane_mk, plane_fold]
@[simp] theorem advanceAge_plane (d : Nat) (secs : Nat) (c : Chip) : (advanceAge d secs c).plane = c.plane := by
  unfold advanceAge; split <;> simp
@[simp] theorem setRegion_plane (p : Nat) (r : CareRegion) (c : Chip) : (setRegion p r c).plane = c.plane := by
  simp [setRegion]
@[simp] theorem writeRec_plane (d : Nat) (p : Nat) (t : Nat) (x : CareRec) (c : Chip) :
    (writeRec d p t x c).plane = c.plane := by
  simp [writeRec]
@[simp] theorem flushOldest_plane (c : Chip) : (flushOldest c).plane = c.plane := by
  unfold flushOldest; (try dsimp only) <;> (repeat' split) <;> simp [*, forEach_plane, plane_mk, plane_fold]
@[simp] theorem chargeTile_plane (w : Nat) (n : Nat) (c : Chip) : (chargeTile w n c).plane = c.plane := by
  unfold chargeTile; (try dsimp only) <;> (repeat' split) <;> simp [*, forEach_plane, plane_mk, plane_fold]
@[simp] theorem chargeMarks_plane (e : Entry) (c : Chip) : (chargeMarks e c).plane = c.plane := by
  simp [chargeMarks, *, forEach_plane, plane_mk, plane_fold]
@[simp] theorem feedRing_plane (c : Chip) : (feedRing c).plane = c.plane := by
  unfold feedRing; (try dsimp only) <;> (repeat' split) <;> simp [*, forEach_plane, plane_mk, plane_fold]
@[simp] theorem postItem_plane (kind : Nat) (tile : Nat) (slot : Bool) (p : Nat) (c : Chip) :
    (postItem kind tile slot p c).plane = c.plane := by
  simp [postItem, *, forEach_plane, plane_mk, plane_fold]
@[simp] theorem postLost_plane (p : Nat) (c : Chip) : (postLost p c).plane = c.plane := by
  simp [postLost, *, forEach_plane, plane_mk, plane_fold]
@[simp] theorem postRestore_plane (p : Nat) (c : Chip) : (postRestore p c).plane = c.plane := by
  simp [postRestore, *, forEach_plane, plane_mk, plane_fold]
@[simp] theorem evalState_plane (d : Nat) (c : Chip) : (evalState d c).plane = c.plane := by
  unfold evalState; (try dsimp only) <;> (repeat' split) <;> simp [*, forEach_plane, plane_mk, plane_fold]
@[simp] theorem evacFail_plane (d : Nat) (code : Nat) (c : Chip) : (evacFail d code c).plane = c.plane := by
  simp [evacFail]
@[simp] theorem evacScan_plane (d : Nat) (c : Chip) : (evacScan d c).plane = c.plane := by
  simp [evacScan, *, forEach_plane, plane_mk, plane_fold]
@[simp] theorem evacStart_plane (d : Nat) (c : Chip) : (evacStart d c).plane = c.plane := by
  unfold evacStart; split <;> simp
@[simp] theorem carLeft_plane (p : Nat) (c : Chip) : (carLeft p c).plane = c.plane := by
  unfold carLeft; (try dsimp only) <;> (repeat' split) <;> simp [*, forEach_plane, plane_mk, plane_fold]
@[simp] theorem initRegion_plane (d : Nat) (c : Chip) : (initRegion d c).plane = c.plane := by
  simp [initRegion, *, forEach_plane, plane_mk, plane_fold]
@[simp] theorem askInit_plane (d : Nat) (c : Chip) : (askInit d c).plane = c.plane := by
  unfold askInit; (try dsimp only) <;> (repeat' split) <;> simp [*, forEach_plane, plane_mk, plane_fold]
@[simp] theorem initAll_plane (c : Chip) : (initAll c).plane = c.plane := by
  unfold initAll; (try dsimp only) <;> (repeat' split) <;> simp [*, forEach_plane, plane_mk, plane_fold]
@[simp] theorem readRegion_plane (d : Nat) (p : Nat) (serial : Nat) (c : Chip) :
    (readRegion d p serial c).plane = c.plane := by
  unfold readRegion; (try dsimp only) <;> (repeat' split) <;> simp [*, forEach_plane, plane_mk, plane_fold]
@[simp] theorem carReturn_plane (d : Nat) (p : Nat) (same : Bool) (serial : Nat) (c : Chip) :
    (carReturn d p same serial c).plane = c.plane := by
  unfold carReturn; (try dsimp only) <;> (repeat' split) <;> simp [*, forEach_plane, plane_mk, plane_fold]
@[simp] theorem fallbackTemp_plane (d : Nat) (c : Chip) : (fallbackTemp d c).plane = c.plane := by
  unfold fallbackTemp; split <;> simp
@[simp] theorem carReady_plane (p : Nat) (same : Bool) (serial : Nat) (poison : List Nat) (c : Chip) :
    (carReady p same serial poison c).plane = c.plane := by
  unfold carReady; (try dsimp only) <;> (repeat' split) <;> simp [*, forEach_plane, plane_mk, plane_fold]
@[simp] theorem setChan_plane (n : Nat) (v : Nat) (c : Chip) : (setChan n v c).plane = c.plane := by
  simp [setChan]
@[simp] theorem pgMoves_plane (n : Nat) (up : Bool) (c : Chip) : (pgMoves n up c).plane = c.plane := by
  unfold pgMoves; (try dsimp only) <;> (repeat' split) <;> simp [*, forEach_plane, plane_mk, plane_fold]
@[simp] theorem setPg_plane (n : Nat) (v : Bool) (c : Chip) : (setPg n v c).plane = c.plane := by
  unfold setPg; split <;> simp
@[simp] theorem gateOff_plane (n : Nat) (st : Nat) (c : Chip) : (gateOff n st c).plane = c.plane := by
  simp [gateOff]
@[simp] theorem tryHold_plane (n : Nat) (c : Chip) : (tryHold n c).plane = c.plane := by
  unfold tryHold; split <;> simp
@[simp] theorem setReq_plane (n : Nat) (v : Bool) (c : Chip) : (setReq n v c).plane = c.plane := by
  unfold setReq; (try dsimp only) <;> (repeat' split) <;> simp [*, forEach_plane, plane_mk, plane_fold]
@[simp] theorem trip_plane (n : Nat) (cause : Nat) (c : Chip) : (trip n cause c).plane = c.plane := by
  simp [trip]
@[simp] theorem senseShunt_plane (n : Nat) (isns : Nat) (c : Chip) : (senseShunt n isns c).plane = c.plane := by
  simp [senseShunt]
@[simp] theorem senseRail_plane (n : Nat) (srail : Nat) (c : Chip) : (senseRail n srail c).plane = c.plane := by
  simp [senseRail]
@[simp] theorem answerSnoop_plane (s : Snoop) (r : BiRsp) (c : Chip) : (answerSnoop s r c).plane = c.plane := by
  simp [answerSnoop, *, forEach_plane, plane_mk, plane_fold]
@[simp] theorem rolProto_plane (h : Nat) (l : Nat) (c : Chip) : (rolProto h l c).plane = c.plane := by
  simp [rolProto]
@[simp] theorem effBirsp_plane (p : Nat) (tag : Nat) (r : BiRsp) (c : Chip) :
    (effBirsp p tag r c).plane = c.plane := by
  unfold effBirsp; (try dsimp only) <;> (repeat' split) <;> simp [*, forEach_plane, plane_mk, plane_fold]
@[simp] theorem decideWaited_plane (u : Txn) (c : Chip) : (decideWaited u c).plane = c.plane := by
  unfold decideWaited; (try dsimp only) <;> (repeat' split) <;> simp [*, forEach_plane, plane_mk, plane_fold]
@[simp] theorem serveNext_plane (l : Nat) (c : Chip) : (serveNext l c).plane = c.plane := by
  unfold serveNext; (try dsimp only) <;> (repeat' split) <;> simp [*, forEach_plane, plane_mk, plane_fold]
@[simp] theorem effSnpTimeout_plane (tag : Nat) (c : Chip) : (effSnpTimeout tag c).plane = c.plane := by
  unfold effSnpTimeout; (try dsimp only) <;> (repeat' split) <;> simp [*, forEach_plane, plane_mk, plane_fold]
@[simp] theorem clearGone_plane (c : Chip) : (clearGone c).plane = c.plane := by
  unfold clearGone; (try dsimp only) <;> (repeat' split) <;> simp [*, forEach_plane, plane_mk, plane_fold]
@[simp] theorem metGone_plane (p : Nat) (c : Chip) : (metGone p c).plane = c.plane := by
  unfold metGone; (try dsimp only) <;> (repeat' split) <;> simp [*, forEach_plane, plane_mk, plane_fold]
@[simp] theorem effScrubDone_plane (c : Chip) : (effScrubDone c).plane = c.plane := by
  unfold effScrubDone; split <;> simp
@[simp] theorem probe_plane (c : Chip) : (probe c).plane = c.plane := by
  simp [probe]
@[simp] theorem parkHwClr_plane (c : Chip) : (parkHwClr c).plane = c.plane := by
  simp [parkHwClr]
@[simp] theorem unsupported_plane (p : Nat) (tag : Nat) (c : Chip) : (unsupported p tag c).plane = c.plane := by
  simp [unsupported]
@[simp] theorem atomLookup_plane (p : Nat) (t : Nat) (tag : Nat) (dpa : Nat) (ecc : Ecc) (f : Txn → Txn) (c : Chip) :
    (atomLookup p t tag dpa ecc f c).plane = c.plane := by
  unfold atomLookup; (try dsimp only) <;> (repeat' split) <;> simp [*, forEach_plane, plane_mk, plane_fold]
@[simp] theorem atomGo_plane (p : Nat) (off : Nat) (pasid : Option Nat) (k : AtomicKind) (w : AtomicWidth) (op : BitVec 128) (cmp : BitVec 128) (tag : Nat) (ecc : Ecc) (c : Chip) :
    (atomGo p off pasid k w op cmp tag ecc c).plane = c.plane := by
  unfold atomGo; (try dsimp only) <;> (repeat' split) <;> simp [*, forEach_plane, plane_mk, plane_fold]
@[simp] theorem answerCredits_plane (p : Nat) (dtag : Nat) (c : Chip) :
    (answerCredits p dtag c).plane = c.plane := by
  unfold answerCredits; (try dsimp only) <;> (repeat' split) <;> simp [*, forEach_plane, plane_mk, plane_fold]
@[simp] theorem effCplTmo_plane (p : Nat) (dtag : Option Nat) (c : Chip) : (effCplTmo p dtag c).plane = c.plane := by
  unfold effCplTmo; (try dsimp only) <;> (repeat' split) <;> simp [*, forEach_plane, plane_mk, plane_fold]
@[simp] theorem exportGo_plane (q : Nat) (r : ExportReq) (bad : Bool) (ecc : Ecc) (c : Chip) :
    (exportGo q r bad ecc c).plane = c.plane := by
  unfold exportGo; (try dsimp only) <;> (repeat' split) <;> simp [*, forEach_plane, plane_mk, plane_fold]
@[simp] theorem setPkts_plane (l : List Pkt) (c : Chip) : (setPkts l c).plane = c.plane := by
  simp [setPkts, *, forEach_plane, plane_mk, plane_fold]
@[simp] theorem putPkt_plane (k : Pkt) (c : Chip) : (putPkt k c).plane = c.plane := by
  simp [putPkt]
@[simp] theorem dropPkt_plane (k : Pkt) (c : Chip) : (dropPkt k c).plane = c.plane := by
  simp [dropPkt]
@[simp] theorem payCredits_plane (k : Pkt) (lines : Nat) (c : Chip) : (payCredits k lines c).plane = c.plane := by
  simp [payCredits]
@[simp] theorem testPkt_plane (k : Pkt) (c : Chip) : (testPkt k c).plane = c.plane := by
  unfold testPkt; (try dsimp only) <;> (repeat' split) <;> simp [*, forEach_plane, plane_mk, plane_fold]
@[simp] theorem holdBehind_plane (k : Pkt) (c : Chip) : (holdBehind k c).plane = c.plane := by
  simp [holdBehind]
@[simp] theorem retest_plane (c : Chip) : (retest c).plane = c.plane := by
  simp [retest, *, forEach_plane, plane_mk, plane_fold]
@[simp] theorem releasePkt_plane (k : Pkt) (c : Chip) : (releasePkt k c).plane = c.plane := by
  unfold releasePkt; split <;> simp
@[simp] theorem discardPkt_plane (k : Pkt) (c : Chip) : (discardPkt k c).plane = c.plane := by
  unfold discardPkt; split <;> simp
@[simp] theorem countLost_plane (c : Chip) : (countLost c).plane = c.plane := by
  simp [countLost, *, forEach_plane, plane_mk, plane_fold]
@[simp] theorem stallEnd_plane (k : Pkt) (c : Chip) : (stallEnd k c).plane = c.plane := by
  unfold stallEnd; split <;> simp
@[simp] theorem lateCells_plane (k : Pkt) (n : Nat) (c : Chip) : (lateCells k n c).plane = c.plane := by
  unfold lateCells; (try dsimp only) <;> (repeat' split) <;> simp [*, forEach_plane, plane_mk, plane_fold]
@[simp] theorem ingressDown_plane (p : Nat) (c : Chip) : (ingressDown p c).plane = c.plane := by
  simp [ingressDown, *, forEach_plane, plane_mk, plane_fold]
@[simp] theorem handToPort_plane (k : Pkt) (c : Chip) : (handToPort k c).plane = c.plane := by
  unfold handToPort; (try dsimp only) <;> (repeat' split) <;> simp [*, forEach_plane, plane_mk, plane_fold]
@[simp] theorem undelivered_plane (p : Nat) (c : Chip) : (undelivered p c).plane = c.plane := by
  simp [undelivered, *, forEach_plane, plane_mk, plane_fold]
@[simp] theorem egressDown_plane (p : Nat) (c : Chip) : (egressDown p c).plane = c.plane := by
  unfold egressDown; (try dsimp only) <;> (repeat' split) <;> (try simp [*, forEach_plane, plane_mk, plane_fold]) <;>
    (try (refine (forEach_plane _ _ _ (fun _ _ => ?_)).trans ?_ <;> (try dsimp only) <;> (repeat' split) <;> (try simp [*, forEach_plane, plane_mk, plane_fold]) <;>
      (repeat' split) <;> (try simp [*, forEach_plane, plane_mk, plane_fold])))
@[simp] theorem xbrLinkDown_plane (p : Nat) (c : Chip) : (xbrLinkDown p c).plane = c.plane := by
  simp [xbrLinkDown]
@[simp] theorem xbrPortReset_plane (p : Nat) (c : Chip) : (xbrPortReset p c).plane = c.plane := by
  unfold xbrPortReset; (try dsimp only) <;> (repeat' split) <;> (try simp [*, forEach_plane, plane_mk, plane_fold]) <;>
    (try (refine (forEach_plane _ _ _ (fun _ _ => ?_)).trans ?_ <;> (try dsimp only) <;> (repeat' split) <;> (try simp [*, forEach_plane, plane_mk, plane_fold]) <;>
      (repeat' split) <;> (try simp [*, forEach_plane, plane_mk, plane_fold])))
@[simp] theorem movePkts_plane (failed : Nat) (survivor : Nat) (c : Chip) :
    (movePkts failed survivor c).plane = c.plane := by
  simp [movePkts]
@[simp] theorem dropPair_plane (p : Nat) (q : Nat) (c : Chip) : (dropPair p q c).plane = c.plane := by
  unfold dropPair; (try dsimp only) <;> (repeat' split) <;> (try simp [*, forEach_plane, plane_mk, plane_fold]) <;>
    (try (refine (forEach_plane _ _ _ (fun _ _ => ?_)).trans ?_ <;> (try dsimp only) <;> (repeat' split) <;> (try simp [*, forEach_plane, plane_mk, plane_fold]) <;>
      (repeat' split) <;> (try simp [*, forEach_plane, plane_mk, plane_fold])))
@[simp] theorem setWdrr_plane (e : Nat) (cls : Nat) (l : List (Nat × Nat)) (c : Chip) :
    (setWdrr e cls l c).plane = c.plane := by
  simp [setWdrr, *, forEach_plane, plane_mk, plane_fold]
@[simp] theorem joinWdrr_plane (k : Pkt) (c : Chip) : (joinWdrr k c).plane = c.plane := by
  unfold joinWdrr; (try dsimp only) <;> (repeat' split) <;> simp [*, forEach_plane, plane_mk, plane_fold]
@[simp] theorem noteAsked_plane (k : Pkt) (c : Chip) : (noteAsked k c).plane = c.plane := by
  unfold noteAsked; (try dsimp only) <;> (repeat' split) <;> simp [*, forEach_plane, plane_mk, plane_fold]
@[simp] theorem noteAnswer_plane (i : PktIn) (c : Chip) : (noteAnswer i c).plane = c.plane := by
  unfold noteAnswer; split <;> simp
@[simp] theorem sendCell_plane (k : Pkt) (c : Chip) : (sendCell k c).plane = c.plane := by
  unfold sendCell; (try dsimp only) <;> (repeat' split) <;> simp [*, forEach_plane, plane_mk, plane_fold]
@[simp] theorem takePkt_plane (k : Pkt) (l : Option (List (Nat × Nat))) (c : Chip) :
    (takePkt k l c).plane = c.plane := by
  unfold takePkt; (try dsimp only) <;> (repeat' split) <;> simp [*, forEach_plane, plane_mk, plane_fold]
@[simp] theorem noteErrs_plane (errs : List SlotErr) (g : Nat) (k : Pkt) (cell : Nat) (c : Chip) :
    (noteErrs errs g k cell c).plane = c.plane := by
  simp [noteErrs]
@[simp] theorem serveCell_plane (errs : List SlotErr) (k : Pkt) (l : Option (List (Nat × Nat))) (c : Chip) :
    (serveCell errs k l c).plane = c.plane := by
  unfold serveCell; (try dsimp only) <;> (repeat' split) <;> simp [*, forEach_plane, plane_mk, plane_fold]
@[simp] theorem secondCell_plane (errs : List SlotErr) (i : Nat) (e : Nat) (cls : Nat) (k : Pkt) (c : Chip) :
    (secondCell errs i e cls k c).plane = c.plane := by
  unfold secondCell; (try dsimp only) <;> (repeat' split) <;> simp [*, forEach_plane, plane_mk, plane_fold]
@[simp] theorem serveMatch_plane (errs : List SlotErr) (m : Nat × Nat) (c : Chip) :
    (serveMatch errs m c).plane = c.plane := by
  unfold serveMatch; (try dsimp only) <;> (repeat' split) <;> simp [*, forEach_plane, plane_mk, plane_fold]
@[simp] theorem movePtrs_plane (ms : List (Nat × Nat)) (c : Chip) : (movePtrs ms c).plane = c.plane := by
  simp [movePtrs, *, forEach_plane, plane_mk, plane_fold]
@[simp] theorem matchSlot_plane (c : Chip) (reqs : List (Nat × Nat)) : (matchSlot c reqs).2.plane = c.plane := by
  simp [matchSlot]
@[simp] theorem readCopy_plane (errs : List SlotErr) (k : Pkt) (p : Nat) (c : Chip) :
    (readCopy errs k p c).plane = c.plane := by
  unfold readCopy; (try dsimp only) <;> (repeat' split) <;> simp [*, forEach_plane, plane_mk, plane_fold]
@[simp] theorem multicastPhase_plane (errs : List SlotErr) (c : Chip) :
    (multicastPhase errs c).2.plane = c.plane := by
  unfold multicastPhase; (try dsimp only) <;> (repeat' split) <;> (try simp [*, forEach_plane, plane_mk, plane_fold]) <;>
    (try (refine (forEach_plane _ _ _ (fun _ _ => ?_)).trans ?_ <;> (try dsimp only) <;> (repeat' split) <;> (try simp [*, forEach_plane, plane_mk, plane_fold]) <;>
      (repeat' split) <;> (try simp [*, forEach_plane, plane_mk, plane_fold])))
@[simp] theorem effSlot_plane (errs : List SlotErr) (c : Chip) : (effSlot errs c).plane = c.plane := by
  unfold effSlot; (try dsimp only) <;> (repeat' split) <;> simp [*, forEach_plane, plane_mk, plane_fold]
@[simp] theorem serveExport_plane (errs : List SlotErr) (k : Pkt) (ecc : Ecc) (c : Chip) :
    (serveExport errs k ecc c).plane = c.plane := by
  unfold serveExport; (try dsimp only) <;> (repeat' split) <;> simp [*, forEach_plane, plane_mk, plane_fold]
@[simp] theorem discardNew_plane (i : PktIn) (c : Chip) : (discardNew i c).plane = c.plane := by
  simp [discardNew]
@[simp] theorem enterPkt_plane (i : PktIn) (e : Nat) (errs : List SlotErr) (ecc : Ecc) (c : Chip) :
    (enterPkt i e errs ecc c).plane = c.plane := by
  unfold enterPkt; (try dsimp only) <;> (repeat' split) <;> simp [*, forEach_plane, plane_mk, plane_fold]
@[simp] theorem moreCells_plane (k : Pkt) (n : Nat) (errs : List SlotErr) (ecc : Ecc) (c : Chip) :
    (moreCells k n errs ecc c).plane = c.plane := by
  unfold moreCells; (try dsimp only) <;> (repeat' split) <;> simp [*, forEach_plane, plane_mk, plane_fold]
@[simp] theorem arrivalLookup_plane (i : PktIn) (ecc : Ecc) (c : Chip) :
    (arrivalLookup i ecc c).plane = c.plane := by
  unfold arrivalLookup; (try dsimp only) <;> (repeat' split) <;> simp [*, forEach_plane, plane_mk, plane_fold]
@[simp] theorem placePkt_plane (i : PktIn) (errs : List SlotErr) (ecc : Ecc) (c : Chip) :
    (placePkt i errs ecc c).plane = c.plane := by
  unfold placePkt; (try dsimp only) <;> (repeat' split) <;> simp [*, forEach_plane, plane_mk, plane_fold]
@[simp] theorem effArrival_plane (i : PktIn) (errs : List SlotErr) (ecc : Ecc) (c : Chip) :
    (effArrival i errs ecc c).plane = c.plane := by
  unfold effArrival; (try dsimp only) <;> (repeat' split) <;> simp [*, forEach_plane, plane_mk, plane_fold]
@[simp] theorem effStall_plane (i : Nat) (c : Chip) : (effStall i c).plane = c.plane := by
  unfold effStall; (try dsimp only) <;> (repeat' split) <;> simp [*, forEach_plane, plane_mk, plane_fold]
@[simp] theorem effLate_plane (i : Nat) (n : Nat) (c : Chip) : (effLate i n c).plane = c.plane := by
  unfold effLate; (try dsimp only) <;> (repeat' split) <;> simp [*, forEach_plane, plane_mk, plane_fold]
@[simp] theorem pmodeWrite_plane (p : Nat) (fr : Bool) (ct : Nat) (c : Chip) :
    (pmodeWrite p fr ct c).plane = c.plane := by
  unfold pmodeWrite; split <;> simp
@[simp] theorem slotReport_plane (p : Nat) (button : Bool) (presence : Bool) (link : Bool) (c : Chip) :
    (slotReport p button presence link c).plane = c.plane := by
  unfold slotReport; (try dsimp only) <;> (repeat' split) <;> simp [*, forEach_plane, plane_mk, plane_fold]
@[simp] theorem setHot_plane (p : Nat) (h : HotStep) (c : Chip) : (setHot p h c).plane = c.plane := by
  simp [setHot]
@[simp] theorem setPerst_plane (p : Nat) (high : Bool) (c : Chip) : (setPerst p high c).plane = c.plane := by
  simp [setPerst]
@[simp] theorem setPwrInd_plane (p : Nat) (v : Nat) (c : Chip) : (setPwrInd p v c).plane = c.plane := by
  unfold setPwrInd; split <;> simp
@[simp] theorem startPower_plane (p : Nat) (c : Chip) : (startPower p c).plane = c.plane := by
  simp [startPower]
@[simp] theorem stopPower_plane (p : Nat) (c : Chip) : (stopPower p c).plane = c.plane := by
  simp [stopPower]
@[simp] theorem slotRequest_plane (p : Nat) (on : Bool) (c : Chip) : (slotRequest p on c).plane = c.plane := by
  unfold slotRequest; (try dsimp only) <;> (repeat' split) <;> simp [*, forEach_plane, plane_mk, plane_fold]
@[simp] theorem linkClear_plane (p : Nat) (c : Chip) : (linkClear p c).plane = c.plane := by
  simp [linkClear, *, forEach_plane, plane_mk, plane_fold]
@[simp] theorem devLeft_plane (p : Nat) (result : Nat) (c : Chip) : (devLeft p result c).plane = c.plane := by
  unfold devLeft; split <;> simp
@[simp] theorem devLinkGone_plane (p : Nat) (result : Nat) (c : Chip) :
    (devLinkGone p result c).plane = c.plane := by
  simp [devLinkGone]
@[simp] theorem loseAnswers_plane (p : Nat) (c : Chip) : (loseAnswers p c).plane = c.plane := by
  simp [loseAnswers, *, forEach_plane, plane_mk, plane_fold]
@[simp] theorem poolFaceDown_plane (p : Nat) (c : Chip) : (poolFaceDown p c).plane = c.plane := by
  simp [poolFaceDown]
@[simp] theorem retrainStep_plane (p : Nat) (c : Chip) : (retrainStep p c).plane = c.plane := by
  simp [retrainStep]
@[simp] theorem answerAsked_plane (p : Nat) (c : Chip) : (answerAsked p c).plane = c.plane := by
  simp [answerAsked, *, forEach_plane, plane_mk, plane_fold]
@[simp] theorem linkLost_plane (p : Nat) (c : Chip) : (linkLost p c).plane = c.plane := by
  unfold linkLost; (try dsimp only) <;> (repeat' split) <;> simp [*, forEach_plane, plane_mk, plane_fold]
@[simp] theorem withdrawWidth_plane (p : Nat) (c : Chip) : (withdrawWidth p c).plane = c.plane := by
  unfold withdrawWidth; (try dsimp only) <;> (repeat' split) <;> simp [*, forEach_plane, plane_mk, plane_fold]
@[simp] theorem failover_plane (p : Nat) (q : Nat) (c : Chip) : (failover p q c).plane = c.plane := by
  simp [failover, *, forEach_plane, plane_mk, plane_fold]
@[simp] theorem retarget_plane (b : Nat) (src : Nat) (dst : Nat) (c : Chip) :
    (retarget b src dst c).plane = c.plane := by
  simp [retarget]
@[simp] theorem bucketGo_plane (p : Nat) (b : Nat) (c : Chip) : (bucketGo p b c).plane = c.plane := by
  simp [bucketGo]
@[simp] theorem carryAlone_plane (p : Nat) (c : Chip) : (carryAlone p c).plane = c.plane := by
  simp [carryAlone, *, forEach_plane, plane_mk, plane_fold]
@[simp] theorem dropFlits_plane (p : Nat) (c : Chip) : (dropFlits p c).plane = c.plane := by
  simp [dropFlits]
@[simp] theorem pairDown_plane (p : Nat) (q : Nat) (c : Chip) : (pairDown p q c).plane = c.plane := by
  unfold pairDown; (try dsimp only) <;> (repeat' split) <;> simp [*, forEach_plane, plane_mk, plane_fold]
@[simp] theorem memberDown_plane (p : Nat) (c : Chip) : (memberDown p c).plane = c.plane := by
  unfold memberDown; (try dsimp only) <;> (repeat' split) <;> simp [*, forEach_plane, plane_mk, plane_fold]
@[simp] theorem trunkDown_plane (p : Nat) (c : Chip) : (trunkDown p c).plane = c.plane := by
  unfold trunkDown; split <;> simp
@[simp] theorem edgeDown_plane (p : Nat) (asked : Bool) (c : Chip) : (edgeDown p asked c).plane = c.plane := by
  simp [edgeDown]
@[simp] theorem trunkOut_plane (p : Nat) (asked : Bool) (c : Chip) : (trunkOut p asked c).plane = c.plane := by
  unfold trunkOut; (try dsimp only) <;> (repeat' split) <;> simp [*, forEach_plane, plane_mk, plane_fold]
@[simp] theorem takeDown_plane (p : Nat) (asked : Bool) (c : Chip) : (takeDown p asked c).plane = c.plane := by
  unfold takeDown; (try dsimp only) <;> (repeat' split) <;> simp [*, forEach_plane, plane_mk, plane_fold]
@[simp] theorem enterRecovery_plane (p : Nat) (c : Chip) : (enterRecovery p c).plane = c.plane := by
  unfold enterRecovery; (try dsimp only) <;> (repeat' split) <;> simp [*, forEach_plane, plane_mk, plane_fold]
@[simp] theorem failHot_plane (p : Nat) (code : Nat) (c : Chip) : (failHot p code c).plane = c.plane := by
  simp [failHot]
@[simp] theorem deviceArrives_plane (p : Nat) (d : DeviceInfo) (c : Chip) :
    (deviceArrives p d c).plane = c.plane := by
  unfold deviceArrives; split <;> simp
@[simp] theorem bindMedia_plane (p : Nat) (serial : Nat) (c : Chip) : (bindMedia p serial c).plane = c.plane := by
  unfold bindMedia; (try dsimp only) <;> (repeat' split) <;> simp [*, forEach_plane, plane_mk, plane_fold]
@[simp] theorem deviceReady_plane (p : Nat) (d : DeviceInfo) (c : Chip) : (deviceReady p d c).plane = c.plane := by
  simp [deviceReady]
@[simp] theorem presenceLost_plane (p : Nat) (c : Chip) : (presenceLost p c).plane = c.plane := by
  unfold presenceLost; (try dsimp only) <;> (repeat' split) <;> simp [*, forEach_plane, plane_mk, plane_fold]
@[simp] theorem removeDevice_plane (p : Nat) (c : Chip) : (removeDevice p c).plane = c.plane := by
  simp [removeDevice]
@[simp] theorem clearCounts_plane (pg : Nat) (c : Chip) : (clearCounts pg c).plane = c.plane := by
  simp [clearCounts, *, forEach_plane, plane_mk, plane_fold]
@[simp] theorem clearLane_plane (l : Nat) (c : Chip) : (clearLane l c).plane = c.plane := by
  simp [clearLane, *, forEach_plane, plane_mk, plane_fold]
@[simp] theorem portResetGo_plane (p : Nat) (asked : Bool) (c : Chip) : (portResetGo p asked c).plane = c.plane := by
  unfold portResetGo; (try dsimp only) <;> (repeat' split) <;> simp [*, forEach_plane, plane_mk, plane_fold]
@[simp] theorem forgetPage_plane (d : Nat) (c : Chip) : (forgetPage d c).plane = c.plane := by
  simp [forgetPage, *, forEach_plane, plane_mk, plane_fold]
@[simp] theorem carBind_plane (d : Nat) (en : Bool) (c : Chip) : (carBind d en c).plane = c.plane := by
  unfold carBind; (try dsimp only) <;> (repeat' split) <;> simp [*, forEach_plane, plane_mk, plane_fold]
@[simp] theorem effHealthPoll_plane (d : Nat) (r : HealthReport) (c : Chip) :
    (effHealthPoll d r c).plane = c.plane := by
  unfold effHealthPoll; (try dsimp only) <;> (repeat' split) <;> simp [*, forEach_plane, plane_mk, plane_fold]
@[simp] theorem effHealthFail_plane (d : Nat) (secs : Nat) (c : Chip) :
    (effHealthFail d secs c).plane = c.plane := by
  unfold effHealthFail; split <;> simp
@[simp] theorem dropPending_plane (w : Nat) (c : Chip) : (dropPending w c).plane = c.plane := by
  simp [dropPending, *, forEach_plane, plane_mk, plane_fold]
@[simp] theorem noteExpired_plane (tile : Nat) (c : Chip) : (noteExpired tile c).plane = c.plane := by
  unfold noteExpired; (try dsimp only) <;> (repeat' split) <;> simp [*, forEach_plane, plane_mk, plane_fold]
@[simp] theorem evalRecord_plane (d : Nat) (x : CareRec) (c : Chip) : (evalRecord d x c).plane = c.plane := by
  unfold evalRecord; split <;> simp
@[simp] theorem passRecord_plane (d : Nat) (t : Nat) (c : Chip) : (passRecord d t c).plane = c.plane := by
  unfold passRecord; (try dsimp only) <;> (repeat' split) <;> simp [*, forEach_plane, plane_mk, plane_fold]
@[simp] theorem newDevicePass_plane (d : Nat) (c : Chip) : (newDevicePass d c).plane = c.plane := by
  unfold newDevicePass; (try dsimp only) <;> (repeat' split) <;> simp [*, forEach_plane, plane_mk, plane_fold]
@[simp] theorem twstalePass_plane (d : Nat) (c : Chip) : (twstalePass d c).plane = c.plane := by
  unfold twstalePass; (try dsimp only) <;> (repeat' split) <;> simp [*, forEach_plane, plane_mk, plane_fold]
@[simp] theorem passDevice_plane (d : Nat) (c : Chip) : (passDevice d c).plane = c.plane := by
  unfold passDevice; (try dsimp only) <;> (repeat' split) <;> simp [*, forEach_plane, plane_mk, plane_fold]
@[simp] theorem runPass_plane (c : Chip) : (runPass c).plane = c.plane := by
  simp [runPass, *, forEach_plane, plane_mk, plane_fold]
@[simp] theorem passDefects_plane (ls : List Loc) (c : Chip) : (passDefects ls c).plane = c.plane := by
  simp [passDefects, *, forEach_plane, plane_mk, plane_fold]
@[simp] theorem effPassStart_plane (poison : List Loc) (c : Chip) : (effPassStart poison c).plane = c.plane := by
  unfold effPassStart; (try dsimp only) <;> (repeat' split) <;> simp [*, forEach_plane, plane_mk, plane_fold]
@[simp] theorem closeDevice_plane (d : Nat) (c : Chip) : (closeDevice d c).plane = c.plane := by
  unfold closeDevice; split <;> simp
@[simp] theorem setMargin_plane (c : Chip) : (setMargin c).plane = c.plane := by
  unfold setMargin; (try dsimp only) <;> (repeat' split) <;> simp [*, forEach_plane, plane_mk, plane_fold]
@[simp] theorem effPassDone_plane (durS : Nat) (poison : List Loc) (c : Chip) :
    (effPassDone durS poison c).plane = c.plane := by
  unfold effPassDone; (try dsimp only) <;> (repeat' split) <;> simp [*, forEach_plane, plane_mk, plane_fold]
@[simp] theorem careItem_plane (i : CareItem) (ch : PlaceChoice) (c : Chip) : (careItem i ch c).plane = c.plane := by
  unfold careItem; (try dsimp only) <;> (repeat' split) <;> simp [*, forEach_plane, plane_mk, plane_fold]
@[simp] theorem noSpace_plane (i : CareItem) (c : Chip) : (noSpace i c).plane = c.plane := by
  unfold noSpace; (try dsimp only) <;> (repeat' split) <;> simp [*, forEach_plane, plane_mk, plane_fold]
@[simp] theorem effCareRead_plane (pa : Path) (ch : Option PlaceChoice) (c : Chip) :
    (effCareRead pa ch c).plane = c.plane := by
  unfold effCareRead; (try dsimp only) <;> (repeat' split) <;> simp [*, forEach_plane, plane_mk, plane_fold]
@[simp] theorem sendMend_plane (x : Nat) (y : Nat) (l : Nat) (good : DevStatus) (d : Line) (c : Chip) :
    (sendMend x y l good d c).plane = c.plane := by
  unfold sendMend; (try dsimp only) <;> (repeat' split) <;> simp [*, forEach_plane, plane_mk, plane_fold]
@[simp] theorem effMend_plane (good : DevStatus) (d : Line) (writeOk : Bool) (c : Chip) :
    (effMend good d writeOk c).plane = c.plane := by
  unfold effMend; (try dsimp only) <;> (repeat' split) <;> simp [*, forEach_plane, plane_mk, plane_fold]
@[simp] theorem effTwstale_plane (d : Nat) (c : Chip) : (effTwstale d c).plane = c.plane := by
  unfold effTwstale; split <;> simp
@[simp] theorem effLostWait_plane (d : Nat) (c : Chip) : (effLostWait d c).plane = c.plane := by
  unfold effLostWait; (try dsimp only) <;> (repeat' split) <;> simp [*, forEach_plane, plane_mk, plane_fold]
@[simp] theorem evacDone_plane (d : Nat) (c : Chip) : (evacDone d c).plane = c.plane := by
  simp [evacDone]
@[simp] theorem evacLook_plane (d : Nat) (c : Chip) : (evacLook d c).plane = c.plane := by
  unfold evacLook; (try dsimp only) <;> (repeat' split) <;> simp [*, forEach_plane, plane_mk, plane_fold]
@[simp] theorem effEvacTimeout_plane (d : Nat) (c : Chip) : (effEvacTimeout d c).plane = c.plane := by
  unfold effEvacTimeout; split <;> simp
@[simp] theorem abortEvac_plane (d : Nat) (code : Nat) (c : Chip) : (abortEvac d code c).plane = c.plane := by
  unfold abortEvac; split <;> simp
@[simp] theorem onVaux_plane (f : Chip → Chip) (c : Chip) (hf : ∀  c, (f  c).plane = c.plane) :
    (onVaux f c).plane = c.plane := by
  unfold onVaux; (try dsimp only) <;> (repeat' split) <;> simp [*, forEach_plane, plane_mk, plane_fold]
@[simp] theorem slpEnable_plane (n : Nat) (en : Bool) (c : Chip) : (slpEnable n en c).plane = c.plane := by
  unfold slpEnable; split <;> simp
@[simp] theorem softReq_plane (n : Nat) (req : Bool) (c : Chip) : (softReq n req c).plane = c.plane := by
  unfold softReq; split <;> simp
@[simp] theorem portReq_plane (n : Nat) (req : Bool) (c : Chip) : (portReq n req c).plane = c.plane := by
  unfold portReq; split <;> simp
@[simp] theorem portPresent_plane (n : Nat) (c : Chip) : (portPresent n c).plane = c.plane := by
  unfold portPresent; (try dsimp only) <;> (repeat' split) <;> simp [*, forEach_plane, plane_mk, plane_fold]
@[simp] theorem effQualified_plane (n : Nat) (c : Chip) : (effQualified n c).plane = c.plane := by
  unfold effQualified; (try dsimp only) <;> (repeat' split) <;> simp [*, forEach_plane, plane_mk, plane_fold]
@[simp] theorem effRemoval_plane (n : Nat) (c : Chip) : (effRemoval n c).plane = c.plane := by
  unfold effRemoval; (try dsimp only) <;> (repeat' split) <;> simp [*, forEach_plane, plane_mk, plane_fold]
@[simp] theorem enterRamp_plane (n : Nat) (c : Chip) : (enterRamp n c).plane = c.plane := by
  simp [enterRamp, *, forEach_plane, plane_mk, plane_fold]
@[simp] theorem effRampAdmit_plane (n : Nat) (c : Chip) : (effRampAdmit n c).plane = c.plane := by
  unfold effRampAdmit; split <;> simp
@[simp] theorem effGateFull_plane (n : Nat) (vgs : Nat) (c : Chip) : (effGateFull n vgs c).plane = c.plane := by
  unfold effGateFull; (try dsimp only) <;> (repeat' split) <;> simp [*, forEach_plane, plane_mk, plane_fold]
@[simp] theorem effPgQualified_plane (n : Nat) (c : Chip) : (effPgQualified n c).plane = c.plane := by
  unfold effPgQualified; split <;> simp
@[simp] theorem effLimitOnset_plane (n : Nat) (isns : Nat) (c : Chip) :
    (effLimitOnset n isns c).plane = c.plane := by
  unfold effLimitOnset; (try dsimp only) <;> (repeat' split) <;> simp [*, forEach_plane, plane_mk, plane_fold]
@[simp] theorem effLimitEnd_plane (n : Nat) (isns : Nat) (good : Bool) (c : Chip) :
    (effLimitEnd n isns good c).plane = c.plane := by
  unfold effLimitEnd; (try dsimp only) <;> (repeat' split) <;> simp [*, forEach_plane, plane_mk, plane_fold]
@[simp] theorem effFaultTimer_plane (n : Nat) (c : Chip) : (effFaultTimer n c).plane = c.plane := by
  unfold effFaultTimer; split <;> simp
@[simp] theorem effRampTimeout_plane (n : Nat) (c : Chip) : (effRampTimeout n c).plane = c.plane := by
  unfold effRampTimeout; split <;> simp
@[simp] theorem effFastTrip_plane (n : Nat) (isns : Nat) (c : Chip) : (effFastTrip n isns c).plane = c.plane := by
  unfold effFastTrip; (try dsimp only) <;> (repeat' split) <;> simp [*, forEach_plane, plane_mk, plane_fold]
@[simp] theorem effCooldownEnd_plane (n : Nat) (c : Chip) : (effCooldownEnd n c).plane = c.plane := by
  unfold effCooldownEnd; (try dsimp only) <;> (repeat' split) <;> simp [*, forEach_plane, plane_mk, plane_fold]
@[simp] theorem setHv_plane (cv : Nat) (ok : Bool) (c : Chip) : (setHv cv ok c).plane = c.plane := by
  simp [setHv, *, forEach_plane, plane_mk, plane_fold]
@[simp] theorem effHvValid_plane (cv : Nat) (c : Chip) : (effHvValid cv c).plane = c.plane := by
  unfold effHvValid; split <;> simp
@[simp] theorem effHvLost_plane (cv : Nat) (c : Chip) : (effHvLost cv c).plane = c.plane := by
  unfold effHvLost; (try dsimp only) <;> (repeat' split) <;> simp [*, forEach_plane, plane_mk, plane_fold]
@[simp] theorem effRailEnd_plane (n : Nat) (srail : Nat) (c : Chip) : (effRailEnd n srail c).plane = c.plane := by
  unfold effRailEnd; (try dsimp only) <;> (repeat' split) <;> simp [*, forEach_plane, plane_mk, plane_fold]
@[simp] theorem effRailReturn_plane (n : Nat) (srail : Nat) (c : Chip) :
    (effRailReturn n srail c).plane = c.plane := by
  unfold effRailReturn; (try dsimp only) <;> (repeat' split) <;> simp [*, forEach_plane, plane_mk, plane_fold]
@[simp] theorem effRetryClear_plane (n : Nat) (c : Chip) : (effRetryClear n c).plane = c.plane := by
  unfold effRetryClear; split <;> simp
@[simp] theorem effFetShort_plane (n : Nat) (srail : Nat) (c : Chip) : (effFetShort n srail c).plane = c.plane := by
  unfold effFetShort; (try dsimp only) <;> (repeat' split) <;> simp [*, forEach_plane, plane_mk, plane_fold]
@[simp] theorem peakClr_plane (n : Nat) (c : Chip) : (peakClr n c).plane = c.plane := by
  simp [peakClr]
@[simp] theorem enableSlot_plane (p : Nat) (c : Chip) : (enableSlot p c).plane = c.plane := by
  unfold enableSlot; (try dsimp only) <;> (repeat' split) <;> simp [*, forEach_plane, plane_mk, plane_fold]
@[simp] theorem laneJoins_plane (l : Nat) (c : Chip) : (laneJoins l c).plane = c.plane := by
  simp [laneJoins]
@[simp] theorem laneLeaves_plane (l : Nat) (c : Chip) : (laneLeaves l c).plane = c.plane := by
  simp [laneLeaves]
@[simp] theorem refusePort_plane (p : Nat) (code : Nat) (c : Chip) : (refusePort p code c).plane = c.plane := by
  simp [refusePort]
@[simp] theorem enablePort_plane (p : Nat) (c : Chip) : (enablePort p c).plane = c.plane := by
  unfold enablePort; (try dsimp only) <;> (repeat' split) <;> simp [*, forEach_plane, plane_mk, plane_fold]
@[simp] theorem disablePort_plane (p : Nat) (c : Chip) : (disablePort p c).plane = c.plane := by
  unfold disablePort; (try dsimp only) <;> (repeat' split) <;> simp [*, forEach_plane, plane_mk, plane_fold]
@[simp] theorem effPerstRelease_plane (p : Nat) (c : Chip) : (effPerstRelease p c).plane = c.plane := by
  unfold effPerstRelease; split <;> simp
@[simp] theorem effLinkTimeout_plane (p : Nat) (c : Chip) : (effLinkTimeout p c).plane = c.plane := by
  unfold effLinkTimeout; split <;> simp
@[simp] theorem effMemoryActive_plane (p : Nat) (d : DeviceInfo) (c : Chip) :
    (effMemoryActive p d c).plane = c.plane := by
  unfold effMemoryActive; (try dsimp only) <;> (repeat' split) <;> simp [*, forEach_plane, plane_mk, plane_fold]
@[simp] theorem effActiveTimeout_plane (p : Nat) (c : Chip) : (effActiveTimeout p c).plane = c.plane := by
  unfold effActiveTimeout; split <;> simp
@[simp] theorem effButton_plane (p : Nat) (c : Chip) : (effButton p c).plane = c.plane := by
  unfold effButton; (try dsimp only) <;> (repeat' split) <;> simp [*, forEach_plane, plane_mk, plane_fold]
@[simp] theorem removeReq_plane (p : Nat) (c : Chip) : (removeReq p c).plane = c.plane := by
  unfold removeReq; (try dsimp only) <;> (repeat' split) <;> simp [*, forEach_plane, plane_mk, plane_fold]
@[simp] theorem effProto_plane (p : Nat) (nonPosted : Bool) (tag : Nat) (c : Chip) :
    (effProto p nonPosted tag c).plane = c.plane := by
  unfold effProto; split <;> simp
@[simp] theorem setInd_plane (X : Fld) (p : Nat) (v : Nat) (c : Chip) : (setInd X p v c).plane = c.plane := by
  unfold setInd; split <;> simp
@[simp] theorem effSlotControl_plane (p : Nat) (off : Bool) (attn : Nat) (ind : Nat) (c : Chip) :
    (effSlotControl p off attn ind c).plane = c.plane := by
  unfold effSlotControl; (try dsimp only) <;> (repeat' split) <;> simp [*, forEach_plane, plane_mk, plane_fold]
@[simp] theorem resetLane_plane (X : Fld) (l : Nat) (c : Chip) : (resetLane X l c).plane = c.plane := by
  simp [resetLane]
@[simp] theorem resetAdapt_plane (l : Nat) (c : Chip) : (resetAdapt l c).plane = c.plane := by
  simp [resetAdapt, *, forEach_plane, plane_mk, plane_fold]
@[simp] theorem takeTaps_plane (l : Nat) (rate : Nat) (a : LaneAdapt) (c : Chip) :
    (takeTaps l rate a c).plane = c.plane := by
  unfold takeTaps; (try dsimp only) <;> (repeat' split) <;> simp [*, forEach_plane, plane_mk, plane_fold]
@[simp] theorem takeAdapt_plane (l : Nat) (rate : Nat) (a : LaneAdapt) (c : Chip) :
    (takeAdapt l rate a c).plane = c.plane := by
  unfold takeAdapt; (try dsimp only) <;> (repeat' split) <;> simp [*, forEach_plane, plane_mk, plane_fold]
@[simp] theorem effTracking_plane (l : Nat) (tap : Nat) (up : Bool) (c : Chip) :
    (effTracking l tap up c).plane = c.plane := by
  unfold effTracking; (try dsimp only) <;> (repeat' split) <;> simp [*, forEach_plane, plane_mk, plane_fold]
@[simp] theorem movePos_plane (l : Nat) (i : Nat) (pos : Nat) (c : Chip) : (movePos l i pos c).plane = c.plane := by
  unfold movePos; (try dsimp only) <;> (repeat' split) <;> simp [*, forEach_plane, plane_mk, plane_fold]
@[simp] theorem effReeval_plane (l : Nat) (i : Nat) (pos : Nat) (c : Chip) :
    (effReeval l i pos c).plane = c.plane := by
  unfold effReeval; split <;> simp
@[simp] theorem effSat_plane (l : Nat) (c : Chip) : (effSat l c).plane = c.plane := by
  unfold effSat; split <;> simp
@[simp] theorem freezeLane_plane (l : Nat) (on : Bool) (c : Chip) : (freezeLane l on c).plane = c.plane := by
  simp [freezeLane]
@[simp] theorem powerLane_plane (l : Nat) (on : Bool) (c : Chip) : (powerLane l on c).plane = c.plane := by
  unfold powerLane; (try dsimp only) <;> (repeat' split) <;> simp [*, forEach_plane, plane_mk, plane_fold]
@[simp] theorem effCdrLoss_plane (l : Nat) (c : Chip) : (effCdrLoss l c).plane = c.plane := by
  unfold effCdrLoss; (try dsimp only) <;> (repeat' split) <;> simp [*, forEach_plane, plane_mk, plane_fold]
@[simp] theorem effCdrRelock_plane (l : Nat) (c : Chip) : (effCdrRelock l c).plane = c.plane := by
  unfold effCdrRelock; split <;> simp
@[simp] theorem tileOut_plane (k : Nat) (c : Chip) : (tileOut k c).plane = c.plane := by
  unfold tileOut; (try dsimp only) <;> (repeat' split) <;> (try simp [*, forEach_plane, plane_mk, plane_fold]) <;>
    (try (refine (forEach_plane _ _ _ (fun _ _ => ?_)).trans ?_ <;> (try dsimp only) <;> (repeat' split) <;> (try simp [*, forEach_plane, plane_mk, plane_fold]) <;>
      (repeat' split) <;> (try simp [*, forEach_plane, plane_mk, plane_fold])))
@[simp] theorem setPllLost_plane (k : Nat) (on : Bool) (c : Chip) : (setPllLost k on c).plane = c.plane := by
  simp [setPllLost, *, forEach_plane, plane_mk, plane_fold]
@[simp] theorem reportRef_plane (k : Nat) (c : Chip) : (reportRef k c).plane = c.plane := by
  unfold reportRef; split <;> simp
@[simp] theorem effRefLoss_plane (k : Nat) (c : Chip) : (effRefLoss k c).plane = c.plane := by
  unfold effRefLoss; (try dsimp only) <;> (repeat' split) <;> simp [*, forEach_plane, plane_mk, plane_fold]
@[simp] theorem effPllUnlock_plane (k : Nat) (c : Chip) : (effPllUnlock k c).plane = c.plane := by
  unfold effPllUnlock; split <;> simp
@[simp] theorem effPllRelock_plane (k : Nat) (c : Chip) : (effPllRelock k c).plane = c.plane := by
  unfold effPllRelock; split <;> simp
@[simp] theorem effRefPpm_plane (k : Nat) (ppm : Nat) (c : Chip) : (effRefPpm k ppm c).plane = c.plane := by
  unfold effRefPpm; split <;> simp
@[simp] theorem selectRef_plane (k : Nat) (sel : Bool) (c : Chip) : (selectRef k sel c).plane = c.plane := by
  unfold selectRef; (try dsimp only) <;> (repeat' split) <;> simp [*, forEach_plane, plane_mk, plane_fold]
@[simp] theorem setLb_plane (l : Nat) (p : LbPhase) (c : Chip) : (setLb l p c).plane = c.plane := by
  simp [setLb]
@[simp] theorem closeLoop_plane (l : Nat) (a : Option LaneAdapt) (c : Chip) : (closeLoop l a c).plane = c.plane := by
  unfold closeLoop; split <;> simp
@[simp] theorem bareLane_plane (l : Nat) (c : Chip) : (bareLane l c).plane = c.plane := by
  simp [bareLane]
@[simp] theorem enterLoop_plane (l : Nat) (lb : Nat) (a : LaneAdapt) (c : Chip) :
    (enterLoop l lb a c).plane = c.plane := by
  unfold enterLoop; (try dsimp only) <;> (repeat' split) <;> simp [*, forEach_plane, plane_mk, plane_fold]
@[simp] theorem effFeSignal_plane (l : Nat) (a : LaneAdapt) (c : Chip) : (effFeSignal l a c).plane = c.plane := by
  unfold effFeSignal; split <;> simp
@[simp] theorem exitLoop_plane (l : Nat) (c : Chip) : (exitLoop l c).plane = c.plane := by
  unfold exitLoop; split <;> simp
@[simp] theorem effFollower_plane (p : Nat) (enter : Bool) (c : Chip) : (effFollower p enter c).plane = c.plane := by
  unfold effFollower; (try dsimp only) <;> (repeat' split) <;> simp [*, forEach_plane, plane_mk, plane_fold]
@[simp] theorem genEnable_plane (l : Nat) (on : Bool) (c : Chip) : (genEnable l on c).plane = c.plane := by
  simp [genEnable]
@[simp] theorem clearBits_plane (l : Nat) (c : Chip) : (clearBits l c).plane = c.plane := by
  simp [clearBits]
@[simp] theorem chkEnable_plane (l : Nat) (on : Bool) (c : Chip) : (chkEnable l on c).plane = c.plane := by
  simp [chkEnable]
@[simp] theorem effChkLock_plane (l : Nat) (c : Chip) : (effChkLock l c).plane = c.plane := by
  unfold effChkLock; split <;> simp
@[simp] theorem countBits_plane (l : Nat) (bits : Nat) (errors : Nat) (c : Chip) :
    (countBits l bits errors c).plane = c.plane := by
  simp [countBits]
@[simp] theorem effChkLoss_plane (l : Nat) (clean : Nat) (errors : Nat) (c : Chip) :
    (effChkLoss l clean errors c).plane = c.plane := by
  unfold effChkLoss; (try dsimp only) <;> (repeat' split) <;> simp [*, forEach_plane, plane_mk, plane_fold]
@[simp] theorem setSampler_plane (l : Nat) (m : Option MarginRun) (c : Chip) :
    (setSampler l m c).plane = c.plane := by
  simp [setSampler]
@[simp] theorem marginStart_plane (l : Nat) (c : Chip) : (marginStart l c).plane = c.plane := by
  unfold marginStart; split <;> simp
@[simp] theorem effMarginDone_plane (l : Nat) (errs : Nat) (c : Chip) :
    (effMarginDone l errs c).plane = c.plane := by
  unfold effMarginDone; (try dsimp only) <;> (repeat' split) <;> simp [*, forEach_plane, plane_mk, plane_fold]
@[simp] theorem effPcieMargin_plane (l : Nat) (off : MarginStep) (eye : Nat) (c : Chip) :
    (effPcieMargin l off eye c).plane = c.plane := by
  unfold effPcieMargin; (try dsimp only) <;> (repeat' split) <;> simp [*, forEach_plane, plane_mk, plane_fold]
@[simp] theorem trainLane_plane (p : Nat) (rate : Nat) (rev : Bool) (i : TrainInfo) (l : Nat) (c : Chip) :
    (trainLane p rate rev i l c).plane = c.plane := by
  simp [trainLane]
@[simp] theorem train_plane (p : Nat) (i : TrainInfo) (c : Chip) : (train p i c).plane = c.plane := by
  unfold train; (try dsimp only) <;> (repeat' split) <;> simp [*, forEach_plane, plane_mk, plane_fold]
@[simp] theorem effTrain_plane (p : Nat) (i : TrainInfo) (c : Chip) : (effTrain p i c).plane = c.plane := by
  unfold effTrain; (try dsimp only) <;> (repeat' split) <;> simp [*, forEach_plane, plane_mk, plane_fold]
@[simp] theorem setRepaid_plane (p : Nat) (c : Chip) : (setRepaid p c).plane = c.plane := by
  simp [setRepaid, *, forEach_plane, plane_mk, plane_fold]
@[simp] theorem startCredits_plane (p : Nat) (i : TrainInfo) (c : Chip) : (startCredits p i c).plane = c.plane := by
  simp [startCredits, *, forEach_plane, plane_mk, plane_fold]
@[simp] theorem memberBack_plane (p : Nat) (c : Chip) : (memberBack p c).plane = c.plane := by
  unfold memberBack; (try dsimp only) <;> (repeat' split) <;> simp [*, forEach_plane, plane_mk, plane_fold]
@[simp] theorem trackLanes_plane (p : Nat) (c : Chip) : (trackLanes p c).plane = c.plane := by
  simp [trackLanes, *, forEach_plane, plane_mk, plane_fold]
@[simp] theorem setWidth_plane (p : Nat) (w : Nat) (c : Chip) : (setWidth p w c).plane = c.plane := by
  simp [setWidth, *, forEach_plane, plane_mk, plane_fold]
@[simp] theorem evenPair_plane (p : Nat) (c : Chip) : (evenPair p c).plane = c.plane := by
  unfold evenPair; (try dsimp only) <;> (repeat' split) <;> simp [*, forEach_plane, plane_mk, plane_fold]
@[simp] theorem enterL0_plane (p : Nat) (i : TrainInfo) (dev : DeviceInfo) (c : Chip) :
    (enterL0 p i dev c).plane = c.plane := by
  unfold enterL0; (try dsimp only) <;> (repeat' split) <;> simp [*, forEach_plane, plane_mk, plane_fold]
@[simp] theorem returnL0_plane (p : Nat) (i : TrainInfo) (c : Chip) : (returnL0 p i c).plane = c.plane := by
  unfold returnL0; (try dsimp only) <;> (repeat' split) <;> simp [*, forEach_plane, plane_mk, plane_fold]
@[simp] theorem effL0_plane (p : Nat) (dev : DeviceInfo) (c : Chip) : (effL0 p dev c).plane = c.plane := by
  unfold effL0; (try dsimp only) <;> (repeat' split) <;> simp [*, forEach_plane, plane_mk, plane_fold]
@[simp] theorem askReplay_plane (p : Nat) (c : Chip) : (askReplay p c).plane = c.plane := by
  simp [askReplay]
@[simp] theorem takeReturn_plane (p : Nat) (k : Nat) (v : Nat) (c : Chip) :
    (takeReturn p k v c).plane = c.plane := by
  simp [takeReturn]
@[simp] theorem takeReturns_plane (p : Nat) (rs : List (Fin 4096)) (c : Chip) :
    (takeReturns p rs c).plane = c.plane := by
  unfold takeReturns; (try dsimp only) <;> (repeat' split) <;> (try simp [*, forEach_plane, plane_mk, plane_fold]) <;>
    (try (refine (forEach_plane _ _ _ (fun _ _ => ?_)).trans ?_ <;> (try dsimp only) <;> (repeat' split) <;> (try simp [*, forEach_plane, plane_mk, plane_fold]) <;>
      (repeat' split) <;> (try simp [*, forEach_plane, plane_mk, plane_fold])))
@[simp] theorem useCredits_plane (p : Nat) (m : FlitMsg) (c : Chip) : (useCredits p m c).plane = c.plane := by
  simp [useCredits]
@[simp] theorem ackNow_plane (p : Nat) (c : Chip) : (ackNow p c).plane = c.plane := by
  simp [ackNow]
@[simp] theorem advanceRx_plane (p : Nat) (c : Chip) : (advanceRx p c).plane = c.plane := by
  simp [advanceRx]
@[simp] theorem acceptMsg_plane (p : Nat) (m : FlitMsg) (ok : Chip → Chip) (c : Chip) (hok : ∀  c, (ok  c).plane = c.plane) :
    (acceptMsg p m ok c).plane = c.plane := by
  unfold acceptMsg; (try dsimp only) <;> (repeat' split) <;> simp [*, forEach_plane, plane_mk, plane_fold]
@[simp] theorem numbered_plane (p : Nat) (seq : Nat) (take : Chip → Chip) (c : Chip) (htake : ∀  c, (take  c).plane = c.plane) :
    (numbered p seq take c).plane = c.plane := by
  unfold numbered; (try dsimp only) <;> (repeat' split) <;> simp [*, forEach_plane, plane_mk, plane_fold]
@[simp] theorem checked_plane (p : Nat) (k : FlitCheck) (good : Chip → Chip) (c : Chip) (hgood : ∀  c, (good  c).plane = c.plane) :
    (checked p k good c).plane = c.plane := by
  unfold checked; (try dsimp only) <;> (repeat' split) <;> simp [*, forEach_plane, plane_mk, plane_fold]
@[simp] theorem goodFlit_plane (p : Nat) (f : FlitRx) (c : Chip) : (goodFlit p f c).plane = c.plane := by
  unfold goodFlit; split <;> simp
@[simp] theorem effFlit_plane (p : Nat) (f : FlitRx) (c : Chip) : (effFlit p f c).plane = c.plane := by
  unfold effFlit; split <;> simp
@[simp] theorem overLimit_plane (p : Nat) (c : Chip) : (overLimit p c).plane = c.plane := by
  unfold overLimit; (try dsimp only) <;> (repeat' split) <;> simp [*, forEach_plane, plane_mk, plane_fold]
@[simp] theorem noteReplay_plane (p : Nat) (n : Nat) (c : Chip) : (noteReplay p n c).plane = c.plane := by
  unfold noteReplay; (try dsimp only) <;> (repeat' split) <;> simp [*, forEach_plane, plane_mk, plane_fold]
@[simp] theorem nak_plane (p : Nat) (seq : Nat) (c : Chip) : (nak p seq c).plane = c.plane := by
  unfold nak; split <;> simp
@[simp] theorem effNak_plane (p : Nat) (seq : Nat) (c : Chip) : (effNak p seq c).plane = c.plane := by
  unfold effNak; (try dsimp only) <;> (repeat' split) <;> simp [*, forEach_plane, plane_mk, plane_fold]
@[simp] theorem effAckSend_plane (p : Nat) (c : Chip) : (effAckSend p c).plane = c.plane := by
  unfold effAckSend; split <;> simp
@[simp] theorem ackTo_plane (p : Nat) (seq : Nat) (c : Chip) : (ackTo p seq c).plane = c.plane := by
  simp [ackTo]
@[simp] theorem effAck_plane (p : Nat) (seq : Nat) (c : Chip) : (effAck p seq c).plane = c.plane := by
  unfold effAck; (try dsimp only) <;> (repeat' split) <;> simp [*, forEach_plane, plane_mk, plane_fold]
@[simp] theorem effCreditReturn_plane (p : Nat) (cls : Nat) (c : Chip) :
    (effCreditReturn p cls c).plane = c.plane := by
  unfold effCreditReturn; (try dsimp only) <;> (repeat' split) <;> simp [*, forEach_plane, plane_mk, plane_fold]
@[simp] theorem effSpentClear_plane (p : Nat) (c : Chip) : (effSpentClear p c).plane = c.plane := by
  unfold effSpentClear; (try dsimp only) <;> (repeat' split) <;> simp [*, forEach_plane, plane_mk, plane_fold]
@[simp] theorem effRecovery_plane (p : Nat) (c : Chip) : (effRecovery p c).plane = c.plane := by
  unfold effRecovery; split <;> simp
@[simp] theorem retrainWrite_plane (p : Nat) (c : Chip) : (retrainWrite p c).plane = c.plane := by
  unfold retrainWrite; split <;> simp
@[simp] theorem effLinkDown_plane (p : Nat) (cause : DownCause) (c : Chip) :
    (effLinkDown p cause c).plane = c.plane := by
  unfold effLinkDown; split <;> simp
@[simp] theorem effPartner_plane (p : Nat) (hot : Bool) (c : Chip) : (effPartner p hot c).plane = c.plane := by
  unfold effPartner; (try dsimp only) <;> (repeat' split) <;> simp [*, forEach_plane, plane_mk, plane_fold]
@[simp] theorem effLockTmr_plane (p : Nat) (c : Chip) : (effLockTmr p c).plane = c.plane := by
  unfold effLockTmr; split <;> simp
@[simp] theorem resendTaken_plane (p q orig : Nat) (m : FlitMsg) (c : Chip) :
    (resendTaken p q orig m c).plane = c.plane := by
  unfold resendTaken
  refine (acceptMsg_plane _ _ _ _ (fun c => ?_)).trans ?_
  · split <;> simp
  · split <;> simp
@[simp] theorem goodResend_plane (p : Nat) (f : FlitRx) (orig : Nat) (c : Chip) :
    (goodResend p f orig c).plane = c.plane := by
  unfold goodResend; split <;> simp
@[simp] theorem effResend_plane (p : Nat) (f : FlitRx) (orig : Nat) (c : Chip) :
    (effResend p f orig c).plane = c.plane := by
  unfold effResend; split <;> simp
@[simp] theorem failbackEnds_plane (p : Nat) (c : Chip) : (failbackEnds p c).plane = c.plane := by
  unfold failbackEnds; split <;> simp
@[simp] theorem effHoldExpiry_plane (p : Nat) (c : Chip) : (effHoldExpiry p c).plane = c.plane := by
  unfold effHoldExpiry; split <;> simp
@[simp] theorem effBucketMove_plane (p : Nat) (b : Nat) (c : Chip) : (effBucketMove p b c).plane = c.plane := by
  unfold effBucketMove; (try dsimp only) <;> (repeat' split) <;> simp [*, forEach_plane, plane_mk, plane_fold]
@[simp] theorem splitWrite_plane (p : Nat) (v : Nat) (c : Chip) : (splitWrite p v c).plane = c.plane := by
  unfold splitWrite; (try dsimp only) <;> (repeat' split) <;> simp [*, forEach_plane, plane_mk, plane_fold]
@[simp] theorem widthGo_plane (p : Nat) (peer : Option WidthPeer) (c : Chip) :
    (widthGo p peer c).plane = c.plane := by
  unfold widthGo; (try dsimp only) <;> (repeat' split) <;> simp [*, forEach_plane, plane_mk, plane_fold]
@[simp] theorem widthEnds_plane (r : Nat) (c : Chip) : (widthEnds r c).plane = c.plane := by
  unfold widthEnds; split <;> simp
@[simp] theorem effWidthDone_plane (p : Nat) (c : Chip) : (effWidthDone p c).plane = c.plane := by
  unfold effWidthDone; (try dsimp only) <;> (repeat' split) <;> simp [*, forEach_plane, plane_mk, plane_fold]
@[simp] theorem setMarks_plane (prim : Nat) (l : List MarkWait) (c : Chip) :
    (setMarks prim l c).plane = c.plane := by
  simp [setMarks, *, forEach_plane, plane_mk, plane_fold]
@[simp] theorem effMarksSend_plane (p : Nat) (nops : Nat) (c : Chip) : (effMarksSend p nops c).plane = c.plane := by
  unfold effMarksSend; (try dsimp only) <;> (repeat' split) <;> simp [*, forEach_plane, plane_mk, plane_fold]
@[simp] theorem takeMark_plane (r : MarkRec) (c : Chip) : (takeMark r c).plane = c.plane := by
  unfold takeMark; (try dsimp only) <;> (repeat' split) <;> simp [*, forEach_plane, plane_mk, plane_fold]
@[simp] theorem goodMarks_plane (p : Nat) (recs : List MarkRec) (c : Chip) :
    (goodMarks p recs c).plane = c.plane := by
  simp [goodMarks, *, forEach_plane, plane_mk, plane_fold]
@[simp] theorem effMarksReceive_plane (p : Nat) (k : FlitCheck) (recs : List MarkRec) (c : Chip) :
    (effMarksReceive p k recs c).plane = c.plane := by
  unfold effMarksReceive; (try dsimp only) <;> (repeat' split) <;> simp [*, forEach_plane, plane_mk, plane_fold]
@[simp] theorem effMarkAge_plane (p : Nat) (c : Chip) : (effMarkAge p c).plane = c.plane := by
  unfold effMarkAge; (try dsimp only) <;> (repeat' split) <;> simp [*, forEach_plane, plane_mk, plane_fold]
@[simp] theorem effAgeDrain_plane (p : Nat) (l : Nat) (ecc : Nat) (c : Chip) :
    (effAgeDrain p l ecc c).plane = c.plane := by
  unfold effAgeDrain; (try dsimp only) <;> (repeat' split) <;> simp [*, forEach_plane, plane_mk, plane_fold]
@[simp] theorem effDrainComplete_plane (p : Nat) (l : Nat) (ecc : Nat) (c : Chip) :
    (effDrainComplete p l ecc c).plane = c.plane := by
  unfold effDrainComplete; (try dsimp only) <;> (repeat' split) <;> simp [*, forEach_plane, plane_mk, plane_fold]
@[simp] theorem pageDenied_plane (t : Nat) (c : Chip) : (pageDenied t c).plane = c.plane := by
  simp [pageDenied]
@[simp] theorem ringBell_plane (x : Nat) (b : Bell) (c : Chip) : (ringBell x b c).plane = c.plane := by
  simp [ringBell]
@[simp] theorem bellNow_plane (x : Nat) (c : Chip) : (bellNow x c).plane = c.plane := by
  unfold bellNow; split <;> simp
@[simp] theorem effBell_plane (p : Nat) (t : Nat) (pasid : Option Nat) (eight : Bool) (tag : Nat) (c : Chip) :
    (effBell p t pasid eight tag c).plane = c.plane := by
  unfold effBell; (try dsimp only) <;> (repeat' split) <;> simp [*, forEach_plane, plane_mk, plane_fold]
@[simp] theorem limitEntry_plane (i : Nat) (c : Chip) : (limitEntry i c).plane = c.plane := by
  unfold limitEntry; (try dsimp only) <;> (repeat' split) <;> simp [*, forEach_plane, plane_mk, plane_fold]
@[simp] theorem bellAtLimit_plane (x : Nat) (k : Nat) (b : Bell) (c : Chip) :
    (bellAtLimit x k b c).plane = c.plane := by
  simp [bellAtLimit]
@[simp] theorem effBellLimit_plane (x : Nat) (k : Nat) (c : Chip) : (effBellLimit x k c).plane = c.plane := by
  unfold effBellLimit; (try dsimp only) <;> (repeat' split) <;> simp [*, forEach_plane, plane_mk, plane_fold]
@[simp] theorem drainSlate_plane (p : Nat) (c : Chip) : (drainSlate p c).plane = c.plane := by
  simp [drainSlate, *, forEach_plane, plane_mk, plane_fold]
@[simp] theorem effDrainDone_plane (p : Nat) (c : Chip) : (effDrainDone p c).plane = c.plane := by
  unfold effDrainDone; (try dsimp only) <;> (repeat' split) <;> simp [*, forEach_plane, plane_mk, plane_fold]
@[simp] theorem effPoisonWrite_plane (l : Nat) (c : Chip) : (effPoisonWrite l c).plane = c.plane := by
  unfold effPoisonWrite; (try dsimp only) <;> (repeat' split) <;> simp [*, forEach_plane, plane_mk, plane_fold]
@[simp] theorem occHwClr_plane (p : Nat) (c : Chip) : (occHwClr p c).plane = c.plane := by
  simp [occHwClr]
@[simp] theorem tenCommand_plane (t : Nat) (f : Chip → Chip) (c : Chip) (hf : ∀  c, (f  c).plane = c.plane) :
    (tenCommand t f c).plane = c.plane := by
  unfold tenCommand; (try dsimp only) <;> (repeat' split) <;> simp [*, forEach_plane, plane_mk, plane_fold]
@[simp] theorem enableTen_plane (t : Nat) (c : Chip) : (enableTen t c).plane = c.plane := by
  unfold enableTen; (try dsimp only) <;> (repeat' split) <;> simp [*, forEach_plane, plane_mk, plane_fold]
@[simp] theorem stopJob_plane (t : Nat) (c : Chip) : (stopJob t c).plane = c.plane := by
  unfold stopJob; (try dsimp only) <;> (repeat' split) <;> simp [*, forEach_plane, plane_mk, plane_fold]
@[simp] theorem startReset_plane (t : Nat) (self : Bool) (disabling : Bool) (c : Chip) :
    (startReset t self disabling c).plane = c.plane := by
  simp [startReset]
@[simp] theorem disableTen_plane (t : Nat) (c : Chip) : (disableTen t c).plane = c.plane := by
  unfold disableTen; (try dsimp only) <;> (repeat' split) <;> simp [*, forEach_plane, plane_mk, plane_fold]
@[simp] theorem pauseJob_plane (t : Nat) (c : Chip) : (pauseJob t c).plane = c.plane := by
  unfold pauseJob; (try dsimp only) <;> (repeat' split) <;> simp [*, forEach_plane, plane_mk, plane_fold]
@[simp] theorem freezeTen_plane (t : Nat) (c : Chip) : (freezeTen t c).plane = c.plane := by
  unfold freezeTen; split <;> simp
@[simp] theorem internalBellEnds_plane (t : Nat) (c : Chip) : (internalBellEnds t c).plane = c.plane := by
  unfold internalBellEnds; (try dsimp only) <;> (repeat' split) <;> simp [*, forEach_plane, plane_mk, plane_fold]
@[simp] theorem effFreezeComplete_plane (t : Nat) (c : Chip) : (effFreezeComplete t c).plane = c.plane := by
  unfold effFreezeComplete; (try dsimp only) <;> (repeat' split) <;> simp [*, forEach_plane, plane_mk, plane_fold]
@[simp] theorem thawTen_plane (t : Nat) (c : Chip) : (thawTen t c).plane = c.plane := by
  unfold thawTen; split <;> simp
@[simp] theorem resetTen_plane (t : Nat) (c : Chip) : (resetTen t c).plane = c.plane := by
  unfold resetTen; split <;> simp
@[simp] theorem selfReset_plane (t : Nat) (c : Chip) : (selfReset t c).plane = c.plane := by
  unfold selfReset; split <;> simp
@[simp] theorem pageWrite_plane (p : Nat) (t : Nat) (pasid : Option Nat) (f : Chip → Chip) (c : Chip) (hf : ∀  c, (f  c).plane = c.plane) :
    (pageWrite p t pasid f c).plane = c.plane := by
  unfold pageWrite; (try dsimp only) <;> (repeat' split) <;> simp [*, forEach_plane, plane_mk, plane_fold]
@[simp] theorem forgetJob_plane (t : Nat) (c : Chip) : (forgetJob t c).plane = c.plane := by
  simp [forgetJob, *, forEach_plane, plane_mk, plane_fold]
@[simp] theorem finishReset_plane (t : Nat) (c : Chip) : (finishReset t c).plane = c.plane := by
  simp [finishReset]
@[simp] theorem takeFld_plane (X : Fld) (t : Nat) (v : Nat) (c : Chip) : (takeFld X t v c).plane = c.plane := by
  unfold takeFld; split <;> simp
@[simp] theorem queueJob_plane (t : Nat) (c : Chip) : (queueJob t c).plane = c.plane := by
  unfold queueJob; (try dsimp only) <;> (repeat' split) <;> simp [*, forEach_plane, plane_mk, plane_fold]
@[simp] theorem submitJob_plane (t : Nat) (c : Chip) : (submitJob t c).plane = c.plane := by
  unfold submitJob; (try dsimp only) <;> (repeat' split) <;> simp [*, forEach_plane, plane_mk, plane_fold]
@[simp] theorem jobCtrlWrite_plane (t : Nat) (v : Nat) (c : Chip) : (jobCtrlWrite t v c).plane = c.plane := by
  unfold jobCtrlWrite; (try dsimp only) <;> (repeat' split) <;> simp [*, forEach_plane, plane_mk, plane_fold]
@[simp] theorem jobReg_plane (t : Nat) (f : TenSt → TenSt) (c : Chip) : (jobReg t f c).plane = c.plane := by
  unfold jobReg; split <;> simp
@[simp] theorem ctlWrite_plane (t : Nat) (o : Nat) (v : Nat) (c : Chip) : (ctlWrite t o v c).plane = c.plane := by
  unfold ctlWrite; (try dsimp only) <;> (repeat' split) <;> simp [*, forEach_plane, plane_mk, plane_fold]
@[simp] theorem ctlServe_plane (p : Nat) (t : Nat) (o : Nat) (tag : Nat) (eight : Bool) (w : Option Nat) (c : Chip) :
    (ctlServe p t o tag eight w c).plane = c.plane := by
  unfold ctlServe; split <;> simp
@[simp] theorem effCtlAccess_plane (p : Nat) (off : Nat) (eight : Bool) (whole : Bool) (w : Option Nat) (pasid : Option Nat) (tag : Nat) (c : Chip) :
    (effCtlAccess p off eight whole w pasid tag c).plane = c.plane := by
  unfold effCtlAccess; (try dsimp only) <;> (repeat' split) <;> simp [*, forEach_plane, plane_mk, plane_fold]
@[simp] theorem effRefill_plane (c : Chip) : (effRefill c).plane = c.plane := by
  unfold effRefill; (try dsimp only) <;> (repeat' split) <;> simp [*, forEach_plane, plane_mk, plane_fold]
@[simp] theorem refuseSlots_plane (t : Nat) (c : Chip) : (refuseSlots t c).plane = c.plane := by
  simp [refuseSlots]
@[simp] theorem qmaxWrite_plane (t : Nat) (q : Nat) (c : Chip) : (qmaxWrite t q c).plane = c.plane := by
  unfold qmaxWrite; (try dsimp only) <;> (repeat' split) <;> simp [*, forEach_plane, plane_mk, plane_fold]
@[simp] theorem srateEnWrite_plane (t : Nat) (on : Bool) (c : Chip) : (srateEnWrite t on c).plane = c.plane := by
  unfold srateEnWrite; split <;> simp
@[simp] theorem effSlotWrite_plane (t : Nat) (q : Option Nat) (en : Option Bool) (c : Chip) :
    (effSlotWrite t q en c).plane = c.plane := by
  unfold effSlotWrite; (try dsimp only) <;> (repeat' split) <;> simp [*, forEach_plane, plane_mk, plane_fold]
@[simp] theorem bumpHist_plane (k : Nat) (c : Chip) : (bumpHist k c).plane = c.plane := by
  simp [bumpHist, *, forEach_plane, plane_mk, plane_fold]
@[simp] theorem putCand_plane (t : Nat) (down : Bool) (e : Entry) (c : Chip) :
    (putCand t down e c).plane = c.plane := by
  unfold putCand; (try dsimp only) <;> (repeat' split) <;> simp [*, forEach_plane, plane_mk, plane_fold]
@[simp] theorem takeMarks_plane (l : Nat) (c : Chip) : (takeMarks l c).plane = c.plane := by
  unfold takeMarks; (try dsimp only) <;> (repeat' split) <;> simp [*, forEach_plane, plane_mk, plane_fold]
@[simp] theorem sweepEntry_plane (t : Nat) (e : Entry) (c : Chip) : (sweepEntry t e c).plane = c.plane := by
  unfold sweepEntry; (try dsimp only) <;> (repeat' split) <;> simp [*, forEach_plane, plane_mk, plane_fold]
@[simp] theorem sweepLine_plane (l : Nat) (c : Chip) : (sweepLine l c).plane = c.plane := by
  unfold sweepLine; (try dsimp only) <;> (repeat' split) <;> simp [*, forEach_plane, plane_mk, plane_fold]
@[simp] theorem endTerm_plane (bad : List Nat) (c : Chip) : (endTerm bad c).plane = c.plane := by
  unfold endTerm; (try dsimp only) <;> (repeat' split) <;> simp [*, forEach_plane, plane_mk, plane_fold]
@[simp] theorem effTermEnd_plane (bad : List Nat) (c : Chip) : (effTermEnd bad c).plane = c.plane := by
  unfold effTermEnd; (try dsimp only) <;> (repeat' split) <;> simp [*, forEach_plane, plane_mk, plane_fold]
@[simp] theorem effMrkEnable_plane (on : Bool) (c : Chip) : (effMrkEnable on c).plane = c.plane := by
  simp [effMrkEnable, *, forEach_plane, plane_mk, plane_fold]
@[simp] theorem effSweepDone_plane (durUs : Nat) (ps : List MovePick) (bad : List Nat) (c : Chip) :
    (effSweepDone durUs ps bad c).plane = c.plane := by
  unfold effSweepDone; (try dsimp only) <;> (repeat' split) <;> simp [*, forEach_plane, plane_mk, plane_fold]

end Sys2Proof.Machine
end

