-- ==== Sys2Proof/Laws/Start.lean ====
section
/-!
SUPPORT. Boot touches only SEC, the cores' registers, faults and counts: every other part stays.
-/
set_option linter.unusedSimpArgs false
namespace Sys2Proof.Machine
@[simp] theorem setSlot_tmb (pfx : Bool) (b : Bool) (x : ImgSlot) (c : Chip) : (setSlot pfx b x c).tmb = c.tmb := by
  simp [setSlot]
@[simp] theorem setSlot_pwr (pfx : Bool) (b : Bool) (x : ImgSlot) (c : Chip) : (setSlot pfx b x c).pwr = c.pwr := by
  simp [setSlot]
@[simp] theorem setSlot_sbc (pfx : Bool) (b : Bool) (x : ImgSlot) (c : Chip) : (setSlot pfx b x c).sbc = c.sbc := by
  simp [setSlot]
@[simp] theorem setSlot_tap (pfx : Bool) (b : Bool) (x : ImgSlot) (c : Chip) : (setSlot pfx b x c).tap = c.tap := by
  simp [setSlot]
@[simp] theorem setSlot_phy (pfx : Bool) (b : Bool) (x : ImgSlot) (c : Chip) : (setSlot pfx b x c).phy = c.phy := by
  simp [setSlot]
@[simp] theorem setSlot_lnk (pfx : Bool) (b : Bool) (x : ImgSlot) (c : Chip) : (setSlot pfx b x c).lnk = c.lnk := by
  simp [setSlot]
@[simp] theorem setSlot_prt (pfx : Bool) (b : Bool) (x : ImgSlot) (c : Chip) : (setSlot pfx b x c).prt = c.prt := by
  simp [setSlot]
@[simp] theorem setSlot_xbr (pfx : Bool) (b : Bool) (x : ImgSlot) (c : Chip) : (setSlot pfx b x c).xbr = c.xbr := by
  simp [setSlot]
@[simp] theorem setSlot_bnd (pfx : Bool) (b : Bool) (x : ImgSlot) (c : Chip) : (setSlot pfx b x c).bnd = c.bnd := by
  simp [setSlot]
@[simp] theorem setSlot_ten (pfx : Bool) (b : Bool) (x : ImgSlot) (c : Chip) : (setSlot pfx b x c).ten = c.ten := by
  simp [setSlot]
@[simp] theorem setSlot_slt (pfx : Bool) (b : Bool) (x : ImgSlot) (c : Chip) : (setSlot pfx b x c).slt = c.slt := by
  simp [setSlot]
@[simp] theorem setSlot_rol (pfx : Bool) (b : Bool) (x : ImgSlot) (c : Chip) : (setSlot pfx b x c).rol = c.rol := by
  simp [setSlot]
@[simp] theorem setSlot_txns (pfx : Bool) (b : Bool) (x : ImgSlot) (c : Chip) : (setSlot pfx b x c).txns = c.txns := by
  simp [setSlot]
@[simp] theorem setSlot_nextTxn (pfx : Bool) (b : Bool) (x : ImgSlot) (c : Chip) : (setSlot pfx b x c).nextTxn = c.nextTxn := by
  simp [setSlot]
@[simp] theorem setSlot_map (pfx : Bool) (b : Bool) (x : ImgSlot) (c : Chip) : (setSlot pfx b x c).map = c.map := by
  simp [setSlot]
@[simp] theorem setSlot_media (pfx : Bool) (b : Bool) (x : ImgSlot) (c : Chip) : (setSlot pfx b x c).media = c.media := by
  simp [setSlot]
@[simp] theorem setSlot_mrk (pfx : Bool) (b : Bool) (x : ImgSlot) (c : Chip) : (setSlot pfx b x c).mrk = c.mrk := by
  simp [setSlot]
@[simp] theorem setSlot_rak (pfx : Bool) (b : Bool) (x : ImgSlot) (c : Chip) : (setSlot pfx b x c).rak = c.rak := by
  simp [setSlot]
@[simp] theorem setSlot_car (pfx : Bool) (b : Bool) (x : ImgSlot) (c : Chip) : (setSlot pfx b x c).car = c.car := by
  simp [setSlot]
@[simp] theorem setSlot_slp (pfx : Bool) (b : Bool) (x : ImgSlot) (c : Chip) : (setSlot pfx b x c).slp = c.slp := by
  simp [setSlot]
@[simp] theorem setSlot_mgt (pfx : Bool) (b : Bool) (x : ImgSlot) (c : Chip) : (setSlot pfx b x c).mgt = c.mgt := by
  simp [setSlot]
@[simp] theorem setSlot_brg (pfx : Bool) (b : Bool) (x : ImgSlot) (c : Chip) : (setSlot pfx b x c).brg = c.brg := by
  simp [setSlot]
@[simp] theorem setSlot_sent (pfx : Bool) (b : Bool) (x : ImgSlot) (c : Chip) : (setSlot pfx b x c).sent = c.sent := by
  simp [setSlot]
@[simp] theorem setSlot_draws (pfx : Bool) (b : Bool) (x : ImgSlot) (c : Chip) : (setSlot pfx b x c).draws = c.draws := by
  simp [setSlot]
@[simp] theorem markActive_tmb (pfx : Bool) (b : Bool) (c : Chip) : (markActive pfx b c).tmb = c.tmb := by
  simp [markActive]
@[simp] theorem markActive_pwr (pfx : Bool) (b : Bool) (c : Chip) : (markActive pfx b c).pwr = c.pwr := by
  simp [markActive]
@[simp] theorem markActive_sbc (pfx : Bool) (b : Bool) (c : Chip) : (markActive pfx b c).sbc = c.sbc := by
  simp [markActive]
@[simp] theorem markActive_tap (pfx : Bool) (b : Bool) (c : Chip) : (markActive pfx b c).tap = c.tap := by
  simp [markActive]
@[simp] theorem markActive_phy (pfx : Bool) (b : Bool) (c : Chip) : (markActive pfx b c).phy = c.phy := by
  simp [markActive]
@[simp] theorem markActive_lnk (pfx : Bool) (b : Bool) (c : Chip) : (markActive pfx b c).lnk = c.lnk := by
  simp [markActive]
@[simp] theorem markActive_prt (pfx : Bool) (b : Bool) (c : Chip) : (markActive pfx b c).prt = c.prt := by
  simp [markActive]
@[simp] theorem markActive_xbr (pfx : Bool) (b : Bool) (c : Chip) : (markActive pfx b c).xbr = c.xbr := by
  simp [markActive]
@[simp] theorem markActive_bnd (pfx : Bool) (b : Bool) (c : Chip) : (markActive pfx b c).bnd = c.bnd := by
  simp [markActive]
@[simp] theorem markActive_ten (pfx : Bool) (b : Bool) (c : Chip) : (markActive pfx b c).ten = c.ten := by
  simp [markActive]
@[simp] theorem markActive_slt (pfx : Bool) (b : Bool) (c : Chip) : (markActive pfx b c).slt = c.slt := by
  simp [markActive]
@[simp] theorem markActive_rol (pfx : Bool) (b : Bool) (c : Chip) : (markActive pfx b c).rol = c.rol := by
  simp [markActive]
@[simp] theorem markActive_txns (pfx : Bool) (b : Bool) (c : Chip) : (markActive pfx b c).txns = c.txns := by
  simp [markActive]
@[simp] theorem markActive_nextTxn (pfx : Bool) (b : Bool) (c : Chip) : (markActive pfx b c).nextTxn = c.nextTxn := by
  simp [markActive]
@[simp] theorem markActive_map (pfx : Bool) (b : Bool) (c : Chip) : (markActive pfx b c).map = c.map := by
  simp [markActive]
@[simp] theorem markActive_media (pfx : Bool) (b : Bool) (c : Chip) : (markActive pfx b c).media = c.media := by
  simp [markActive]
@[simp] theorem markActive_mrk (pfx : Bool) (b : Bool) (c : Chip) : (markActive pfx b c).mrk = c.mrk := by
  simp [markActive]
@[simp] theorem markActive_rak (pfx : Bool) (b : Bool) (c : Chip) : (markActive pfx b c).rak = c.rak := by
  simp [markActive]
@[simp] theorem markActive_car (pfx : Bool) (b : Bool) (c : Chip) : (markActive pfx b c).car = c.car := by
  simp [markActive]
@[simp] theorem markActive_slp (pfx : Bool) (b : Bool) (c : Chip) : (markActive pfx b c).slp = c.slp := by
  simp [markActive]
@[simp] theorem markActive_mgt (pfx : Bool) (b : Bool) (c : Chip) : (markActive pfx b c).mgt = c.mgt := by
  simp [markActive]
@[simp] theorem markActive_brg (pfx : Bool) (b : Bool) (c : Chip) : (markActive pfx b c).brg = c.brg := by
  simp [markActive]
@[simp] theorem markActive_sent (pfx : Bool) (b : Bool) (c : Chip) : (markActive pfx b c).sent = c.sent := by
  simp [markActive]
@[simp] theorem markActive_draws (pfx : Bool) (b : Bool) (c : Chip) : (markActive pfx b c).draws = c.draws := by
  simp [markActive]
@[simp] theorem verify_tmb (pfx : Bool) (b : Bool) (c : Chip) : (verify pfx b c).2.tmb = c.tmb := by simp [verify]
@[simp] theorem verify_pwr (pfx : Bool) (b : Bool) (c : Chip) : (verify pfx b c).2.pwr = c.pwr := by simp [verify]
@[simp] theorem verify_sbc (pfx : Bool) (b : Bool) (c : Chip) : (verify pfx b c).2.sbc = c.sbc := by simp [verify]
@[simp] theorem verify_tap (pfx : Bool) (b : Bool) (c : Chip) : (verify pfx b c).2.tap = c.tap := by simp [verify]
@[simp] theorem verify_phy (pfx : Bool) (b : Bool) (c : Chip) : (verify pfx b c).2.phy = c.phy := by simp [verify]
@[simp] theorem verify_lnk (pfx : Bool) (b : Bool) (c : Chip) : (verify pfx b c).2.lnk = c.lnk := by simp [verify]
@[simp] theorem verify_prt (pfx : Bool) (b : Bool) (c : Chip) : (verify pfx b c).2.prt = c.prt := by simp [verify]
@[simp] theorem verify_xbr (pfx : Bool) (b : Bool) (c : Chip) : (verify pfx b c).2.xbr = c.xbr := by simp [verify]
@[simp] theorem verify_bnd (pfx : Bool) (b : Bool) (c : Chip) : (verify pfx b c).2.bnd = c.bnd := by simp [verify]
@[simp] theorem verify_ten (pfx : Bool) (b : Bool) (c : Chip) : (verify pfx b c).2.ten = c.ten := by simp [verify]
@[simp] theorem verify_slt (pfx : Bool) (b : Bool) (c : Chip) : (verify pfx b c).2.slt = c.slt := by simp [verify]
@[simp] theorem verify_rol (pfx : Bool) (b : Bool) (c : Chip) : (verify pfx b c).2.rol = c.rol := by simp [verify]
@[simp] theorem verify_txns (pfx : Bool) (b : Bool) (c : Chip) : (verify pfx b c).2.txns = c.txns := by simp [verify]
@[simp] theorem verify_nextTxn (pfx : Bool) (b : Bool) (c : Chip) : (verify pfx b c).2.nextTxn = c.nextTxn := by
  simp [verify]
@[simp] theorem verify_map (pfx : Bool) (b : Bool) (c : Chip) : (verify pfx b c).2.map = c.map := by simp [verify]
@[simp] theorem verify_media (pfx : Bool) (b : Bool) (c : Chip) : (verify pfx b c).2.media = c.media := by
  simp [verify]
@[simp] theorem verify_mrk (pfx : Bool) (b : Bool) (c : Chip) : (verify pfx b c).2.mrk = c.mrk := by simp [verify]
@[simp] theorem verify_rak (pfx : Bool) (b : Bool) (c : Chip) : (verify pfx b c).2.rak = c.rak := by simp [verify]
@[simp] theorem verify_car (pfx : Bool) (b : Bool) (c : Chip) : (verify pfx b c).2.car = c.car := by simp [verify]
@[simp] theorem verify_slp (pfx : Bool) (b : Bool) (c : Chip) : (verify pfx b c).2.slp = c.slp := by simp [verify]
@[simp] theorem verify_mgt (pfx : Bool) (b : Bool) (c : Chip) : (verify pfx b c).2.mgt = c.mgt := by simp [verify]
@[simp] theorem verify_brg (pfx : Bool) (b : Bool) (c : Chip) : (verify pfx b c).2.brg = c.brg := by simp [verify]
@[simp] theorem verify_sent (pfx : Bool) (b : Bool) (c : Chip) : (verify pfx b c).2.sent = c.sent := by simp [verify]
@[simp] theorem verify_draws (pfx : Bool) (b : Bool) (c : Chip) : (verify pfx b c).2.draws = c.draws := by
  simp [verify]
@[simp] theorem coreRun_tmb (core : Nat) (c : Chip) : (coreRun core c).tmb = c.tmb := by simp [coreRun]
@[simp] theorem coreRun_pwr (core : Nat) (c : Chip) : (coreRun core c).pwr = c.pwr := by simp [coreRun]
@[simp] theorem coreRun_sbc (core : Nat) (c : Chip) : (coreRun core c).sbc = c.sbc := by simp [coreRun]
@[simp] theorem coreRun_tap (core : Nat) (c : Chip) : (coreRun core c).tap = c.tap := by simp [coreRun]
@[simp] theorem coreRun_phy (core : Nat) (c : Chip) : (coreRun core c).phy = c.phy := by simp [coreRun]
@[simp] theorem coreRun_lnk (core : Nat) (c : Chip) : (coreRun core c).lnk = c.lnk := by simp [coreRun]
@[simp] theorem coreRun_prt (core : Nat) (c : Chip) : (coreRun core c).prt = c.prt := by simp [coreRun]
@[simp] theorem coreRun_xbr (core : Nat) (c : Chip) : (coreRun core c).xbr = c.xbr := by simp [coreRun]
@[simp] theorem coreRun_bnd (core : Nat) (c : Chip) : (coreRun core c).bnd = c.bnd := by simp [coreRun]
@[simp] theorem coreRun_ten (core : Nat) (c : Chip) : (coreRun core c).ten = c.ten := by simp [coreRun]
@[simp] theorem coreRun_slt (core : Nat) (c : Chip) : (coreRun core c).slt = c.slt := by simp [coreRun]
@[simp] theorem coreRun_rol (core : Nat) (c : Chip) : (coreRun core c).rol = c.rol := by simp [coreRun]
@[simp] theorem coreRun_txns (core : Nat) (c : Chip) : (coreRun core c).txns = c.txns := by simp [coreRun]
@[simp] theorem coreRun_nextTxn (core : Nat) (c : Chip) : (coreRun core c).nextTxn = c.nextTxn := by simp [coreRun]
@[simp] theorem coreRun_map (core : Nat) (c : Chip) : (coreRun core c).map = c.map := by simp [coreRun]
@[simp] theorem coreRun_media (core : Nat) (c : Chip) : (coreRun core c).media = c.media := by simp [coreRun]
@[simp] theorem coreRun_mrk (core : Nat) (c : Chip) : (coreRun core c).mrk = c.mrk := by simp [coreRun]
@[simp] theorem coreRun_rak (core : Nat) (c : Chip) : (coreRun core c).rak = c.rak := by simp [coreRun]
@[simp] theorem coreRun_car (core : Nat) (c : Chip) : (coreRun core c).car = c.car := by simp [coreRun]
@[simp] theorem coreRun_slp (core : Nat) (c : Chip) : (coreRun core c).slp = c.slp := by simp [coreRun]
@[simp] theorem coreRun_mgt (core : Nat) (c : Chip) : (coreRun core c).mgt = c.mgt := by simp [coreRun]
@[simp] theorem coreRun_brg (core : Nat) (c : Chip) : (coreRun core c).brg = c.brg := by simp [coreRun]
@[simp] theorem coreRun_sent (core : Nat) (c : Chip) : (coreRun core c).sent = c.sent := by simp [coreRun]
@[simp] theorem coreRun_draws (core : Nat) (c : Chip) : (coreRun core c).draws = c.draws := by simp [coreRun]
@[simp] theorem runCores_tmb (c : Chip) : (runCores c).tmb = c.tmb := by simp [runCores, forEach]
@[simp] theorem runCores_pwr (c : Chip) : (runCores c).pwr = c.pwr := by simp [runCores, forEach]
@[simp] theorem runCores_sbc (c : Chip) : (runCores c).sbc = c.sbc := by simp [runCores, forEach]
@[simp] theorem runCores_tap (c : Chip) : (runCores c).tap = c.tap := by simp [runCores, forEach]
@[simp] theorem runCores_phy (c : Chip) : (runCores c).phy = c.phy := by simp [runCores, forEach]
@[simp] theorem runCores_lnk (c : Chip) : (runCores c).lnk = c.lnk := by simp [runCores, forEach]
@[simp] theorem runCores_prt (c : Chip) : (runCores c).prt = c.prt := by simp [runCores, forEach]
@[simp] theorem runCores_xbr (c : Chip) : (runCores c).xbr = c.xbr := by simp [runCores, forEach]
@[simp] theorem runCores_bnd (c : Chip) : (runCores c).bnd = c.bnd := by simp [runCores, forEach]
@[simp] theorem runCores_ten (c : Chip) : (runCores c).ten = c.ten := by simp [runCores, forEach]
@[simp] theorem runCores_slt (c : Chip) : (runCores c).slt = c.slt := by simp [runCores, forEach]
@[simp] theorem runCores_rol (c : Chip) : (runCores c).rol = c.rol := by simp [runCores, forEach]
@[simp] theorem runCores_txns (c : Chip) : (runCores c).txns = c.txns := by simp [runCores, forEach]
@[simp] theorem runCores_nextTxn (c : Chip) : (runCores c).nextTxn = c.nextTxn := by simp [runCores, forEach]
@[simp] theorem runCores_map (c : Chip) : (runCores c).map = c.map := by simp [runCores, forEach]
@[simp] theorem runCores_media (c : Chip) : (runCores c).media = c.media := by simp [runCores, forEach]
@[simp] theorem runCores_mrk (c : Chip) : (runCores c).mrk = c.mrk := by simp [runCores, forEach]
@[simp] theorem runCores_rak (c : Chip) : (runCores c).rak = c.rak := by simp [runCores, forEach]
@[simp] theorem runCores_car (c : Chip) : (runCores c).car = c.car := by simp [runCores, forEach]
@[simp] theorem runCores_slp (c : Chip) : (runCores c).slp = c.slp := by simp [runCores, forEach]
@[simp] theorem runCores_mgt (c : Chip) : (runCores c).mgt = c.mgt := by simp [runCores, forEach]
@[simp] theorem runCores_brg (c : Chip) : (runCores c).brg = c.brg := by simp [runCores, forEach]
@[simp] theorem runCores_sent (c : Chip) : (runCores c).sent = c.sent := by simp [runCores, forEach]
@[simp] theorem runCores_draws (c : Chip) : (runCores c).draws = c.draws := by simp [runCores, forEach]
@[simp] theorem bootType_tmb (pfx : Bool) (c : Chip) : (bootType pfx c).2.tmb = c.tmb := by
  unfold bootType; (try dsimp only) <;> (repeat' split) <;> simp
@[simp] theorem bootType_pwr (pfx : Bool) (c : Chip) : (bootType pfx c).2.pwr = c.pwr := by
  unfold bootType; (try dsimp only) <;> (repeat' split) <;> simp
@[simp] theorem bootType_sbc (pfx : Bool) (c : Chip) : (bootType pfx c).2.sbc = c.sbc := by
  unfold bootType; (try dsimp only) <;> (repeat' split) <;> simp
@[simp] theorem bootType_tap (pfx : Bool) (c : Chip) : (bootType pfx c).2.tap = c.tap := by
  unfold bootType; (try dsimp only) <;> (repeat' split) <;> simp
@[simp] theorem bootType_phy (pfx : Bool) (c : Chip) : (bootType pfx c).2.phy = c.phy := by
  unfold bootType; (try dsimp only) <;> (repeat' split) <;> simp
@[simp] theorem bootType_lnk (pfx : Bool) (c : Chip) : (bootType pfx c).2.lnk = c.lnk := by
  unfold bootType; (try dsimp only) <;> (repeat' split) <;> simp
@[simp] theorem bootType_prt (pfx : Bool) (c : Chip) : (bootType pfx c).2.prt = c.prt := by
  unfold bootType; (try dsimp only) <;> (repeat' split) <;> simp
@[simp] theorem bootType_xbr (pfx : Bool) (c : Chip) : (bootType pfx c).2.xbr = c.xbr := by
  unfold bootType; (try dsimp only) <;> (repeat' split) <;> simp
@[simp] theorem bootType_bnd (pfx : Bool) (c : Chip) : (bootType pfx c).2.bnd = c.bnd := by
  unfold bootType; (try dsimp only) <;> (repeat' split) <;> simp
@[simp] theorem bootType_ten (pfx : Bool) (c : Chip) : (bootType pfx c).2.ten = c.ten := by
  unfold bootType; (try dsimp only) <;> (repeat' split) <;> simp
@[simp] theorem bootType_slt (pfx : Bool) (c : Chip) : (bootType pfx c).2.slt = c.slt := by
  unfold bootType; (try dsimp only) <;> (repeat' split) <;> simp
@[simp] theorem bootType_rol (pfx : Bool) (c : Chip) : (bootType pfx c).2.rol = c.rol := by
  unfold bootType; (try dsimp only) <;> (repeat' split) <;> simp
@[simp] theorem bootType_txns (pfx : Bool) (c : Chip) : (bootType pfx c).2.txns = c.txns := by
  unfold bootType; (try dsimp only) <;> (repeat' split) <;> simp
@[simp] theorem bootType_nextTxn (pfx : Bool) (c : Chip) : (bootType pfx c).2.nextTxn = c.nextTxn := by
  unfold bootType; (try dsimp only) <;> (repeat' split) <;> simp
@[simp] theorem bootType_map (pfx : Bool) (c : Chip) : (bootType pfx c).2.map = c.map := by
  unfold bootType; (try dsimp only) <;> (repeat' split) <;> simp
@[simp] theorem bootType_media (pfx : Bool) (c : Chip) : (bootType pfx c).2.media = c.media := by
  unfold bootType; (try dsimp only) <;> (repeat' split) <;> simp
@[simp] theorem bootType_mrk (pfx : Bool) (c : Chip) : (bootType pfx c).2.mrk = c.mrk := by
  unfold bootType; (try dsimp only) <;> (repeat' split) <;> simp
@[simp] theorem bootType_rak (pfx : Bool) (c : Chip) : (bootType pfx c).2.rak = c.rak := by
  unfold bootType; (try dsimp only) <;> (repeat' split) <;> simp
@[simp] theorem bootType_car (pfx : Bool) (c : Chip) : (bootType pfx c).2.car = c.car := by
  unfold bootType; (try dsimp only) <;> (repeat' split) <;> simp
@[simp] theorem bootType_slp (pfx : Bool) (c : Chip) : (bootType pfx c).2.slp = c.slp := by
  unfold bootType; (try dsimp only) <;> (repeat' split) <;> simp
@[simp] theorem bootType_mgt (pfx : Bool) (c : Chip) : (bootType pfx c).2.mgt = c.mgt := by
  unfold bootType; (try dsimp only) <;> (repeat' split) <;> simp
@[simp] theorem bootType_brg (pfx : Bool) (c : Chip) : (bootType pfx c).2.brg = c.brg := by
  unfold bootType; (try dsimp only) <;> (repeat' split) <;> simp
@[simp] theorem bootType_sent (pfx : Bool) (c : Chip) : (bootType pfx c).2.sent = c.sent := by
  unfold bootType; (try dsimp only) <;> (repeat' split) <;> simp
@[simp] theorem bootType_draws (pfx : Bool) (c : Chip) : (bootType pfx c).2.draws = c.draws := by
  unfold bootType; (try dsimp only) <;> (repeat' split) <;> simp
@[simp] theorem deriveAlias_tmb (c : Chip) : (deriveAlias c).tmb = c.tmb := by simp [deriveAlias]
@[simp] theorem deriveAlias_pwr (c : Chip) : (deriveAlias c).pwr = c.pwr := by simp [deriveAlias]
@[simp] theorem deriveAlias_sbc (c : Chip) : (deriveAlias c).sbc = c.sbc := by simp [deriveAlias]
@[simp] theorem deriveAlias_tap (c : Chip) : (deriveAlias c).tap = c.tap := by simp [deriveAlias]
@[simp] theorem deriveAlias_phy (c : Chip) : (deriveAlias c).phy = c.phy := by simp [deriveAlias]
@[simp] theorem deriveAlias_lnk (c : Chip) : (deriveAlias c).lnk = c.lnk := by simp [deriveAlias]
@[simp] theorem deriveAlias_prt (c : Chip) : (deriveAlias c).prt = c.prt := by simp [deriveAlias]
@[simp] theorem deriveAlias_xbr (c : Chip) : (deriveAlias c).xbr = c.xbr := by simp [deriveAlias]
@[simp] theorem deriveAlias_bnd (c : Chip) : (deriveAlias c).bnd = c.bnd := by simp [deriveAlias]
@[simp] theorem deriveAlias_ten (c : Chip) : (deriveAlias c).ten = c.ten := by simp [deriveAlias]
@[simp] theorem deriveAlias_slt (c : Chip) : (deriveAlias c).slt = c.slt := by simp [deriveAlias]
@[simp] theorem deriveAlias_rol (c : Chip) : (deriveAlias c).rol = c.rol := by simp [deriveAlias]
@[simp] theorem deriveAlias_txns (c : Chip) : (deriveAlias c).txns = c.txns := by simp [deriveAlias]
@[simp] theorem deriveAlias_nextTxn (c : Chip) : (deriveAlias c).nextTxn = c.nextTxn := by simp [deriveAlias]
@[simp] theorem deriveAlias_map (c : Chip) : (deriveAlias c).map = c.map := by simp [deriveAlias]
@[simp] theorem deriveAlias_media (c : Chip) : (deriveAlias c).media = c.media := by simp [deriveAlias]
@[simp] theorem deriveAlias_mrk (c : Chip) : (deriveAlias c).mrk = c.mrk := by simp [deriveAlias]
@[simp] theorem deriveAlias_rak (c : Chip) : (deriveAlias c).rak = c.rak := by simp [deriveAlias]
@[simp] theorem deriveAlias_car (c : Chip) : (deriveAlias c).car = c.car := by simp [deriveAlias]
@[simp] theorem deriveAlias_slp (c : Chip) : (deriveAlias c).slp = c.slp := by simp [deriveAlias]
@[simp] theorem deriveAlias_mgt (c : Chip) : (deriveAlias c).mgt = c.mgt := by simp [deriveAlias]
@[simp] theorem deriveAlias_brg (c : Chip) : (deriveAlias c).brg = c.brg := by simp [deriveAlias]
@[simp] theorem deriveAlias_sent (c : Chip) : (deriveAlias c).sent = c.sent := by simp [deriveAlias]
@[simp] theorem deriveAlias_draws (c : Chip) : (deriveAlias c).draws = c.draws := by simp [deriveAlias]
@[simp] theorem bootMgt_tmb (c : Chip) : (bootMgt c).tmb = c.tmb := by
  unfold bootMgt whenB; (try dsimp only) <;> split <;> simp
@[simp] theorem bootMgt_pwr (c : Chip) : (bootMgt c).pwr = c.pwr := by
  unfold bootMgt whenB; (try dsimp only) <;> split <;> simp
@[simp] theorem bootMgt_sbc (c : Chip) : (bootMgt c).sbc = c.sbc := by
  unfold bootMgt whenB; (try dsimp only) <;> split <;> simp
@[simp] theorem bootMgt_tap (c : Chip) : (bootMgt c).tap = c.tap := by
  unfold bootMgt whenB; (try dsimp only) <;> split <;> simp
@[simp] theorem bootMgt_phy (c : Chip) : (bootMgt c).phy = c.phy := by
  unfold bootMgt whenB; (try dsimp only) <;> split <;> simp
@[simp] theorem bootMgt_lnk (c : Chip) : (bootMgt c).lnk = c.lnk := by
  unfold bootMgt whenB; (try dsimp only) <;> split <;> simp
@[simp] theorem bootMgt_prt (c : Chip) : (bootMgt c).prt = c.prt := by
  unfold bootMgt whenB; (try dsimp only) <;> split <;> simp
@[simp] theorem bootMgt_xbr (c : Chip) : (bootMgt c).xbr = c.xbr := by
  unfold bootMgt whenB; (try dsimp only) <;> split <;> simp
@[simp] theorem bootMgt_bnd (c : Chip) : (bootMgt c).bnd = c.bnd := by
  unfold bootMgt whenB; (try dsimp only) <;> split <;> simp
@[simp] theorem bootMgt_ten (c : Chip) : (bootMgt c).ten = c.ten := by
  unfold bootMgt whenB; (try dsimp only) <;> split <;> simp
@[simp] theorem bootMgt_slt (c : Chip) : (bootMgt c).slt = c.slt := by
  unfold bootMgt whenB; (try dsimp only) <;> split <;> simp
@[simp] theorem bootMgt_rol (c : Chip) : (bootMgt c).rol = c.rol := by
  unfold bootMgt whenB; (try dsimp only) <;> split <;> simp
@[simp] theorem bootMgt_txns (c : Chip) : (bootMgt c).txns = c.txns := by
  unfold bootMgt whenB; (try dsimp only) <;> split <;> simp
@[simp] theorem bootMgt_nextTxn (c : Chip) : (bootMgt c).nextTxn = c.nextTxn := by
  unfold bootMgt whenB; (try dsimp only) <;> split <;> simp
@[simp] theorem bootMgt_map (c : Chip) : (bootMgt c).map = c.map := by
  unfold bootMgt whenB; (try dsimp only) <;> split <;> simp
@[simp] theorem bootMgt_media (c : Chip) : (bootMgt c).media = c.media := by
  unfold bootMgt whenB; (try dsimp only) <;> split <;> simp
@[simp] theorem bootMgt_mrk (c : Chip) : (bootMgt c).mrk = c.mrk := by
  unfold bootMgt whenB; (try dsimp only) <;> split <;> simp
@[simp] theorem bootMgt_rak (c : Chip) : (bootMgt c).rak = c.rak := by
  unfold bootMgt whenB; (try dsimp only) <;> split <;> simp
@[simp] theorem bootMgt_car (c : Chip) : (bootMgt c).car = c.car := by
  unfold bootMgt whenB; (try dsimp only) <;> split <;> simp
@[simp] theorem bootMgt_slp (c : Chip) : (bootMgt c).slp = c.slp := by
  unfold bootMgt whenB; (try dsimp only) <;> split <;> simp
@[simp] theorem bootMgt_mgt (c : Chip) : (bootMgt c).mgt = c.mgt := by
  unfold bootMgt whenB; (try dsimp only) <;> split <;> simp
@[simp] theorem bootMgt_brg (c : Chip) : (bootMgt c).brg = c.brg := by
  unfold bootMgt whenB; (try dsimp only) <;> split <;> simp
@[simp] theorem bootMgt_sent (c : Chip) : (bootMgt c).sent = c.sent := by
  unfold bootMgt whenB; (try dsimp only) <;> split <;> simp
@[simp] theorem bootMgt_draws (c : Chip) : (bootMgt c).draws = c.draws := by
  unfold bootMgt whenB; (try dsimp only) <;> split <;> simp
@[simp] theorem bootPfx_tmb (c : Chip) : (bootPfx c).tmb = c.tmb := by simp [bootPfx]
@[simp] theorem bootPfx_pwr (c : Chip) : (bootPfx c).pwr = c.pwr := by simp [bootPfx]
@[simp] theorem bootPfx_sbc (c : Chip) : (bootPfx c).sbc = c.sbc := by simp [bootPfx]
@[simp] theorem bootPfx_tap (c : Chip) : (bootPfx c).tap = c.tap := by simp [bootPfx]
@[simp] theorem bootPfx_phy (c : Chip) : (bootPfx c).phy = c.phy := by simp [bootPfx]
@[simp] theorem bootPfx_lnk (c : Chip) : (bootPfx c).lnk = c.lnk := by simp [bootPfx]
@[simp] theorem bootPfx_prt (c : Chip) : (bootPfx c).prt = c.prt := by simp [bootPfx]
@[simp] theorem bootPfx_xbr (c : Chip) : (bootPfx c).xbr = c.xbr := by simp [bootPfx]
@[simp] theorem bootPfx_bnd (c : Chip) : (bootPfx c).bnd = c.bnd := by simp [bootPfx]
@[simp] theorem bootPfx_ten (c : Chip) : (bootPfx c).ten = c.ten := by simp [bootPfx]
@[simp] theorem bootPfx_slt (c : Chip) : (bootPfx c).slt = c.slt := by simp [bootPfx]
@[simp] theorem bootPfx_rol (c : Chip) : (bootPfx c).rol = c.rol := by simp [bootPfx]
@[simp] theorem bootPfx_txns (c : Chip) : (bootPfx c).txns = c.txns := by simp [bootPfx]
@[simp] theorem bootPfx_nextTxn (c : Chip) : (bootPfx c).nextTxn = c.nextTxn := by simp [bootPfx]
@[simp] theorem bootPfx_map (c : Chip) : (bootPfx c).map = c.map := by simp [bootPfx]
@[simp] theorem bootPfx_media (c : Chip) : (bootPfx c).media = c.media := by simp [bootPfx]
@[simp] theorem bootPfx_mrk (c : Chip) : (bootPfx c).mrk = c.mrk := by simp [bootPfx]
@[simp] theorem bootPfx_rak (c : Chip) : (bootPfx c).rak = c.rak := by simp [bootPfx]
@[simp] theorem bootPfx_car (c : Chip) : (bootPfx c).car = c.car := by simp [bootPfx]
@[simp] theorem bootPfx_slp (c : Chip) : (bootPfx c).slp = c.slp := by simp [bootPfx]
@[simp] theorem bootPfx_mgt (c : Chip) : (bootPfx c).mgt = c.mgt := by simp [bootPfx]
@[simp] theorem bootPfx_brg (c : Chip) : (bootPfx c).brg = c.brg := by simp [bootPfx]
@[simp] theorem bootPfx_sent (c : Chip) : (bootPfx c).sent = c.sent := by simp [bootPfx]
@[simp] theorem bootPfx_draws (c : Chip) : (bootPfx c).draws = c.draws := by simp [bootPfx]
@[simp] theorem setOpen_tmb (o : Option Bool) (c : Chip) : (setOpen o c).tmb = c.tmb := by simp [setOpen]
@[simp] theorem setOpen_pwr (o : Option Bool) (c : Chip) : (setOpen o c).pwr = c.pwr := by simp [setOpen]
@[simp] theorem setOpen_sbc (o : Option Bool) (c : Chip) : (setOpen o c).sbc = c.sbc := by simp [setOpen]
@[simp] theorem setOpen_tap (o : Option Bool) (c : Chip) : (setOpen o c).tap = c.tap := by simp [setOpen]
@[simp] theorem setOpen_phy (o : Option Bool) (c : Chip) : (setOpen o c).phy = c.phy := by simp [setOpen]
@[simp] theorem setOpen_lnk (o : Option Bool) (c : Chip) : (setOpen o c).lnk = c.lnk := by simp [setOpen]
@[simp] theorem setOpen_prt (o : Option Bool) (c : Chip) : (setOpen o c).prt = c.prt := by simp [setOpen]
@[simp] theorem setOpen_xbr (o : Option Bool) (c : Chip) : (setOpen o c).xbr = c.xbr := by simp [setOpen]
@[simp] theorem setOpen_bnd (o : Option Bool) (c : Chip) : (setOpen o c).bnd = c.bnd := by simp [setOpen]
@[simp] theorem setOpen_ten (o : Option Bool) (c : Chip) : (setOpen o c).ten = c.ten := by simp [setOpen]
@[simp] theorem setOpen_slt (o : Option Bool) (c : Chip) : (setOpen o c).slt = c.slt := by simp [setOpen]
@[simp] theorem setOpen_rol (o : Option Bool) (c : Chip) : (setOpen o c).rol = c.rol := by simp [setOpen]
@[simp] theorem setOpen_txns (o : Option Bool) (c : Chip) : (setOpen o c).txns = c.txns := by simp [setOpen]
@[simp] theorem setOpen_nextTxn (o : Option Bool) (c : Chip) : (setOpen o c).nextTxn = c.nextTxn := by simp [setOpen]
@[simp] theorem setOpen_map (o : Option Bool) (c : Chip) : (setOpen o c).map = c.map := by simp [setOpen]
@[simp] theorem setOpen_media (o : Option Bool) (c : Chip) : (setOpen o c).media = c.media := by simp [setOpen]
@[simp] theorem setOpen_mrk (o : Option Bool) (c : Chip) : (setOpen o c).mrk = c.mrk := by simp [setOpen]
@[simp] theorem setOpen_rak (o : Option Bool) (c : Chip) : (setOpen o c).rak = c.rak := by simp [setOpen]
@[simp] theorem setOpen_car (o : Option Bool) (c : Chip) : (setOpen o c).car = c.car := by simp [setOpen]
@[simp] theorem setOpen_slp (o : Option Bool) (c : Chip) : (setOpen o c).slp = c.slp := by simp [setOpen]
@[simp] theorem setOpen_mgt (o : Option Bool) (c : Chip) : (setOpen o c).mgt = c.mgt := by simp [setOpen]
@[simp] theorem setOpen_brg (o : Option Bool) (c : Chip) : (setOpen o c).brg = c.brg := by simp [setOpen]
@[simp] theorem setOpen_sent (o : Option Bool) (c : Chip) : (setOpen o c).sent = c.sent := by simp [setOpen]
@[simp] theorem setOpen_draws (o : Option Bool) (c : Chip) : (setOpen o c).draws = c.draws := by simp [setOpen]
@[simp] theorem abandonUpdate_tmb (c : Chip) : (abandonUpdate c).tmb = c.tmb := by
  unfold abandonUpdate; split <;> simp
@[simp] theorem abandonUpdate_pwr (c : Chip) : (abandonUpdate c).pwr = c.pwr := by
  unfold abandonUpdate; split <;> simp
@[simp] theorem abandonUpdate_sbc (c : Chip) : (abandonUpdate c).sbc = c.sbc := by
  unfold abandonUpdate; split <;> simp
@[simp] theorem abandonUpdate_tap (c : Chip) : (abandonUpdate c).tap = c.tap := by
  unfold abandonUpdate; split <;> simp
@[simp] theorem abandonUpdate_phy (c : Chip) : (abandonUpdate c).phy = c.phy := by
  unfold abandonUpdate; split <;> simp
@[simp] theorem abandonUpdate_lnk (c : Chip) : (abandonUpdate c).lnk = c.lnk := by
  unfold abandonUpdate; split <;> simp
@[simp] theorem abandonUpdate_prt (c : Chip) : (abandonUpdate c).prt = c.prt := by
  unfold abandonUpdate; split <;> simp
@[simp] theorem abandonUpdate_xbr (c : Chip) : (abandonUpdate c).xbr = c.xbr := by
  unfold abandonUpdate; split <;> simp
@[simp] theorem abandonUpdate_bnd (c : Chip) : (abandonUpdate c).bnd = c.bnd := by
  unfold abandonUpdate; split <;> simp
@[simp] theorem abandonUpdate_ten (c : Chip) : (abandonUpdate c).ten = c.ten := by
  unfold abandonUpdate; split <;> simp
@[simp] theorem abandonUpdate_slt (c : Chip) : (abandonUpdate c).slt = c.slt := by
  unfold abandonUpdate; split <;> simp
@[simp] theorem abandonUpdate_rol (c : Chip) : (abandonUpdate c).rol = c.rol := by
  unfold abandonUpdate; split <;> simp
@[simp] theorem abandonUpdate_txns (c : Chip) : (abandonUpdate c).txns = c.txns := by
  unfold abandonUpdate; split <;> simp
@[simp] theorem abandonUpdate_nextTxn (c : Chip) : (abandonUpdate c).nextTxn = c.nextTxn := by
  unfold abandonUpdate; split <;> simp
@[simp] theorem abandonUpdate_map (c : Chip) : (abandonUpdate c).map = c.map := by
  unfold abandonUpdate; split <;> simp
@[simp] theorem abandonUpdate_media (c : Chip) : (abandonUpdate c).media = c.media := by
  unfold abandonUpdate; split <;> simp
@[simp] theorem abandonUpdate_mrk (c : Chip) : (abandonUpdate c).mrk = c.mrk := by
  unfold abandonUpdate; split <;> simp
@[simp] theorem abandonUpdate_rak (c : Chip) : (abandonUpdate c).rak = c.rak := by
  unfold abandonUpdate; split <;> simp
@[simp] theorem abandonUpdate_car (c : Chip) : (abandonUpdate c).car = c.car := by
  unfold abandonUpdate; split <;> simp
@[simp] theorem abandonUpdate_slp (c : Chip) : (abandonUpdate c).slp = c.slp := by
  unfold abandonUpdate; split <;> simp
@[simp] theorem abandonUpdate_mgt (c : Chip) : (abandonUpdate c).mgt = c.mgt := by
  unfold abandonUpdate; split <;> simp
@[simp] theorem abandonUpdate_brg (c : Chip) : (abandonUpdate c).brg = c.brg := by
  unfold abandonUpdate; split <;> simp
@[simp] theorem abandonUpdate_sent (c : Chip) : (abandonUpdate c).sent = c.sent := by
  unfold abandonUpdate; split <;> simp
@[simp] theorem abandonUpdate_draws (c : Chip) : (abandonUpdate c).draws = c.draws := by
  unfold abandonUpdate; split <;> simp
@[simp] theorem deriveKeys_tmb (c : Chip) : (deriveKeys c).tmb = c.tmb := by unfold deriveKeys; split <;> simp
@[simp] theorem deriveKeys_pwr (c : Chip) : (deriveKeys c).pwr = c.pwr := by unfold deriveKeys; split <;> simp
@[simp] theorem deriveKeys_sbc (c : Chip) : (deriveKeys c).sbc = c.sbc := by unfold deriveKeys; split <;> simp
@[simp] theorem deriveKeys_tap (c : Chip) : (deriveKeys c).tap = c.tap := by unfold deriveKeys; split <;> simp
@[simp] theorem deriveKeys_phy (c : Chip) : (deriveKeys c).phy = c.phy := by unfold deriveKeys; split <;> simp
@[simp] theorem deriveKeys_lnk (c : Chip) : (deriveKeys c).lnk = c.lnk := by unfold deriveKeys; split <;> simp
@[simp] theorem deriveKeys_prt (c : Chip) : (deriveKeys c).prt = c.prt := by unfold deriveKeys; split <;> simp
@[simp] theorem deriveKeys_xbr (c : Chip) : (deriveKeys c).xbr = c.xbr := by unfold deriveKeys; split <;> simp
@[simp] theorem deriveKeys_bnd (c : Chip) : (deriveKeys c).bnd = c.bnd := by unfold deriveKeys; split <;> simp
@[simp] theorem deriveKeys_ten (c : Chip) : (deriveKeys c).ten = c.ten := by unfold deriveKeys; split <;> simp
@[simp] theorem deriveKeys_slt (c : Chip) : (deriveKeys c).slt = c.slt := by unfold deriveKeys; split <;> simp
@[simp] theorem deriveKeys_rol (c : Chip) : (deriveKeys c).rol = c.rol := by unfold deriveKeys; split <;> simp
@[simp] theorem deriveKeys_txns (c : Chip) : (deriveKeys c).txns = c.txns := by unfold deriveKeys; split <;> simp
@[simp] theorem deriveKeys_nextTxn (c : Chip) : (deriveKeys c).nextTxn = c.nextTxn := by
  unfold deriveKeys; split <;> simp
@[simp] theorem deriveKeys_map (c : Chip) : (deriveKeys c).map = c.map := by unfold deriveKeys; split <;> simp
@[simp] theorem deriveKeys_media (c : Chip) : (deriveKeys c).media = c.media := by unfold deriveKeys; split <;> simp
@[simp] theorem deriveKeys_mrk (c : Chip) : (deriveKeys c).mrk = c.mrk := by unfold deriveKeys; split <;> simp
@[simp] theorem deriveKeys_rak (c : Chip) : (deriveKeys c).rak = c.rak := by unfold deriveKeys; split <;> simp
@[simp] theorem deriveKeys_car (c : Chip) : (deriveKeys c).car = c.car := by unfold deriveKeys; split <;> simp
@[simp] theorem deriveKeys_slp (c : Chip) : (deriveKeys c).slp = c.slp := by unfold deriveKeys; split <;> simp
@[simp] theorem deriveKeys_mgt (c : Chip) : (deriveKeys c).mgt = c.mgt := by unfold deriveKeys; split <;> simp
@[simp] theorem deriveKeys_brg (c : Chip) : (deriveKeys c).brg = c.brg := by unfold deriveKeys; split <;> simp
@[simp] theorem deriveKeys_sent (c : Chip) : (deriveKeys c).sent = c.sent := by unfold deriveKeys; split <;> simp
@[simp] theorem deriveKeys_draws (c : Chip) : (deriveKeys c).draws = c.draws := by unfold deriveKeys; split <;> simp

end Sys2Proof.Machine
end

