-- ==== Sys2Proof/Laws/Time.lean ====
section
/-!
SUPPORT. TMB_NOW stays through every operation of the part but cold resets and the idle step.
-/
set_option linter.unusedSimpArgs false
namespace Sys2Proof.Machine

theorem forEach_now {α : Type} (l : List α) (f : α → Chip → Chip) (c : Chip)
    (h : ∀ x c, (f x c).tmb.now = c.tmb.now) : (forEach l f c).tmb.now = c.tmb.now := by
  induction l generalizing c with
  | nil => rfl
  | cons x xs ih => exact (ih _).trans (h x c)

@[simp] theorem whenB_now (b : Bool) (f : Chip → Chip) (c : Chip) (hf : ∀  c, (f  c).tmb.now = c.tmb.now) :
    (whenB b f c).tmb.now = c.tmb.now := by
  unfold whenB; (try dsimp only) <;> (repeat' split) <;> simp [*, forEach_now]
@[simp] theorem setFi_now (X : Fld) (n : Nat) (i : Nat) (v : Nat) (c : Chip) :
    (setFi X n i v c).tmb.now = c.tmb.now := by
  simp [setFi]
@[simp] theorem setF_now (X : Fld) (n : Nat) (v : Nat) (c : Chip) : (setF X n v c).tmb.now = c.tmb.now := by
  simp [setF]
@[simp] theorem setLane_now (X : Fld) (l : Nat) (v : Nat) (c : Chip) : (setLane X l v c).tmb.now = c.tmb.now := by
  simp [setLane]
@[simp] theorem bumpF_now (X : Fld) (n : Nat) (k : Nat) (c : Chip) : (bumpF X n k c).tmb.now = c.tmb.now := by
  simp [bumpF]
@[simp] theorem wrapF_now (X : Fld) (n : Nat) (k : Nat) (c : Chip) : (wrapF X n k c).tmb.now = c.tmb.now := by
  simp [wrapF]
@[simp] theorem resetF_now (X : Fld) (n : Nat) (c : Chip) : (resetF X n c).tmb.now = c.tmb.now := by
  simp [resetF]
@[simp] theorem setF64_now (L : Fld) (H : Fld) (n : Nat) (v : Nat) (c : Chip) :
    (setF64 L H n v c).tmb.now = c.tmb.now := by
  simp [setF64]
@[simp] theorem send_now (o : Out) (c : Chip) : (send o c).tmb.now = c.tmb.now := by
  simp [send]
@[simp] theorem takeDraw_now (c : Chip) : (takeDraw c).tmb.now = c.tmb.now := by
  simp [takeDraw]
@[simp] theorem setLnkSt_now (p : Nat) (x : LnkSt) (c : Chip) : (setLnkSt p x c).tmb.now = c.tmb.now := by
  simp [setLnkSt]
@[simp] theorem setPrtSt_now (p : Nat) (x : PrtSt) (c : Chip) : (setPrtSt p x c).tmb.now = c.tmb.now := by
  simp [setPrtSt]
@[simp] theorem setLaneSt_now (l : Nat) (x : LaneSt) (c : Chip) : (setLaneSt l x c).tmb.now = c.tmb.now := by
  simp [setLaneSt]
@[simp] theorem setTenSt_now (t : Nat) (x : TenSt) (c : Chip) : (setTenSt t x c).tmb.now = c.tmb.now := by
  simp [setTenSt]
@[simp] theorem setSlpSt_now (n : Nat) (x : SlpSt) (c : Chip) : (setSlpSt n x c).tmb.now = c.tmb.now := by
  simp [setSlpSt]
@[simp] theorem setLiveWin_now (w : Nat) (x : Window) (c : Chip) : (setLiveWin w x c).tmb.now = c.tmb.now := by
  simp [setLiveWin]
@[simp] theorem putTxn_now (t : Txn) (c : Chip) : (putTxn t c).tmb.now = c.tmb.now := by
  simp [putTxn]
@[simp] theorem dropTxn_now (i : Nat) (c : Chip) : (dropTxn i c).tmb.now = c.tmb.now := by
  simp [dropTxn]
@[simp] theorem emitCode_now (x : FltCode) (c : Chip) : (emitCode x c).tmb.now = c.tmb.now := by
  unfold emitCode; split <;> simp
@[simp] theorem raiseWith_now (inj : Bool) (k : PK) (n : Nat) (b : Nat) (c : Chip) :
    (raiseWith inj k n b c).tmb.now = c.tmb.now := by
  unfold raiseWith; (try dsimp only) <;> (repeat' split) <;> simp [*, forEach_now]
@[simp] theorem raise_now (k : PK) (n : Nat) (b : Nat) (c : Chip) : (raise k n b c).tmb.now = c.tmb.now := by
  simp [raise]
@[simp] theorem event_now (k : PK) (n : Nat) (b : Nat) (c : Chip) : (event k n b c).tmb.now = c.tmb.now := by
  simp [event]
@[simp] theorem setCtr_now (pg : Nat) (i : Nat) (x : Ctr) (c : Chip) : (setCtr pg i x c).tmb.now = c.tmb.now := by
  simp [setCtr]
@[simp] theorem countN_now (k : PK) (n : Nat) (x : Nat) (q : Option Nat) (amount : Nat) (c : Chip) :
    (countN k n x q amount c).tmb.now = c.tmb.now := by
  unfold countN; split <;> simp
@[simp] theorem count_now (k : PK) (n : Nat) (x : Nat) (c : Chip) : (count k n x c).tmb.now = c.tmb.now := by
  simp [count]
@[simp] theorem countQ_now (k : PK) (n : Nat) (x : Nat) (q : Nat) (c : Chip) :
    (countQ k n x q c).tmb.now = c.tmb.now := by
  simp [countQ]
@[simp] theorem countRol_now (slice : Nat) (x : Nat) (q : Option Nat) (c : Chip) :
    (countRol slice x q c).tmb.now = c.tmb.now := by
  simp [countRol]
@[simp] theorem countMgt_now (core : Nat) (x : Nat) (c : Chip) : (countMgt core x c).tmb.now = c.tmb.now := by
  simp [countMgt]
@[simp] theorem closedHit_now (pa : Path) (c : Chip) : (closedHit pa c).tmb.now = c.tmb.now := by
  simp [closedHit]
@[simp] theorem noteRefusal_now (pa : Path) (kind : Nat) (addr : Nat) (c : Chip) :
    (noteRefusal pa kind addr c).tmb.now = c.tmb.now := by
  unfold noteRefusal; (try dsimp only) <;> (repeat' split) <;> simp [*, forEach_now]
@[simp] theorem refuseAccess_now (pa : Path) (kind : Nat) (addr : Nat) (c : Chip) :
    (refuseAccess pa kind addr c).tmb.now = c.tmb.now := by
  simp [refuseAccess]
@[simp] theorem pathAbsent_now (pa : Path) (c : Chip) : (pathAbsent pa c).tmb.now = c.tmb.now := by
  unfold pathAbsent; split <;> simp
@[simp] theorem reachReg_now (pa : Path) (k : PK) (n : Nat) (off : Nat) (eff : Chip → Chip) (c : Chip) (heff : ∀  c, (eff  c).tmb.now = c.tmb.now) :
    (reachReg pa k n off eff c).tmb.now = c.tmb.now := by
  unfold reachReg; (try dsimp only) <;> (repeat' split) <;> simp [*, forEach_now]
@[simp] theorem writeFld_now (X : Fld) (n : Nat) (i : Nat) (v : Nat) (c : Chip) :
    (writeFld X n i v c).tmb.now = c.tmb.now := by
  unfold writeFld; (try dsimp only) <;> (repeat' split) <;> simp [*, forEach_now]
@[simp] theorem noteMiss_now (typ : Nat) (port : Nat) (addr : Nat) (c : Chip) :
    (noteMiss typ port addr c).tmb.now = c.tmb.now := by
  unfold noteMiss; split <;> simp
@[simp] theorem windowUe_now (w : Nat) (c : Chip) : (windowUe w c).tmb.now = c.tmb.now := by
  unfold windowUe; split <;> simp
@[simp] theorem windowEcc_now (cor : Bool) (ue : Bool) (w : Option Nat) (c : Chip) :
    (windowEcc cor ue w c).tmb.now = c.tmb.now := by
  unfold windowEcc; split <;> simp
@[simp] theorem checkDrained_now (c : Chip) : (checkDrained c).tmb.now = c.tmb.now := by
  unfold checkDrained; split <;> simp
@[simp] theorem setDcLog_now (p : Nat) (l : DcLog) (c : Chip) : (setDcLog p l c).tmb.now = c.tmb.now := by
  simp [setDcLog]
@[simp] theorem placeRecord_now (p : Nat) (r : DcRec) (c : Chip) : (placeRecord p r c).tmb.now = c.tmb.now := by
  unfold placeRecord; (try dsimp only) <;> (repeat' split) <;> simp [*, forEach_now]
@[simp] theorem placeWinRecord_now (w : Nat) (x : Window) (kind : Nat) (c : Chip) :
    (placeWinRecord w x kind c).tmb.now = c.tmb.now := by
  unfold placeWinRecord; split <;> simp
@[simp] theorem changeRecord_now (w : Nat) (old : Window) (x : Window) (c : Chip) :
    (changeRecord w old x c).tmb.now = c.tmb.now := by
  unfold changeRecord; (try dsimp only) <;> (repeat' split) <;> simp [*, forEach_now]
@[simp] theorem noteOwed_now (w : Nat) (old : Window) (x : Window) (c : Chip) :
    (noteOwed w old x c).tmb.now = c.tmb.now := by
  simp [noteOwed]
@[simp] theorem applyWindow_now (e : Nat) (w : Nat) (c : Chip) : (applyWindow e w c).tmb.now = c.tmb.now := by
  simp [applyWindow]
@[simp] theorem commitOk_now (c : Chip) : (commitOk c).tmb.now = c.tmb.now := by
  simp [commitOk, *, forEach_now]
@[simp] theorem commitRefuse_now (code : Nat) (detail : Nat) (w : Nat) (c : Chip) :
    (commitRefuse code detail w c).tmb.now = c.tmb.now := by
  simp [commitRefuse]
@[simp] theorem stageWord_now (w : Nat) (i : Nat) (v : Nat) (c : Chip) :
    (stageWord w i v c).tmb.now = c.tmb.now := by
  unfold stageWord; split <;> simp
@[simp] theorem windowStage_now (pa : Path) (w : Nat) (i : Nat) (v : Nat) (c : Chip) :
    (windowStage pa w i v c).tmb.now = c.tmb.now := by
  unfold windowStage; split <;> simp
@[simp] theorem commitStart_now (c : Chip) : (commitStart c).tmb.now = c.tmb.now := by
  simp [commitStart]
@[simp] theorem discardStaged_now (c : Chip) : (discardStaged c).tmb.now = c.tmb.now := by
  simp [discardStaged]
@[simp] theorem holdWrite_now (h : HeldWrite) (c : Chip) : (holdWrite h c).tmb.now = c.tmb.now := by
  simp [holdWrite]
@[simp] theorem bndWrite_now (h : HeldWrite) (c : Chip) : (bndWrite h c).tmb.now = c.tmb.now := by
  unfold bndWrite; (try dsimp only) <;> (repeat' split) <;> simp [*, forEach_now]
@[simp] theorem releaseHeld_now (c : Chip) : (releaseHeld c).tmb.now = c.tmb.now := by
  simp [releaseHeld, *, forEach_now]
@[simp] theorem commitRun_now (c : Chip) : (commitRun c).tmb.now = c.tmb.now := by
  unfold commitRun; split <;> simp
@[simp] theorem setExtent_now (e : Nat) (st : Nat) (w : Nat) (c : Chip) :
    (setExtent e st w c).tmb.now = c.tmb.now := by
  simp [setExtent]
@[simp] theorem answerExtent_now (e : Nat) (accepted : List Nat) (w : Nat) (c : Chip) :
    (answerExtent e accepted w c).tmb.now = c.tmb.now := by
  unfold answerExtent; split <;> simp
@[simp] theorem asCommit_now (p : Nat) (f : Nat → Chip → Chip) (c : Chip) (hf : ∀ x0 c, (f x0 c).tmb.now = c.tmb.now) :
    (asCommit p f c).tmb.now = c.tmb.now := by
  simp [asCommit, *, forEach_now]
@[simp] theorem dcApply_now (x : DcCmd) (c : Chip) : (dcApply x c).tmb.now = c.tmb.now := by
  unfold dcApply; (try dsimp only) <;> (repeat' split) <;> simp [*, forEach_now]
@[simp] theorem dcCommand_now (x : DcCmd) (c : Chip) : (dcCommand x c).tmb.now = c.tmb.now := by
  unfold dcCommand; (try dsimp only) <;> (repeat' split) <;> simp [*, forEach_now]
@[simp] theorem dcNext_now (f : DcCmd → Chip → Chip) (c : Chip) (hf : ∀ x0 c, (f x0 c).tmb.now = c.tmb.now) :
    (dcNext f c).tmb.now = c.tmb.now := by
  unfold dcNext; (try dsimp only) <;> (repeat' split) <;> simp [*, forEach_now]
@[simp] theorem dcBusy_now (x : DcCmd) (c : Chip) : (dcBusy x c).tmb.now = c.tmb.now := by
  simp [dcBusy]
@[simp] theorem dcDrop_now (p : Nat) (c : Chip) : (dcDrop p c).tmb.now = c.tmb.now := by
  simp [dcDrop]
@[simp] theorem effDcAdd_now (p : Nat) (accepted : List Nat) (c : Chip) :
    (effDcAdd p accepted c).tmb.now = c.tmb.now := by
  simp [effDcAdd]
@[simp] theorem effDcRelease_now (p : Nat) (w : Nat) (c : Chip) : (effDcRelease p w c).tmb.now = c.tmb.now := by
  unfold effDcRelease; split <;> simp
@[simp] theorem placeHeld_now (p : Nat) (c : Chip) : (placeHeld p c).tmb.now = c.tmb.now := by
  unfold placeHeld; (try dsimp only) <;> (repeat' split) <;> simp [*, forEach_now]
@[simp] theorem effWindowWrite_now (pa : Path) (w : Nat) (i : Nat) (v : Nat) (c : Chip) :
    (effWindowWrite pa w i v c).tmb.now = c.tmb.now := by
  unfold effWindowWrite; (try dsimp only) <;> (repeat' split) <;> simp [*, forEach_now]
@[simp] theorem effCommitTimeout_now (dc : Bool) (c : Chip) : (effCommitTimeout dc c).tmb.now = c.tmb.now := by
  unfold effCommitTimeout; (try dsimp only) <;> (repeat' split) <;> simp [*, forEach_now]
@[simp] theorem effCommitApply_now (dc : Bool) (c : Chip) : (effCommitApply dc c).tmb.now = c.tmb.now := by
  unfold effCommitApply; (try dsimp only) <;> (repeat' split) <;> simp [*, forEach_now]
@[simp] theorem effDcGet_now (p : Nat) (c : Chip) : (effDcGet p c).tmb.now = c.tmb.now := by
  unfold effDcGet; split <;> simp
@[simp] theorem effClearRecords_now (p : Nat) (n : Nat) (c : Chip) :
    (effClearRecords p n c).tmb.now = c.tmb.now := by
  unfold effClearRecords; split <;> simp
@[simp] theorem effDrainTgt_now (v : Nat) (c : Chip) : (effDrainTgt v c).tmb.now = c.tmb.now :=
  (checkDrained_now _).trans (congrArg Tmb.now (setF_tmb BND_DRAIN_TGT_TGT 0 v c))
@[simp] theorem effHdm_now (p : Nat) (i : Nat) (d : HdmDec) (c : Chip) : (effHdm p i d c).tmb.now = c.tmb.now := by
  unfold effHdm; split <;> simp
@[simp] theorem addLoss_now (t : Nat) (line : Nat) (cause : Nat) (c : Chip) :
    (addLoss t line cause c).tmb.now = c.tmb.now := by
  unfold addLoss; (try dsimp only) <;> (repeat' split) <;> simp [*, forEach_now]
@[simp] theorem clearLoss_now (t : Nat) (v : Nat) (c : Chip) : (clearLoss t v c).tmb.now = c.tmb.now := by
  simp [clearLoss]
@[simp] theorem fillBuckets_now (t : Nat) (c : Chip) : (fillBuckets t c).tmb.now = c.tmb.now := by
  simp [fillBuckets]
@[simp] theorem policerTake_now (t : Nat) (cost : Nat) (c : Chip) : (policerTake t cost c).tmb.now = c.tmb.now := by
  unfold policerTake; split <;> simp
@[simp] theorem shaperTake_now (t : Nat) (cost : Nat) (c : Chip) : (shaperTake t cost c).tmb.now = c.tmb.now := by
  unfold shaperTake; split <;> simp
@[simp] theorem refillTen_now (t : Nat) (c : Chip) : (refillTen t c).tmb.now = c.tmb.now := by
  simp [refillTen]
@[simp] theorem noteDiscard_now (t : Nat) (cause : Nat) (c : Chip) :
    (noteDiscard t cause c).tmb.now = c.tmb.now := by
  simp [noteDiscard]
@[simp] theorem cmdBegin_now (t : Nat) (op : Nat) (c : Chip) : (cmdBegin t op c).tmb.now = c.tmb.now := by
  simp [cmdBegin]
@[simp] theorem cmdEnd_now (t : Nat) (status : Nat) (c : Chip) : (cmdEnd t status c).tmb.now = c.tmb.now := by
  simp [cmdEnd]
@[simp] theorem cmdRefuse_now (t : Nat) (op : Nat) (status : Nat) (c : Chip) :
    (cmdRefuse t op status c).tmb.now = c.tmb.now := by
  simp [cmdRefuse]
@[simp] theorem takeSettings_now (d : Nat) (c : Chip) : (takeSettings d c).tmb.now = c.tmb.now := by
  simp [takeSettings, *, forEach_now]
@[simp] theorem updDisk_now (p : Nat) (f : Disk → Disk) (c : Chip) : (updDisk p f c).tmb.now = c.tmb.now := by
  simp [updDisk]
@[simp] theorem wipeDev_now (i : Nat) (k : Nat) (start : Nat) (c : Chip) :
    (wipeDev i k start c).tmb.now = c.tmb.now := by
  simp [wipeDev]
@[simp] theorem wipeCopy_now (i : Nat) (start : Nat) (c : Chip) : (wipeCopy i start c).tmb.now = c.tmb.now := by
  simp [wipeCopy, *, forEach_now]
@[simp] theorem setStored_now (i : Nat) (t : Nat) (e : Entry) (c : Chip) :
    (setStored i t e c).tmb.now = c.tmb.now := by
  simp [setStored]
@[simp] theorem noteWritten_now (t : Nat) (e : Entry) (c : Chip) : (noteWritten t e c).tmb.now = c.tmb.now := by
  unfold noteWritten; split <;> simp
@[simp] theorem writeCopies_now (t : Nat) (e : Entry) (cw : CopyWrites) (c : Chip) :
    (writeCopies t e cw c).2.tmb.now = c.tmb.now := by
  simp [writeCopies]
@[simp] theorem writeBackMarks_now (l : Nat) (x : CacheLine) (c : Chip) :
    (writeBackMarks l x c).tmb.now = c.tmb.now := by
  unfold writeBackMarks; (try dsimp only) <;> (repeat' split) <;> simp [*, forEach_now]
@[simp] theorem evictMapLine_now (l : Nat) (c : Chip) : (evictMapLine l c).tmb.now = c.tmb.now := by
  unfold evictMapLine; (try dsimp only) <;> (repeat' split) <;> simp [*, forEach_now]
@[simp] theorem fillLine_now (i : Nat) (l : Nat) (c : Chip) : (fillLine i l c).tmb.now = c.tmb.now := by
  simp [fillLine]
@[simp] theorem ensureCached_now (t : Nat) (c : Chip) : (ensureCached t c).tmb.now = c.tmb.now := by
  unfold ensureCached; split <;> simp
@[simp] theorem setEntry_now (t : Nat) (e : Entry) (c : Chip) : (setEntry t e c).tmb.now = c.tmb.now := by
  unfold setEntry; (try dsimp only) <;> (repeat' split) <;> simp [*, forEach_now]
@[simp] theorem setUnwritten_now (t : Nat) (on : Bool) (c : Chip) : (setUnwritten t on c).tmb.now = c.tmb.now := by
  unfold setUnwritten; split <;> simp
@[simp] theorem markTile_now (t : Nat) (rd : Nat) (wr : Nat) (c : Chip) :
    (markTile t rd wr c).tmb.now = c.tmb.now := by
  unfold markTile; split <;> simp
@[simp] theorem noteUnreadable_now (t : Nat) (c : Chip) : (noteUnreadable t c).tmb.now = c.tmb.now := by
  unfold noteUnreadable; split <;> simp
@[simp] theorem noteLineUnreadable_now (t : Nat) (c : Chip) : (noteLineUnreadable t c).tmb.now = c.tmb.now := by
  simp [noteLineUnreadable, *, forEach_now]
@[simp] theorem ringPut_now (i : RingItem) (c : Chip) : (ringPut i c).tmb.now = c.tmb.now := by
  unfold ringPut; split <;> simp
@[simp] theorem releaseLocs_now (t : Nat) (ls : List Nat) (c : Chip) : (releaseLocs t ls c).tmb.now = c.tmb.now := by
  simp [releaseLocs, *, forEach_now]
@[simp] theorem addSplit_now (t : Nat) (good1 : Bool) (c : Chip) : (addSplit t good1 c).tmb.now = c.tmb.now := by
  unfold addSplit; split <;> simp
@[simp] theorem clearSplit_now (t : Nat) (c : Chip) : (clearSplit t c).tmb.now = c.tmb.now := by
  simp [clearSplit]
@[simp] theorem setRol_now (l : Nat) (e : RollEntry) (c : Chip) : (setRol l e c).tmb.now = c.tmb.now := by
  simp [setRol]
@[simp] theorem freeRol_now (l : Nat) (c : Chip) : (freeRol l c).tmb.now = c.tmb.now := by
  simp [freeRol]
@[simp] theorem setGone_now (h : Nat) (on : Bool) (c : Chip) : (setGone h on c).tmb.now = c.tmb.now := by
  simp [setGone]
@[simp] theorem removeHost_now (h : Nat) (l : Nat) (c : Chip) : (removeHost h l c).tmb.now = c.tmb.now := by
  unfold removeHost; (try dsimp only) <;> (repeat' split) <;> simp [*, forEach_now]
@[simp] theorem ownBy_now (h : Nat) (l : Nat) (c : Chip) : (ownBy h l c).tmb.now = c.tmb.now := by
  simp [ownBy]
@[simp] theorem shareWith_now (h : Nat) (l : Nat) (c : Chip) : (shareWith h l c).tmb.now = c.tmb.now := by
  simp [shareWith]
@[simp] theorem noteRolErr_now (cause : Nat) (host : Nat) (line : Nat) (c : Chip) :
    (noteRolErr cause host line c).tmb.now = c.tmb.now := by
  unfold noteRolErr; split <;> simp
@[simp] theorem takePatterns_now (l : Nat) (c : Chip) : (takePatterns l c).tmb.now = c.tmb.now := by
  simp [takePatterns]
@[simp] theorem adaptAs_now (l : Nat) (phase : Nat) (c : Chip) : (adaptAs l phase c).tmb.now = c.tmb.now := by
  simp [adaptAs]
@[simp] theorem adaptNow_now (l : Nat) (c : Chip) : (adaptNow l c).tmb.now = c.tmb.now := by
  simp [adaptNow]
@[simp] theorem idleLane_now (l : Nat) (c : Chip) : (idleLane l c).tmb.now = c.tmb.now := by
  unfold idleLane; (try dsimp only) <;> (repeat' split) <;> simp [*, forEach_now]
@[simp] theorem takePower_now (l : Nat) (c : Chip) : (takePower l c).tmb.now = c.tmb.now := by
  unfold takePower; (try dsimp only) <;> (repeat' split) <;> simp [*, forEach_now]
@[simp] theorem lanesIdle_now (p : Nat) (c : Chip) : (lanesIdle p c).tmb.now = c.tmb.now := by
  simp [lanesIdle, *, forEach_now]
@[simp] theorem setCarrier_now (prim : Nat) (b : Nat) (m : Nat) (c : Chip) :
    (setCarrier prim b m c).tmb.now = c.tmb.now := by
  unfold setCarrier; split <;> simp
@[simp] theorem setAvail_now (p : Nat) (cls : Nat) (v : Nat) (c : Chip) :
    (setAvail p cls v c).tmb.now = c.tmb.now := by
  unfold setAvail; split <;> simp
@[simp] theorem takeNeeds_now (p : Nat) (n : List Nat) (c : Chip) : (takeNeeds p n c).tmb.now = c.tmb.now := by
  unfold takeNeeds; (try dsimp only) <;> (repeat' split) <;> (try simp [*, forEach_now]) <;>
    (try (refine (forEach_now _ _ _ (fun _ _ => ?_)).trans ?_ <;> (try dsimp only) <;> (repeat' split) <;> (try simp [*, forEach_now]) <;>
      (repeat' split) <;> (try simp [*, forEach_now])))
@[simp] theorem freeNeeds_now (p : Nat) (n : List Nat) (c : Chip) : (freeNeeds p n c).tmb.now = c.tmb.now := by
  simp [freeNeeds]
@[simp] theorem freeCredits_now (p : Nat) (t : MsgType) (lines : Nat) (c : Chip) :
    (freeCredits p t lines c).tmb.now = c.tmb.now := by
  simp [freeCredits]
@[simp] theorem emitFlit_now (p : Nat) (seq : Nat) (msg : Option FlitMsg) (orig : Option Nat) (c : Chip) :
    (emitFlit p seq msg orig c).tmb.now = c.tmb.now := by
  simp [emitFlit]
@[simp] theorem sendFlit_now (p : Nat) (msg : Option FlitMsg) (bucket : Nat) (orig : Option Nat) (c : Chip) :
    (sendFlit p msg bucket orig c).tmb.now = c.tmb.now := by
  simp [sendFlit]
@[simp] theorem replayFrom_now (p : Nat) (seq : Nat) (c : Chip) : (replayFrom p seq c).tmb.now = c.tmb.now := by
  simp [replayFrom, *, forEach_now]
@[simp] theorem setReplays_now (p : Nat) (n : Nat) (c : Chip) : (setReplays p n c).tmb.now = c.tmb.now := by
  simp [setReplays]
@[simp] theorem sendResend_now (p : Nat) (f : TxFlit) (c : Chip) : (sendResend p f c).tmb.now = c.tmb.now := by
  unfold sendResend; split <;> simp
@[simp] theorem resendAll_now (p : Nat) (l : List TxFlit) (c : Chip) : (resendAll p l c).tmb.now = c.tmb.now := by
  induction l generalizing c with
  | nil => simp [resendAll]
  | cons x xs ih => unfold resendAll; (repeat' split) <;> simp [ih]
@[simp] theorem setTrunkOut_now (prim : Nat) (l : List TrunkMsg) (c : Chip) :
    (setTrunkOut prim l c).tmb.now = c.tmb.now := by
  simp [setTrunkOut]
@[simp] theorem sendTrunk_now (m : Nat) (x : TrunkMsg) (c : Chip) : (sendTrunk m x c).tmb.now = c.tmb.now := by
  simp [sendTrunk]
@[simp] theorem pumpOut_now (p : Nat) (l k : List TrunkMsg) (c : Chip) : (pumpOut p l k c).tmb.now = c.tmb.now := by
  induction l generalizing k c with
  | nil => simp [pumpOut]
  | cons x xs ih => unfold pumpOut; dsimp only; split <;> simp [ih]
@[simp] theorem pump_now (p : Nat) (c : Chip) : (pump p c).tmb.now = c.tmb.now := by
  unfold pump; (try dsimp only) <;> (repeat' split) <;> simp [*, forEach_now]
@[simp] theorem trunkPost_now (p : Nat) (x : TrunkMsg) (c : Chip) : (trunkPost p x c).tmb.now = c.tmb.now := by
  simp [trunkPost]
@[simp] theorem addTxn_now (t : Txn) (c : Chip) : (addTxn t c).tmb.now = c.tmb.now := by
  simp [addTxn]
@[simp] theorem waitAt_now (t : Txn) (st : Stage) (c : Chip) : (waitAt t st c).tmb.now = c.tmb.now := by
  simp [waitAt]
@[simp] theorem answerHost_now (t : Txn) (a : HostAns) (c : Chip) : (answerHost t a c).tmb.now = c.tmb.now := by
  unfold answerHost; (try dsimp only) <;> (repeat' split) <;> simp [*, forEach_now]
@[simp] theorem dropLost_now (l : Nat) (c : Chip) : (dropLost l c).tmb.now = c.tmb.now := by
  simp [dropLost]
@[simp] theorem endPoisoning_now (l : Nat) (c : Chip) : (endPoisoning l c).tmb.now = c.tmb.now := by
  simp [endPoisoning]
@[simp] theorem dropLostTile_now (t : Nat) (c : Chip) : (dropLostTile t c).tmb.now = c.tmb.now := by
  simp [dropLostTile]
@[simp] theorem jobNote_now (t : Txn) (failed : Bool) (poison : Bool) (c : Chip) :
    (jobNote t failed poison c).tmb.now = c.tmb.now := by
  unfold jobNote; (try dsimp only) <;> (repeat' split) <;> simp [*, forEach_now]
@[simp] theorem trunkAnswer_now (p : Nat) (tag : Nat) (e : Nat) (write : Bool) (d : Line) (poison : Bool) (c : Chip) :
    (trunkAnswer p tag e write d poison c).tmb.now = c.tmb.now := by
  simp [trunkAnswer]
@[simp] theorem finishRead_now (t : Txn) (d : Line) (poison : Bool) (c : Chip) :
    (finishRead t d poison c).tmb.now = c.tmb.now := by
  unfold finishRead; split <;> simp
@[simp] theorem finishWrite_now (t : Txn) (r : Nat) (c : Chip) : (finishWrite t r c).tmb.now = c.tmb.now := by
  unfold finishWrite; (try dsimp only) <;> (repeat' split) <;> simp [*, forEach_now]
@[simp] theorem finishInv_now (t : Txn) (c : Chip) : (finishInv t c).tmb.now = c.tmb.now := by
  simp [finishInv]
@[simp] theorem finishAtomPoison_now (t : Txn) (c : Chip) : (finishAtomPoison t c).tmb.now = c.tmb.now := by
  simp [finishAtomPoison]
@[simp] theorem noteCareHit_now (tile : Nat) (e : Entry) (c : Chip) :
    (noteCareHit tile e c).tmb.now = c.tmb.now := by
  simp [noteCareHit]
@[simp] theorem issueRd_now (t : Txn) (l : Nat × Nat) (c : Chip) : (issueRd t l c).tmb.now = c.tmb.now := by
  simp [issueRd]
@[simp] theorem issueWr_now (t : Txn) (ls : List (Nat × Nat)) (c : Chip) : (issueWr t ls c).tmb.now = c.tmb.now := by
  simp [issueWr, *, forEach_now]
@[simp] theorem gatherMark_now (p : Nat) (tile : Nat) (rd : Nat) (wr : Nat) (c : Chip) :
    (gatherMark p tile rd wr c).tmb.now = c.tmb.now := by
  unfold gatherMark; (try dsimp only) <;> (repeat' split) <;> simp [*, forEach_now]
@[simp] theorem remoteGo_now (t : Txn) (p : Nat) (write : Bool) (c : Chip) :
    (remoteGo t p write c).tmb.now = c.tmb.now := by
  simp [remoteGo]
@[simp] theorem routeLookup_now (t : Txn) (c : Chip) : (routeLookup t c).tmb.now = c.tmb.now := by
  simp [routeLookup]
@[simp] theorem routeMiss_now (t : Txn) (c : Chip) : (routeMiss t c).tmb.now = c.tmb.now := by
  simp [routeMiss]
@[simp] theorem markFor_now (t : Txn) (c : Chip) : (markFor t c).tmb.now = c.tmb.now := by
  unfold markFor; split <;> simp
@[simp] theorem refetchEntry_now (t : Nat) (e : Entry) (c : Chip) : (refetchEntry t e c).tmb.now = c.tmb.now := by
  unfold refetchEntry; split <;> simp
@[simp] theorem mapEcc_now (t : Txn) (c : Chip) : (mapEcc t c).tmb.now = c.tmb.now := by
  unfold mapEcc; (try dsimp only) <;> (repeat' split) <;> simp [*, forEach_now]
@[simp] theorem waitLast_now (t : Txn) (st : Stage) (c : Chip) : (waitLast t st c).tmb.now = c.tmb.now := by
  unfold waitLast; split <;> simp
@[simp] theorem holdFirst_now (t : Txn) (c : Chip) : (holdFirst t c).tmb.now = c.tmb.now := by
  simp [holdFirst]
@[simp] theorem setRakSlot_now (k : Nat) (s : RakSt) (c : Chip) : (setRakSlot k s c).tmb.now = c.tmb.now := by
  simp [setRakSlot]
@[simp] theorem failDest_now (tile : Nat) (c : Chip) : (failDest tile c).tmb.now = c.tmb.now := by
  unfold failDest; (try dsimp only) <;> (repeat' split) <;> simp [*, forEach_now]
@[simp] theorem writeMove_now (t : Txn) (e : Entry) (c : Chip) : (writeMove t e c).tmb.now = c.tmb.now := by
  unfold writeMove; (try dsimp only) <;> (repeat' split) <;> simp [*, forEach_now]
@[simp] theorem writeAt_now (t : Txn) (e : Entry) (c : Chip) : (writeAt t e c).tmb.now = c.tmb.now := by
  unfold writeAt; (try dsimp only) <;> (repeat' split) <;> simp [*, forEach_now]
@[simp] theorem homeWrite_now (t : Txn) (c : Chip) : (homeWrite t c).tmb.now = c.tmb.now := by
  unfold homeWrite; (try dsimp only) <;> (repeat' split) <;> simp [*, forEach_now]
@[simp] theorem readReturned_now (t : Txn) (d : Line) (poison : Bool) (c : Chip) :
    (readReturned t d poison c).tmb.now = c.tmb.now := by
  unfold readReturned; (try dsimp only) <;> (repeat' split) <;> simp [*, forEach_now]
@[simp] theorem readAt_now (t : Txn) (e : Entry) (c : Chip) : (readAt t e c).tmb.now = c.tmb.now := by
  unfold readAt; (try dsimp only) <;> (repeat' split) <;> simp [*, forEach_now]
@[simp] theorem homeRead_now (t : Txn) (c : Chip) : (homeRead t c).tmb.now = c.tmb.now := by
  unfold homeRead; (try dsimp only) <;> (repeat' split) <;> simp [*, forEach_now]
@[simp] theorem homeGo_now (t : Txn) (c : Chip) : (homeGo t c).tmb.now = c.tmb.now := by
  unfold homeGo; (try dsimp only) <;> (repeat' split) <;> simp [*, forEach_now]
@[simp] theorem carDefect_now (w : Nat) (c : Chip) : (carDefect w c).tmb.now = c.tmb.now := by
  unfold carDefect; split <;> simp
@[simp] theorem queueMend_now (line : Nat) (bad : Bool) (port : Nat) (c : Chip) :
    (queueMend line bad port c).tmb.now = c.tmb.now := by
  unfold queueMend; (try dsimp only) <;> (repeat' split) <;> simp [*, forEach_now]
@[simp] theorem retryRead_now (t : Txn) (c : Chip) : (retryRead t c).tmb.now = c.tmb.now := by
  unfold retryRead; (try dsimp only) <;> (repeat' split) <;> simp [*, forEach_now]
@[simp] theorem noteMend_now (t : Txn) (c : Chip) : (noteMend t c).tmb.now = c.tmb.now := by
  unfold noteMend; split <;> simp
@[simp] theorem readLegEnd_now (t : Txn) (g : Leg) (st : LegSt) (d : Line) (c : Chip) :
    (readLegEnd t g st d c).tmb.now = c.tmb.now := by
  unfold readLegEnd; (try dsimp only) <;> (repeat' split) <;> simp [*, forEach_now]
@[simp] theorem writeResult_now (t : Txn) (link : Bool) (c : Chip) :
    (writeResult t link c).2.tmb.now = c.tmb.now := by
  unfold writeResult; (try dsimp only) <;> (repeat' split) <;> simp [*, forEach_now]
@[simp] theorem writeLegEnd_now (t : Txn) (g : Leg) (link : Bool) (c : Chip) :
    (writeLegEnd t g link c).tmb.now = c.tmb.now := by
  unfold writeLegEnd; (try dsimp only) <;> (repeat' split) <;> simp [*, forEach_now]
@[simp] theorem legEnd_now (t : Txn) (g : Leg) (st : LegSt) (link : Bool) (d : Line) (c : Chip) :
    (legEnd t g st link d c).tmb.now = c.tmb.now := by
  unfold legEnd; split <;> simp
@[simp] theorem deviceAnswer_now (dport : Nat) (dtag : Nat) (st : DevStatus) (d : Line) (c : Chip) :
    (deviceAnswer dport dtag st d c).tmb.now = c.tmb.now := by
  unfold deviceAnswer; split <;> simp
@[simp] theorem startTxn_now (t : Txn) (f : Txn → Chip → Chip) (c : Chip) (hf : ∀ x0 c, (f x0 c).tmb.now = c.tmb.now) :
    (startTxn t f c).tmb.now = c.tmb.now := by
  simp [startTxn, *, forEach_now]
@[simp] theorem ownerWrite_now (t : Txn) (c : Chip) : (ownerWrite t c).tmb.now = c.tmb.now := by
  unfold ownerWrite; split <;> simp
@[simp] theorem ownerLost_now (h : Nat) (l : Nat) (c : Chip) : (ownerLost h l c).tmb.now = c.tmb.now := by
  simp [ownerLost]
@[simp] theorem scrubEntry_now (h : Nat) (l : Nat) (e : RollEntry) (c : Chip) :
    (scrubEntry h l e c).tmb.now = c.tmb.now := by
  unfold scrubEntry; (try dsimp only) <;> (repeat' split) <;> simp [*, forEach_now]
@[simp] theorem departHost_now (h : Nat) (met : Bool) (c : Chip) : (departHost h met c).tmb.now = c.tmb.now := by
  unfold departHost; (try dsimp only) <;> (repeat' split) <;> simp [*, forEach_now]
@[simp] theorem departFace_now (p : Nat) (met : Bool) (c : Chip) : (departFace p met c).tmb.now = c.tmb.now := by
  unfold departFace; split <;> simp
@[simp] theorem notePark_now (t : Txn) (c : Chip) : (notePark t c).tmb.now = c.tmb.now := by
  simp [notePark]
@[simp] theorem waitLock_now (t : Txn) (c : Chip) : (waitLock t c).tmb.now = c.tmb.now := by
  unfold waitLock; split <;> simp
@[simp] theorem applyAnswer_now (s : Snoop) (c : Chip) : (applyAnswer s c).tmb.now = c.tmb.now := by
  unfold applyAnswer; (try dsimp only) <;> (repeat' split) <;> simp [*, forEach_now]
@[simp] theorem listHost_now (t : Txn) (f : Nat → Nat → Chip → Chip) (c : Chip) (hf : ∀ x0 x1 c, (f x0 x1 c).tmb.now = c.tmb.now) :
    (listHost t f c).tmb.now = c.tmb.now := by
  unfold listHost; (try dsimp only) <;> (repeat' split) <;> simp [*, forEach_now]
@[simp] theorem entryAfter_now (t : Txn) (c : Chip) : (entryAfter t c).tmb.now = c.tmb.now := by
  unfold entryAfter; (try dsimp only) <;> (repeat' split) <;> simp [*, forEach_now]
@[simp] theorem closeSnoop_now (t : Txn) (c : Chip) : (closeSnoop t c).tmb.now = c.tmb.now := by
  simp [closeSnoop, *, forEach_now]
@[simp] theorem openSnoop_now (t : Txn) (typ : SnpType) (h : Nat) (c : Chip) :
    (openSnoop t typ h c).tmb.now = c.tmb.now := by
  unfold openSnoop; split <;> simp
@[simp] theorem sendSnoop_now (s : Snoop) (c : Chip) : (sendSnoop s c).tmb.now = c.tmb.now := by
  simp [sendSnoop]
@[simp] theorem injectWaiting_now (l : List Pkt) (c : Chip) : (injectWaiting l c).tmb.now = c.tmb.now := by
  induction l generalizing c with
  | nil => rfl
  | cons x xs ih => unfold injectWaiting; split <;> simp [ih] <;> rfl
@[simp] theorem injectMore_now (c : Chip) : (injectMore c).tmb.now = c.tmb.now := by
  simp [injectMore]
@[simp] theorem injectMulticast_now (t : Txn) (ss : List Snoop) (c : Chip) :
    (injectMulticast t ss c).tmb.now = c.tmb.now := by
  unfold injectMulticast; (try dsimp only) <;> (repeat' split) <;> simp [*, forEach_now]
@[simp] theorem launchSnoops_now (t : Txn) (c : Chip) : (launchSnoops t c).tmb.now = c.tmb.now := by
  unfold launchSnoops; split <;> simp
@[simp] theorem snoopHosts_now (t : Txn) (typ : SnpType) (hs : List Nat) (onClose : Txn → Chip → Chip) (c : Chip) (honClose : ∀ x0 c, (onClose x0 c).tmb.now = c.tmb.now) :
    (snoopHosts t typ hs onClose c).tmb.now = c.tmb.now := by
  unfold snoopHosts; (try dsimp only) <;> (repeat' split) <;> simp [*, forEach_now]
@[simp] theorem serveEntry_now (t : Txn) (c : Chip) : (serveEntry t c).tmb.now = c.tmb.now := by
  unfold serveEntry; split <;> simp
@[simp] theorem closeEvict_now (t : Txn) (c : Chip) : (closeEvict t c).tmb.now = c.tmb.now := by
  unfold closeEvict; (try dsimp only) <;> (repeat' split) <;> simp [*, forEach_now]
@[simp] theorem evictFor_now (t : Txn) (c : Chip) : (evictFor t c).tmb.now = c.tmb.now := by
  unfold evictFor; (try dsimp only) <;> (repeat' split) <;> simp [*, forEach_now]
@[simp] theorem broadcastGo_now (u : Txn) (c : Chip) : (broadcastGo u c).tmb.now = c.tmb.now := by
  unfold broadcastGo; split <;> simp
@[simp] theorem startBroadcast_now (l : Nat) (c : Chip) : (startBroadcast l c).tmb.now = c.tmb.now := by
  simp [startBroadcast]
@[simp] theorem broadcastFor_now (t : Txn) (c : Chip) : (broadcastFor t c).tmb.now = c.tmb.now := by
  simp [broadcastFor]
@[simp] theorem rollLook_now (t : Txn) (c : Chip) : (rollLook t c).tmb.now = c.tmb.now := by
  simp [rollLook]
@[simp] theorem rollDecide_now (t : Txn) (c : Chip) : (rollDecide t c).tmb.now = c.tmb.now := by
  unfold rollDecide; (try dsimp only) <;> (repeat' split) <;> simp [*, forEach_now]
@[simp] theorem rollHolder_now (t : Txn) (h : Nat) (c : Chip) : (rollHolder t h c).tmb.now = c.tmb.now := by
  unfold rollHolder; (try dsimp only) <;> (repeat' split) <;> simp [*, forEach_now]
@[simp] theorem rollGo_now (t : Txn) (c : Chip) : (rollGo t c).tmb.now = c.tmb.now := by
  unfold rollGo; (try dsimp only) <;> (repeat' split) <;> simp [*, forEach_now]
@[simp] theorem requestCredits_now (p : Nat) (write : Bool) (c : Chip) :
    (requestCredits p write c).tmb.now = c.tmb.now := by
  unfold requestCredits; split <;> simp
@[simp] theorem ioCredits_now (p : Nat) (write : Bool) (c : Chip) : (ioCredits p write c).tmb.now = c.tmb.now := by
  unfold ioCredits; split <;> simp
@[simp] theorem takenCredits_now (p : Nat) (i : Nat) (write : Bool) (c : Chip) :
    (takenCredits p i write c).tmb.now = c.tmb.now := by
  unfold takenCredits; (try dsimp only) <;> (repeat' split) <;> simp [*, forEach_now]
@[simp] theorem goneAnswer_now (t : Txn) (c : Chip) : (goneAnswer t c).tmb.now = c.tmb.now := by
  simp [goneAnswer]
@[simp] theorem stage6_now (t : Txn) (c : Chip) : (stage6 t c).tmb.now = c.tmb.now := by
  unfold stage6; (try dsimp only) <;> (repeat' split) <;> simp [*, forEach_now]
@[simp] theorem setEntryOf_now (e : SlateEntry) (c : Chip) : (setEntryOf e c).tmb.now = c.tmb.now := by
  simp [setEntryOf]
@[simp] theorem shedSlate_now (p : Nat) (c : Chip) : (shedSlate p c).tmb.now = c.tmb.now := by
  simp [shedSlate]
@[simp] theorem startDrain_now (trigger : Nat) (e : SlateEntry) (c : Chip) :
    (startDrain trigger e c).tmb.now = c.tmb.now := by
  unfold startDrain; (try dsimp only) <;> (repeat' split) <;> simp [*, forEach_now]
@[simp] theorem drainListed_now (trigger : Nat) (ids : List Nat) (c : Chip) :
    (drainListed trigger ids c).tmb.now = c.tmb.now := by
  unfold drainListed; (try dsimp only) <;> (repeat' split) <;> (try simp [*, forEach_now]) <;>
    (try (refine (forEach_now _ _ _ (fun _ _ => ?_)).trans ?_ <;> (try dsimp only) <;> (repeat' split) <;> (try simp [*, forEach_now]) <;>
      (repeat' split) <;> (try simp [*, forEach_now])))
@[simp] theorem pressureDrain_now (p : Nat) (c : Chip) : (pressureDrain p c).tmb.now = c.tmb.now := by
  unfold pressureDrain; split <;> simp
@[simp] theorem drainEntry_now (trigger : Nat) (e : SlateEntry) (c : Chip) :
    (drainEntry trigger e c).tmb.now = c.tmb.now := by
  simp [drainEntry]
@[simp] theorem drainIds_now (trigger : Nat) (ids : List Nat) (c : Chip) :
    (drainIds trigger ids c).tmb.now = c.tmb.now := by
  simp [drainIds, *, forEach_now]
@[simp] theorem drainWhere_now (trigger : Nat) (p : SlateEntry → Bool) (c : Chip) :
    (drainWhere trigger p c).tmb.now = c.tmb.now := by
  simp [drainWhere]
@[simp] theorem waitDrain_now (p : Nat) (c : Chip) : (waitDrain p c).tmb.now = c.tmb.now := by
  unfold waitDrain; (try dsimp only) <;> (repeat' split) <;> simp [*, forEach_now]
@[simp] theorem mergeDone_now (t : Txn) (c : Chip) : (mergeDone t c).tmb.now = c.tmb.now := by
  simp [mergeDone]
@[simp] theorem mergeInto_now (t : Txn) (e : SlateEntry) (c : Chip) : (mergeInto t e c).tmb.now = c.tmb.now := by
  simp [mergeInto]
@[simp] theorem takeEntry_now (t : Txn) (c : Chip) : (takeEntry t c).tmb.now = c.tmb.now := by
  simp [takeEntry]
@[simp] theorem waitIngress_now (t : Txn) (c : Chip) : (waitIngress t c).tmb.now = c.tmb.now := by
  simp [waitIngress]
@[simp] theorem merge_now (t : Txn) (c : Chip) : (merge t c).tmb.now = c.tmb.now := by
  unfold merge; (try dsimp only) <;> (repeat' split) <;> simp [*, forEach_now]
@[simp] theorem freeEntry_now (e : SlateEntry) (c : Chip) : (freeEntry e c).tmb.now = c.tmb.now := by
  unfold freeEntry; (try dsimp only) <;> (repeat' split) <;> simp [*, forEach_now]
@[simp] theorem addLost_now (p : Nat) (l : Nat) (c : Chip) : (addLost p l c).tmb.now = c.tmb.now := by
  unfold addLost; (try dsimp only) <;> (repeat' split) <;> simp [*, forEach_now]
@[simp] theorem declareLost_now (cause : Nat) (e : SlateEntry) (c : Chip) :
    (declareLost cause e c).tmb.now = c.tmb.now := by
  unfold declareLost; (try dsimp only) <;> (repeat' split) <;> simp [*, forEach_now]
@[simp] theorem withEntryEcc_now (ecc : Nat) (e : SlateEntry) (f : Chip → Chip) (c : Chip) (hf : ∀  c, (f  c).tmb.now = c.tmb.now) :
    (withEntryEcc ecc e f c).tmb.now = c.tmb.now := by
  unfold withEntryEcc; (try dsimp only) <;> (repeat' split) <;> simp [*, forEach_now]
@[simp] theorem holdForSlate_now (t : Txn) (c : Chip) : (holdForSlate t c).tmb.now = c.tmb.now := by
  unfold holdForSlate; (try dsimp only) <;> (repeat' split) <;> simp [*, forEach_now]
@[simp] theorem readSlate_now (t : Txn) (c : Chip) : (readSlate t c).tmb.now = c.tmb.now := by
  unfold readSlate; split <;> simp
@[simp] theorem regionServe_now (t : Txn) (c : Chip) : (regionServe t c).tmb.now = c.tmb.now := by
  unfold regionServe; (try dsimp only) <;> (repeat' split) <;> simp [*, forEach_now]
@[simp] theorem regionGo_now (t : Txn) (c : Chip) : (regionGo t c).tmb.now = c.tmb.now := by
  unfold regionGo; (try dsimp only) <;> (repeat' split) <;> simp [*, forEach_now]
@[simp] theorem ingressNext_now (p : Nat) (c : Chip) : (ingressNext p c).tmb.now = c.tmb.now := by
  unfold ingressNext; split <;> simp
@[simp] theorem discardTxn_now (cause : Nat) (t : Txn) (c : Chip) : (discardTxn cause t c).tmb.now = c.tmb.now := by
  simp [discardTxn]
@[simp] theorem admitNow_now (t : Txn) (c : Chip) : (admitNow t c).tmb.now = c.tmb.now := by
  simp [admitNow]
@[simp] theorem shapeTxn_now (t : Txn) (c : Chip) : (shapeTxn t c).tmb.now = c.tmb.now := by
  unfold shapeTxn; (try dsimp only) <;> (repeat' split) <;> simp [*, forEach_now]
@[simp] theorem policeTxn_now (t : Txn) (c : Chip) : (policeTxn t c).tmb.now = c.tmb.now := by
  unfold policeTxn; (try dsimp only) <;> (repeat' split) <;> simp [*, forEach_now]
@[simp] theorem missAnswer_now (k : TxnKind) (p : Nat) (tag : Nat) (dpa : Nat) (c : Chip) :
    (missAnswer k p tag dpa c).tmb.now = c.tmb.now := by
  simp [missAnswer]
@[simp] theorem lookupFor_now (p : Nat) (dpa : Nat) (ecc : Ecc) (c : Chip) :
    (lookupFor p dpa ecc c).tmb.now = c.tmb.now := by
  simp [lookupFor]
@[simp] theorem countAttributed_now (k : TxnKind) (x : Nat) (c : Chip) :
    (countAttributed k x c).tmb.now = c.tmb.now := by
  unfold countAttributed; split <;> simp
@[simp] theorem memGo_now (k : TxnKind) (p : Nat) (dpa : Nat) (tag : Nat) (mv : MetaVal) (ecc : Ecc) (f : Txn → Txn) (c : Chip) :
    (memGo k p dpa tag mv ecc f c).tmb.now = c.tmb.now := by
  unfold memGo; (try dsimp only) <;> (repeat' split) <;> simp [*, forEach_now]
@[simp] theorem shaperHead_now (x : Nat) (free : Bool) (c : Chip) : (shaperHead x free c).tmb.now = c.tmb.now := by
  unfold shaperHead; (try dsimp only) <;> (repeat' split) <;> simp [*, forEach_now]
@[simp] theorem shaperFlush_now (x : Nat) (free : Bool) (c : Chip) : (shaperFlush x free c).tmb.now = c.tmb.now := by
  simp [shaperFlush, *, forEach_now]
@[simp] theorem endDrain_now (t : Txn) (e : SlateEntry) (c : Chip) : (endDrain t e c).tmb.now = c.tmb.now := by
  unfold endDrain; split <;> simp
@[simp] theorem bellAnswer_now (x : Nat) (b : Bell) (v : Nat) (c : Chip) :
    (bellAnswer x b v c).tmb.now = c.tmb.now := by
  unfold bellAnswer; (try dsimp only) <;> (repeat' split) <;> simp [*, forEach_now]
@[simp] theorem bellFinish_now (x : Nat) (c : Chip) : (bellFinish x c).tmb.now = c.tmb.now := by
  unfold bellFinish; (try dsimp only) <;> (repeat' split) <;> simp [*, forEach_now]
@[simp] theorem jobEnd_now (x : Nat) (status : Nat) (c : Chip) : (jobEnd x status c).tmb.now = c.tmb.now := by
  simp [jobEnd]
@[simp] theorem jobChunkEnds_now (x : Nat) (c : Chip) : (jobChunkEnds x c).tmb.now = c.tmb.now := by
  unfold jobChunkEnds; (try dsimp only) <;> (repeat' split) <;> simp [*, forEach_now]
@[simp] theorem resumeTxn_now (i : Nat) (c : Chip) : (resumeTxn i c).tmb.now = c.tmb.now := by
  unfold resumeTxn; (try dsimp only) <;> (repeat' split) <;> simp [*, forEach_now]
@[simp] theorem settleOnce_now (c : Chip) : (settleOnce c).tmb.now = c.tmb.now := by
  simp [settleOnce, *, forEach_now]
@[simp] theorem settle_now (c : Chip) : (settle c).tmb.now = c.tmb.now := by
  simp [settle, *, forEach_now]
@[simp] theorem resolveLeg_now (p : Nat) (final : Bool) (dtag : Nat) (c : Chip) :
    (resolveLeg p final dtag c).tmb.now = c.tmb.now := by
  unfold resolveLeg; (try dsimp only) <;> (repeat' split) <;> simp [*, forEach_now]
@[simp] theorem linkLosses_now (c : Chip) : (linkLosses c).tmb.now = c.tmb.now := by
  unfold linkLosses; (try dsimp only) <;> (repeat' split) <;> (try simp [*, forEach_now]) <;>
    (try (refine (forEach_now _ _ _ (fun _ _ => ?_)).trans ?_ <;> (try dsimp only) <;> (repeat' split) <;> (try simp [*, forEach_now]) <;>
      (repeat' split) <;> (try simp [*, forEach_now])))
@[simp] theorem deviceGone_now (p : Nat) (final : Bool) (c : Chip) : (deviceGone p final c).tmb.now = c.tmb.now := by
  simp [deviceGone, *, forEach_now]
@[simp] theorem publishUsed_now (c : Chip) : (publishUsed c).tmb.now = c.tmb.now := by
  unfold publishUsed; (try dsimp only) <;> (repeat' split) <;> simp [*, forEach_now]
@[simp] theorem setI_now (i : Nat) (m : Fld) (p : Fld) (v : Nat) (c : Chip) :
    (setI i m p v c).tmb.now = c.tmb.now := by
  unfold setI; split <;> simp
@[simp] theorem mapEnd_now (i : Nat) (status : Nat) (c : Chip) : (mapEnd i status c).tmb.now = c.tmb.now := by
  unfold mapEnd; split <;> simp
@[simp] theorem ringPush_now (k : Nat) (t : Nat) (w : Nat) (c : Chip) : (ringPush k t w c).tmb.now = c.tmb.now := by
  simp [ringPush]
@[simp] theorem pushReleases_now (t : Nat) (ls : List Nat) (c : Chip) :
    (pushReleases t ls c).tmb.now = c.tmb.now := by
  simp [pushReleases, *, forEach_now]
@[simp] theorem ringWait_now (w : RingWait) (front : Bool) (c : Chip) :
    (ringWait w front c).tmb.now = c.tmb.now := by
  simp [ringWait]
@[simp] theorem ringForget_now (t : Nat) (c : Chip) : (ringForget t c).tmb.now = c.tmb.now := by
  simp [ringForget]
@[simp] theorem foundOrphan_now (t : Nat) (c : Chip) : (foundOrphan t c).tmb.now = c.tmb.now := by
  unfold foundOrphan; split <;> simp
@[simp] theorem fetchLine_now (i : Nat) (l : Nat) (c : Chip) : (fetchLine i l c).tmb.now = c.tmb.now := by
  simp [fetchLine, *, forEach_now]
@[simp] theorem fetchFor_now (t : Nat) (rd : CopyReads) (c : Chip) : (fetchFor t rd c).tmb.now = c.tmb.now := by
  unfold fetchFor; (try dsimp only) <;> (repeat' split) <;> simp [*, forEach_now]
@[simp] theorem resumeStage_now (st : Stage) (t : Nat) (c : Chip) : (resumeStage st t c).tmb.now = c.tmb.now := by
  unfold resumeStage; (try dsimp only) <;> (repeat' split) <;> (try simp [*, forEach_now]) <;>
    (try (refine (forEach_now _ _ _ (fun _ _ => ?_)).trans ?_ <;> (try dsimp only) <;> (repeat' split) <;> (try simp [*, forEach_now]) <;>
      (repeat' split) <;> (try simp [*, forEach_now])))
@[simp] theorem resumeHeld_now (t : Nat) (c : Chip) : (resumeHeld t c).tmb.now = c.tmb.now := by
  simp [resumeHeld]
@[simp] theorem dropSlot_now (k : Nat) (c : Chip) : (dropSlot k c).tmb.now = c.tmb.now := by
  simp [dropSlot]
@[simp] theorem forgetSecond_now (t : Nat) (c : Chip) : (forgetSecond t c).tmb.now = c.tmb.now := by
  simp [forgetSecond]
@[simp] theorem stopMove_now (t : Nat) (c0 : Chip) : (stopMove t c0).tmb.now = c0.tmb.now := by
  unfold stopMove; (try dsimp only) <;> (repeat' split) <;> simp [*, forEach_now]
@[simp] theorem forgetBefore_now (t : Nat) (c : Chip) : (forgetBefore t c).tmb.now = c.tmb.now := by
  simp [forgetBefore]
@[simp] theorem flipSplit_now (t : Nat) (e : Entry) (drop : Bool) (c : Chip) :
    (flipSplit t e drop c).tmb.now = c.tmb.now := by
  unfold flipSplit; (try dsimp only) <;> (repeat' split) <;> simp [*, forEach_now]
@[simp] theorem flipMends_now (t : Nat) (e : Entry) (c : Chip) : (flipMends t e c).tmb.now = c.tmb.now := by
  unfold flipMends; (try dsimp only) <;> (repeat' split) <;> simp [*, forEach_now]
@[simp] theorem endMove_now (t : Nat) (c : Chip) : (endMove t c).tmb.now = c.tmb.now := by
  unfold endMove; (try dsimp only) <;> (repeat' split) <;> simp [*, forEach_now]
@[simp] theorem applyAbort_now (t : Nat) (cw : CopyWrites) (release : Bool) (c : Chip) :
    (applyAbort t cw release c).tmb.now = c.tmb.now := by
  simp [applyAbort]
@[simp] theorem applyFlip_now (t : Nat) (cw : CopyWrites) (drop : Bool) (c : Chip) :
    (applyFlip t cw drop c).tmb.now = c.tmb.now := by
  unfold applyFlip; (try dsimp only) <;> (repeat' split) <;> simp [*, forEach_now]
@[simp] theorem askFlip_now (t : Nat) (cw : CopyWrites) (drop : Bool) (front : Bool) (c : Chip) :
    (askFlip t cw drop front c).tmb.now = c.tmb.now := by
  unfold askFlip; split <;> simp
@[simp] theorem askAbort_now (t : Nat) (cw : CopyWrites) (front : Bool) (c : Chip) :
    (askAbort t cw front c).tmb.now = c.tmb.now := by
  unfold askAbort; split <;> simp
@[simp] theorem afterCmd_now (i : Nat) (op : Nat) (t : Nat) (cw : CopyWrites) (e : Entry) (front : Bool) (c : Chip) :
    (afterCmd i op t cw e front c).tmb.now = c.tmb.now := by
  unfold afterCmd; (try dsimp only) <;> (repeat' split) <;> simp [*, forEach_now]
@[simp] theorem applyCmd_now (i : Nat) (cw : CopyWrites) (front : Bool) (c : Chip) :
    (applyCmd i cw front c).tmb.now = c.tmb.now := by
  unfold applyCmd; (try dsimp only) <;> (repeat' split) <;> simp [*, forEach_now]
@[simp] theorem setE_now (i : Nat) (k : Nat) (v : Nat) (c : Chip) : (setE i k v c).tmb.now = c.tmb.now := by
  unfold setE; split <;> simp
@[simp] theorem readEntry_now (i : Nat) (c : Chip) : (readEntry i c).tmb.now = c.tmb.now := by
  unfold readEntry; (try dsimp only) <;> (repeat' split) <;> (try simp [*, forEach_now]) <;>
    (try (refine (forEach_now _ _ _ (fun _ _ => ?_)).trans ?_ <;> (try dsimp only) <;> (repeat' split) <;> (try simp [*, forEach_now]) <;>
      (repeat' split) <;> (try simp [*, forEach_now])))
@[simp] theorem decideCmd_now (i : Nat) (cw : CopyWrites) (front : Bool) (c0 : Chip) :
    (decideCmd i cw front c0).tmb.now = c0.tmb.now := by
  unfold decideCmd; (try dsimp only) <;> (repeat' split) <;> simp [*, forEach_now]
@[simp] theorem retryMoves_now (c : Chip) : (retryMoves c).tmb.now = c.tmb.now := by
  unfold retryMoves; (try dsimp only) <;> (repeat' split) <;> (try simp [*, forEach_now]) <;>
    (try (refine (forEach_now _ _ _ (fun _ _ => ?_)).trans ?_ <;> (try dsimp only) <;> (repeat' split) <;> (try simp [*, forEach_now]) <;>
      (repeat' split) <;> (try simp [*, forEach_now])))
@[simp] theorem runCmd_now (i : Nat) (op : Nat) (cw : CopyWrites) (c : Chip) :
    (runCmd i op cw c).tmb.now = c.tmb.now := by
  simp [runCmd]
@[simp] theorem mapCmd_now (i : MapIface) (op : Nat) (cw : CopyWrites) (c : Chip) :
    (mapCmd i op cw c).tmb.now = c.tmb.now := by
  unfold mapCmd; split <;> simp
@[simp] theorem issueMove_now (t : Nat) (a : Nat) (b : Nat) (reason : Nat) (mslot : Bool) (cw : CopyWrites) (c : Chip) :
    (issueMove t a b reason mslot cw c).tmb.now = c.tmb.now := by
  unfold issueMove; (try dsimp only) <;> (repeat' split) <;> simp [*, forEach_now]
@[simp] theorem issueHeatMove_now (t : Nat) (a : Nat) (mslot : Bool) (cw : CopyWrites) (c : Chip) :
    (issueHeatMove t a mslot cw c).tmb.now = c.tmb.now := by
  simp [issueHeatMove]
@[simp] theorem issueSecond_now (m : SecondMove) (c : Chip) : (issueSecond m c).tmb.now = c.tmb.now := by
  unfold issueSecond; split <;> simp
@[simp] theorem issueSeconds_now (c : Chip) : (issueSeconds c).tmb.now = c.tmb.now := by
  simp [issueSeconds, *, forEach_now]
@[simp] theorem issueCmd_now (op : Nat) (t : Nat) (a : Nat) (b : Nat) (twin : Bool) (cw : CopyWrites) (c : Chip) :
    (issueCmd op t a b twin cw c).tmb.now = c.tmb.now := by
  unfold issueCmd; (try dsimp only) <;> (repeat' split) <;> simp [*, forEach_now]
@[simp] theorem pairMove_now (t : Nat) (w : Nat) (cw : CopyWrites) (c : Chip) :
    (pairMove t w cw c).tmb.now = c.tmb.now := by
  unfold pairMove; split <;> simp
@[simp] theorem issueHeat_now (ps : List MovePick) (t : Nat) (pan : Nat) (c : Chip) :
    (issueHeat ps t pan c).tmb.now = c.tmb.now := by
  unfold issueHeat; (try dsimp only) <;> (repeat' split) <;> simp [*, forEach_now]
@[simp] theorem heatMove_now (ps : List MovePick) (dest : Chip → Option Nat) (t : Nat) (c : Chip) :
    (heatMove ps dest t c).tmb.now = c.tmb.now := by
  unfold heatMove; split <;> simp
@[simp] theorem issueTwin_now (ps : List MovePick) (t : Nat) (c : Chip) :
    (issueTwin ps t c).tmb.now = c.tmb.now := by
  unfold issueTwin; (try dsimp only) <;> (repeat' split) <;> simp [*, forEach_now]
@[simp] theorem twinMoves_now (ps : List MovePick) (c : Chip) : (twinMoves ps c).tmb.now = c.tmb.now := by
  simp [twinMoves, *, forEach_now]
@[simp] theorem misplacedMoves_now (ps : List MovePick) (l : List Nat) (c : Chip) :
    (misplacedMoves ps l c).tmb.now = c.tmb.now := by
  simp [misplacedMoves, *, forEach_now]
@[simp] theorem heatMoves_now (ps : List MovePick) (l : List Cand) (c : Chip) :
    (heatMoves ps l c).tmb.now = c.tmb.now := by
  simp [heatMoves, *, forEach_now]
@[simp] theorem placeTile_now (t : Nat) (ch : PlaceChoice) (c : Chip) : (placeTile t ch c).tmb.now = c.tmb.now := by
  unfold placeTile; (try dsimp only) <;> (repeat' split) <;> simp [*, forEach_now]
@[simp] theorem placesGo_now (c : Chip) : (placesGo c).tmb.now = c.tmb.now := by
  simp [placesGo, *, forEach_now]
@[simp] theorem prefectGo_now (c : Chip) : (prefectGo c).tmb.now = c.tmb.now := by
  unfold prefectGo; (try dsimp only) <;> (repeat' split) <;> simp [*, forEach_now]
@[simp] theorem decideMoves_now (ps : List MovePick) (c : Chip) : (decideMoves ps c).tmb.now = c.tmb.now := by
  simp [decideMoves]
@[simp] theorem prefectsSee_now (ps : List MovePick) (c : Chip) : (prefectsSee ps c).tmb.now = c.tmb.now := by
  unfold prefectsSee; (try dsimp only) <;> (repeat' split) <;> simp [*, forEach_now]
@[simp] theorem moveEnded_now (c : Chip) : (moveEnded c).tmb.now = c.tmb.now := by
  simp [moveEnded]
@[simp] theorem formsForget_now (p : Nat → Bool) (c : Chip) : (formsForget p c).tmb.now = c.tmb.now := by
  simp [formsForget]
@[simp] theorem secondHeat_now (t : Nat) (e : Entry) (cw : CopyWrites) (c : Chip) :
    (secondHeat t e cw c).tmb.now = c.tmb.now := by
  unfold secondHeat; (try dsimp only) <;> (repeat' split) <;> simp [*, forEach_now]
@[simp] theorem effMapFlip_now (t : Nat) (cw : CopyWrites) (c : Chip) : (effMapFlip t cw c).tmb.now = c.tmb.now := by
  unfold effMapFlip; split <;> simp
@[simp] theorem effAbortRewrite_now (t : Nat) (cw : CopyWrites) (c : Chip) :
    (effAbortRewrite t cw c).tmb.now = c.tmb.now := by
  unfold effAbortRewrite; (try dsimp only) <;> (repeat' split) <;> simp [*, forEach_now]
@[simp] theorem loseCopy_now (i : Nat) (c : Chip) : (loseCopy i c).tmb.now = c.tmb.now := by
  unfold loseCopy; (try dsimp only) <;> (repeat' split) <;> simp [*, forEach_now]
@[simp] theorem checkCopies_now (c : Chip) : (checkCopies c).tmb.now = c.tmb.now := by
  unfold checkCopies; (try dsimp only) <;> (repeat' split) <;> simp [*, forEach_now]
@[simp] theorem startMap_now (lost : Option Nat) (c : Chip) : (startMap lost c).tmb.now = c.tmb.now := by
  unfold startMap; split <;> simp
@[simp] theorem runHeaders_now (c : Chip) : (runHeaders c).tmb.now = c.tmb.now := by
  unfold runHeaders; split <;> simp
@[simp] theorem effMapRun_now (c : Chip) : (effMapRun c).tmb.now = c.tmb.now := by
  unfold effMapRun; (try dsimp only) <;> (repeat' split) <;> simp [*, forEach_now]
@[simp] theorem effMapInit_now (c : Chip) : (effMapInit c).tmb.now = c.tmb.now := by
  unfold effMapInit; (try dsimp only) <;> (repeat' split) <;> simp [*, forEach_now]
@[simp] theorem writeHeaders_now (i : Nat) (gen : Nat) (c : Chip) : (writeHeaders i gen c).tmb.now = c.tmb.now := by
  simp [writeHeaders, *, forEach_now]
@[simp] theorem effMapInitDone_now (c : Chip) : (effMapInitDone c).tmb.now = c.tmb.now := by
  unfold effMapInitDone; split <;> simp
@[simp] theorem mirrorEntry_now (dst : Nat) (t : Nat) (c : Chip) : (mirrorEntry dst t c).tmb.now = c.tmb.now := by
  simp [mirrorEntry]
@[simp] theorem effMapScrub_now (badA : List Nat) (badB : List Nat) (c : Chip) :
    (effMapScrub badA badB c).tmb.now = c.tmb.now := by
  unfold effMapScrub; (try dsimp only) <;> (repeat' split) <;> simp [*, forEach_now]
@[simp] theorem effMapRebuild_now (c : Chip) : (effMapRebuild c).tmb.now = c.tmb.now := by
  unfold effMapRebuild; split <;> simp
@[simp] theorem rebuildLine_now (c : Chip) : (rebuildLine c).tmb.now = c.tmb.now := by
  unfold rebuildLine; (try dsimp only) <;> (repeat' split) <;> simp [*, forEach_now]
@[simp] theorem copyRest_now (c : Chip) : (copyRest c).tmb.now = c.tmb.now := by
  simp [copyRest, *, forEach_now]
@[simp] theorem effMapRebuilt_now (c : Chip) : (effMapRebuilt c).tmb.now = c.tmb.now := by
  unfold effMapRebuilt; split <;> simp
@[simp] theorem effMissFill_now (l : Nat) (rd : CopyReads) (c : Chip) :
    (effMissFill l rd c).tmb.now = c.tmb.now := by
  unfold effMissFill; (try dsimp only) <;> (repeat' split) <;> (try simp [*, forEach_now]) <;>
    (try (refine (forEach_now _ _ _ (fun _ _ => ?_)).trans ?_ <;> (try dsimp only) <;> (repeat' split) <;> (try simp [*, forEach_now]) <;>
      (repeat' split) <;> (try simp [*, forEach_now])))
@[simp] theorem effPlaceTimeout_now (t : Nat) (c : Chip) : (effPlaceTimeout t c).tmb.now = c.tmb.now := by
  unfold effPlaceTimeout; (try dsimp only) <;> (repeat' split) <;> simp [*, forEach_now]
@[simp] theorem prefectItem_now (i : RingItem) (ch : PlaceChoice) (c : Chip) :
    (prefectItem i ch c).tmb.now = c.tmb.now := by
  unfold prefectItem; split <;> simp
@[simp] theorem effRingRead_now (pa : Path) (ch : Option PlaceChoice) (c : Chip) :
    (effRingRead pa ch c).tmb.now = c.tmb.now := by
  unfold effRingRead; (try dsimp only) <;> (repeat' split) <;> simp [*, forEach_now]
@[simp] theorem effRingItemPlace_now (c : Chip) : (effRingItemPlace c).tmb.now = c.tmb.now := by
  unfold effRingItemPlace; (try dsimp only) <;> (repeat' split) <;> simp [*, forEach_now]
@[simp] theorem badLines_now (bad : List Nat) (c : Chip) : (badLines bad c).tmb.now = c.tmb.now := by
  simp [badLines, *, forEach_now]
@[simp] theorem effOrphanScanDone_now (bad : List Nat) (c : Chip) :
    (effOrphanScanDone bad c).tmb.now = c.tmb.now := by
  unfold effOrphanScanDone; (try dsimp only) <;> (repeat' split) <;> simp [*, forEach_now]
@[simp] theorem takeJob_now (x : Nat) (k : Nat) (c : Chip) : (takeJob x k c).tmb.now = c.tmb.now := by
  simp [takeJob]
@[simp] theorem checkSlot_now (k : Nat) (c : Chip) : (checkSlot k c).tmb.now = c.tmb.now := by
  unfold checkSlot; (try dsimp only) <;> (repeat' split) <;> simp [*, forEach_now]
@[simp] theorem checkSlots_now (c : Chip) : (checkSlots c).tmb.now = c.tmb.now := by
  simp [checkSlots, *, forEach_now]
@[simp] theorem reachChanged_now (c : Chip) : (reachChanged c).tmb.now = c.tmb.now := by
  simp [reachChanged]
@[simp] theorem effSlotAssign_now (k : Nat) (claims : Nat) (c : Chip) :
    (effSlotAssign k claims c).tmb.now = c.tmb.now := by
  unfold effSlotAssign; (try dsimp only) <;> (repeat' split) <;> simp [*, forEach_now]
@[simp] theorem noteRakErr_now (cause : Nat) (t : Nat) (c : Chip) : (noteRakErr cause t c).tmb.now = c.tmb.now := by
  unfold noteRakErr; split <;> simp
@[simp] theorem poisonedLine_now (t : Nat) (l : Nat) (e : Entry) (k : Nat) (s : RakSt) (c : Chip) :
    (poisonedLine t l e k s c).tmb.now = c.tmb.now := by
  unfold poisonedLine; (try dsimp only) <;> (repeat' split) <;> simp [*, forEach_now]
@[simp] theorem sendCopy_now (t : Nat) (l : Nat) (e : Entry) (s : RakSt) (d : Line) (poison : Bool) (c : Chip) :
    (sendCopy t l e s d poison c).tmb.now = c.tmb.now := by
  unfold sendCopy; (try dsimp only) <;> (repeat' split) <;> simp [*, forEach_now]
@[simp] theorem effLineCopy_now (k : Nat) (d : Line) (poison : Bool) (claims : Nat) (c : Chip) :
    (effLineCopy k d poison claims c).tmb.now = c.tmb.now := by
  unfold effLineCopy; (try dsimp only) <;> (repeat' split) <;> simp [*, forEach_now]
@[simp] theorem effDstFail_now (k : Nat) (cw : CopyWrites) (c : Chip) : (effDstFail k cw c).tmb.now = c.tmb.now := by
  unfold effDstFail; split <;> simp
@[simp] theorem effSrcWaitExpiry_now (k : Nat) (cw : CopyWrites) (c : Chip) :
    (effSrcWaitExpiry k cw c).tmb.now = c.tmb.now := by
  unfold effSrcWaitExpiry; (try dsimp only) <;> (repeat' split) <;> simp [*, forEach_now]
@[simp] theorem effSrcResume_now (k : Nat) (c : Chip) : (effSrcResume k c).tmb.now = c.tmb.now := by
  unfold effSrcResume; (try dsimp only) <;> (repeat' split) <;> simp [*, forEach_now]
@[simp] theorem effSlotFree_now (k : Nat) (c : Chip) : (effSlotFree k c).tmb.now = c.tmb.now := by
  unfold effSlotFree; (try dsimp only) <;> (repeat' split) <;> simp [*, forEach_now]
@[simp] theorem effJobStart_now (t : Nat) (c : Chip) : (effJobStart t c).tmb.now = c.tmb.now := by
  unfold effJobStart; (try dsimp only) <;> (repeat' split) <;> simp [*, forEach_now]
@[simp] theorem chunkLine_now (x : Nat) (src : Nat) (dst : Nat) (copy : Bool) (eccs : List (Nat × Ecc)) (i : Nat) (c : Chip) :
    (chunkLine x src dst copy eccs i c).tmb.now = c.tmb.now := by
  simp [chunkLine]
@[simp] theorem effJobChunk_now (x : Nat) (eccs : List (Nat × Ecc)) (c : Chip) :
    (effJobChunk x eccs c).tmb.now = c.tmb.now := by
  unfold effJobChunk; (try dsimp only) <;> (repeat' split) <;> simp [*, forEach_now]
@[simp] theorem advanceAge_now (d : Nat) (secs : Nat) (c : Chip) : (advanceAge d secs c).tmb.now = c.tmb.now := by
  unfold advanceAge; split <;> simp
@[simp] theorem setRegion_now (p : Nat) (r : CareRegion) (c : Chip) : (setRegion p r c).tmb.now = c.tmb.now := by
  simp [setRegion]
@[simp] theorem writeRec_now (d : Nat) (p : Nat) (t : Nat) (x : CareRec) (c : Chip) :
    (writeRec d p t x c).tmb.now = c.tmb.now := by
  simp [writeRec]
@[simp] theorem flushOldest_now (c : Chip) : (flushOldest c).tmb.now = c.tmb.now := by
  unfold flushOldest; (try dsimp only) <;> (repeat' split) <;> simp [*, forEach_now]
@[simp] theorem chargeTile_now (w : Nat) (n : Nat) (c : Chip) : (chargeTile w n c).tmb.now = c.tmb.now := by
  unfold chargeTile; (try dsimp only) <;> (repeat' split) <;> simp [*, forEach_now]
@[simp] theorem chargeMarks_now (e : Entry) (c : Chip) : (chargeMarks e c).tmb.now = c.tmb.now := by
  simp [chargeMarks, *, forEach_now]
@[simp] theorem feedRing_now (c : Chip) : (feedRing c).tmb.now = c.tmb.now := by
  unfold feedRing; (try dsimp only) <;> (repeat' split) <;> simp [*, forEach_now]
@[simp] theorem postItem_now (kind : Nat) (tile : Nat) (slot : Bool) (p : Nat) (c : Chip) :
    (postItem kind tile slot p c).tmb.now = c.tmb.now := by
  simp [postItem]
@[simp] theorem postLost_now (p : Nat) (c : Chip) : (postLost p c).tmb.now = c.tmb.now := by
  simp [postLost, *, forEach_now]
@[simp] theorem postRestore_now (p : Nat) (c : Chip) : (postRestore p c).tmb.now = c.tmb.now := by
  simp [postRestore, *, forEach_now]
@[simp] theorem evalState_now (d : Nat) (c : Chip) : (evalState d c).tmb.now = c.tmb.now := by
  unfold evalState; (try dsimp only) <;> (repeat' split) <;> simp [*, forEach_now]
@[simp] theorem evacFail_now (d : Nat) (code : Nat) (c : Chip) : (evacFail d code c).tmb.now = c.tmb.now := by
  simp [evacFail]
@[simp] theorem evacScan_now (d : Nat) (c : Chip) : (evacScan d c).tmb.now = c.tmb.now := by
  simp [evacScan, *, forEach_now]
@[simp] theorem evacStart_now (d : Nat) (c : Chip) : (evacStart d c).tmb.now = c.tmb.now := by
  unfold evacStart; split <;> simp
@[simp] theorem carLeft_now (p : Nat) (c : Chip) : (carLeft p c).tmb.now = c.tmb.now := by
  unfold carLeft; (try dsimp only) <;> (repeat' split) <;> simp [*, forEach_now]
@[simp] theorem initRegion_now (d : Nat) (c : Chip) : (initRegion d c).tmb.now = c.tmb.now := by
  simp [initRegion]
@[simp] theorem askInit_now (d : Nat) (c : Chip) : (askInit d c).tmb.now = c.tmb.now := by
  unfold askInit; (try dsimp only) <;> (repeat' split) <;> simp [*, forEach_now]
@[simp] theorem initAll_now (c : Chip) : (initAll c).tmb.now = c.tmb.now := by
  unfold initAll; (try dsimp only) <;> (repeat' split) <;> simp [*, forEach_now]
@[simp] theorem readRegion_now (d : Nat) (p : Nat) (serial : Nat) (c : Chip) :
    (readRegion d p serial c).tmb.now = c.tmb.now := by
  unfold readRegion; (try dsimp only) <;> (repeat' split) <;> simp [*, forEach_now]
@[simp] theorem carReturn_now (d : Nat) (p : Nat) (same : Bool) (serial : Nat) (c : Chip) :
    (carReturn d p same serial c).tmb.now = c.tmb.now := by
  unfold carReturn; (try dsimp only) <;> (repeat' split) <;> simp [*, forEach_now]
@[simp] theorem fallbackTemp_now (d : Nat) (c : Chip) : (fallbackTemp d c).tmb.now = c.tmb.now := by
  unfold fallbackTemp; split <;> simp
@[simp] theorem carReady_now (p : Nat) (same : Bool) (serial : Nat) (poison : List Nat) (c : Chip) :
    (carReady p same serial poison c).tmb.now = c.tmb.now := by
  unfold carReady; (try dsimp only) <;> (repeat' split) <;> simp [*, forEach_now]
@[simp] theorem setChan_now (n : Nat) (v : Nat) (c : Chip) : (setChan n v c).tmb.now = c.tmb.now := by
  simp [setChan]
@[simp] theorem pgMoves_now (n : Nat) (up : Bool) (c : Chip) : (pgMoves n up c).tmb.now = c.tmb.now := by
  unfold pgMoves; (try dsimp only) <;> (repeat' split) <;> simp [*, forEach_now]
@[simp] theorem setPg_now (n : Nat) (v : Bool) (c : Chip) : (setPg n v c).tmb.now = c.tmb.now := by
  unfold setPg; split <;> simp
@[simp] theorem gateOff_now (n : Nat) (st : Nat) (c : Chip) : (gateOff n st c).tmb.now = c.tmb.now := by
  simp [gateOff]
@[simp] theorem tryHold_now (n : Nat) (c : Chip) : (tryHold n c).tmb.now = c.tmb.now := by
  unfold tryHold; split <;> simp
@[simp] theorem setReq_now (n : Nat) (v : Bool) (c : Chip) : (setReq n v c).tmb.now = c.tmb.now := by
  unfold setReq; (try dsimp only) <;> (repeat' split) <;> simp [*, forEach_now]
@[simp] theorem trip_now (n : Nat) (cause : Nat) (c : Chip) : (trip n cause c).tmb.now = c.tmb.now := by
  simp [trip]
@[simp] theorem senseShunt_now (n : Nat) (isns : Nat) (c : Chip) : (senseShunt n isns c).tmb.now = c.tmb.now := by
  simp [senseShunt]
@[simp] theorem senseRail_now (n : Nat) (srail : Nat) (c : Chip) : (senseRail n srail c).tmb.now = c.tmb.now := by
  simp [senseRail]
@[simp] theorem answerSnoop_now (s : Snoop) (r : BiRsp) (c : Chip) : (answerSnoop s r c).tmb.now = c.tmb.now := by
  simp [answerSnoop]
@[simp] theorem rolProto_now (h : Nat) (l : Nat) (c : Chip) : (rolProto h l c).tmb.now = c.tmb.now := by
  simp [rolProto]
@[simp] theorem effBirsp_now (p : Nat) (tag : Nat) (r : BiRsp) (c : Chip) :
    (effBirsp p tag r c).tmb.now = c.tmb.now := by
  unfold effBirsp; (try dsimp only) <;> (repeat' split) <;> simp [*, forEach_now]
@[simp] theorem decideWaited_now (u : Txn) (c : Chip) : (decideWaited u c).tmb.now = c.tmb.now := by
  unfold decideWaited; (try dsimp only) <;> (repeat' split) <;> simp [*, forEach_now]
@[simp] theorem serveNext_now (l : Nat) (c : Chip) : (serveNext l c).tmb.now = c.tmb.now := by
  unfold serveNext; (try dsimp only) <;> (repeat' split) <;> simp [*, forEach_now]
@[simp] theorem effSnpTimeout_now (tag : Nat) (c : Chip) : (effSnpTimeout tag c).tmb.now = c.tmb.now := by
  unfold effSnpTimeout; (try dsimp only) <;> (repeat' split) <;> simp [*, forEach_now]
@[simp] theorem clearGone_now (c : Chip) : (clearGone c).tmb.now = c.tmb.now := by
  unfold clearGone; (try dsimp only) <;> (repeat' split) <;> simp [*, forEach_now]
@[simp] theorem metGone_now (p : Nat) (c : Chip) : (metGone p c).tmb.now = c.tmb.now := by
  unfold metGone; (try dsimp only) <;> (repeat' split) <;> simp [*, forEach_now]
@[simp] theorem effScrubDone_now (c : Chip) : (effScrubDone c).tmb.now = c.tmb.now := by
  unfold effScrubDone; split <;> simp
@[simp] theorem probe_now (c : Chip) : (probe c).tmb.now = c.tmb.now := by
  simp [probe]
@[simp] theorem parkHwClr_now (c : Chip) : (parkHwClr c).tmb.now = c.tmb.now := by
  simp [parkHwClr]
@[simp] theorem unsupported_now (p : Nat) (tag : Nat) (c : Chip) : (unsupported p tag c).tmb.now = c.tmb.now := by
  simp [unsupported]
@[simp] theorem atomLookup_now (p : Nat) (t : Nat) (tag : Nat) (dpa : Nat) (ecc : Ecc) (f : Txn → Txn) (c : Chip) :
    (atomLookup p t tag dpa ecc f c).tmb.now = c.tmb.now := by
  unfold atomLookup; (try dsimp only) <;> (repeat' split) <;> simp [*, forEach_now]
@[simp] theorem atomGo_now (p : Nat) (off : Nat) (pasid : Option Nat) (k : AtomicKind) (w : AtomicWidth) (op : BitVec 128) (cmp : BitVec 128) (tag : Nat) (ecc : Ecc) (c : Chip) :
    (atomGo p off pasid k w op cmp tag ecc c).tmb.now = c.tmb.now := by
  unfold atomGo; (try dsimp only) <;> (repeat' split) <;> simp [*, forEach_now]
@[simp] theorem answerCredits_now (p : Nat) (dtag : Nat) (c : Chip) :
    (answerCredits p dtag c).tmb.now = c.tmb.now := by
  unfold answerCredits; (try dsimp only) <;> (repeat' split) <;> simp [*, forEach_now]
@[simp] theorem effCplTmo_now (p : Nat) (dtag : Option Nat) (c : Chip) :
    (effCplTmo p dtag c).tmb.now = c.tmb.now := by
  unfold effCplTmo; (try dsimp only) <;> (repeat' split) <;> simp [*, forEach_now]
@[simp] theorem exportGo_now (q : Nat) (r : ExportReq) (bad : Bool) (ecc : Ecc) (c : Chip) :
    (exportGo q r bad ecc c).tmb.now = c.tmb.now := by
  unfold exportGo; (try dsimp only) <;> (repeat' split) <;> simp [*, forEach_now]
@[simp] theorem setPkts_now (l : List Pkt) (c : Chip) : (setPkts l c).tmb.now = c.tmb.now := by
  simp [setPkts]
@[simp] theorem putPkt_now (k : Pkt) (c : Chip) : (putPkt k c).tmb.now = c.tmb.now := by
  simp [putPkt]
@[simp] theorem dropPkt_now (k : Pkt) (c : Chip) : (dropPkt k c).tmb.now = c.tmb.now := by
  simp [dropPkt]
@[simp] theorem payCredits_now (k : Pkt) (lines : Nat) (c : Chip) : (payCredits k lines c).tmb.now = c.tmb.now := by
  simp [payCredits]
@[simp] theorem testPkt_now (k : Pkt) (c : Chip) : (testPkt k c).tmb.now = c.tmb.now := by
  unfold testPkt; (try dsimp only) <;> (repeat' split) <;> simp [*, forEach_now]
@[simp] theorem holdBehind_now (k : Pkt) (c : Chip) : (holdBehind k c).tmb.now = c.tmb.now := by
  simp [holdBehind]
@[simp] theorem retest_now (c : Chip) : (retest c).tmb.now = c.tmb.now := by
  simp [retest, *, forEach_now]
@[simp] theorem releasePkt_now (k : Pkt) (c : Chip) : (releasePkt k c).tmb.now = c.tmb.now := by
  unfold releasePkt; split <;> simp
@[simp] theorem discardPkt_now (k : Pkt) (c : Chip) : (discardPkt k c).tmb.now = c.tmb.now := by
  unfold discardPkt; split <;> simp
@[simp] theorem countLost_now (c : Chip) : (countLost c).tmb.now = c.tmb.now := by
  simp [countLost]
@[simp] theorem stallEnd_now (k : Pkt) (c : Chip) : (stallEnd k c).tmb.now = c.tmb.now := by
  unfold stallEnd; split <;> simp
@[simp] theorem lateCells_now (k : Pkt) (n : Nat) (c : Chip) : (lateCells k n c).tmb.now = c.tmb.now := by
  unfold lateCells; (try dsimp only) <;> (repeat' split) <;> simp [*, forEach_now]
@[simp] theorem ingressDown_now (p : Nat) (c : Chip) : (ingressDown p c).tmb.now = c.tmb.now := by
  simp [ingressDown, *, forEach_now]
@[simp] theorem handToPort_now (k : Pkt) (c : Chip) : (handToPort k c).tmb.now = c.tmb.now := by
  unfold handToPort; (try dsimp only) <;> (repeat' split) <;> simp [*, forEach_now]
@[simp] theorem undelivered_now (p : Nat) (c : Chip) : (undelivered p c).tmb.now = c.tmb.now := by
  simp [undelivered]
@[simp] theorem egressDown_now (p : Nat) (c : Chip) : (egressDown p c).tmb.now = c.tmb.now := by
  unfold egressDown; (try dsimp only) <;> (repeat' split) <;> (try simp [*, forEach_now]) <;>
    (try (refine (forEach_now _ _ _ (fun _ _ => ?_)).trans ?_ <;> (try dsimp only) <;> (repeat' split) <;> (try simp [*, forEach_now]) <;>
      (repeat' split) <;> (try simp [*, forEach_now])))
@[simp] theorem xbrLinkDown_now (p : Nat) (c : Chip) : (xbrLinkDown p c).tmb.now = c.tmb.now := by
  simp [xbrLinkDown]
@[simp] theorem xbrPortReset_now (p : Nat) (c : Chip) : (xbrPortReset p c).tmb.now = c.tmb.now := by
  unfold xbrPortReset; (try dsimp only) <;> (repeat' split) <;> (try simp [*, forEach_now]) <;>
    (try (refine (forEach_now _ _ _ (fun _ _ => ?_)).trans ?_ <;> (try dsimp only) <;> (repeat' split) <;> (try simp [*, forEach_now]) <;>
      (repeat' split) <;> (try simp [*, forEach_now])))
@[simp] theorem movePkts_now (failed : Nat) (survivor : Nat) (c : Chip) :
    (movePkts failed survivor c).tmb.now = c.tmb.now := by
  simp [movePkts]
@[simp] theorem dropPair_now (p : Nat) (q : Nat) (c : Chip) : (dropPair p q c).tmb.now = c.tmb.now := by
  unfold dropPair; (try dsimp only) <;> (repeat' split) <;> (try simp [*, forEach_now]) <;>
    (try (refine (forEach_now _ _ _ (fun _ _ => ?_)).trans ?_ <;> (try dsimp only) <;> (repeat' split) <;> (try simp [*, forEach_now]) <;>
      (repeat' split) <;> (try simp [*, forEach_now])))
@[simp] theorem setWdrr_now (e : Nat) (cls : Nat) (l : List (Nat × Nat)) (c : Chip) :
    (setWdrr e cls l c).tmb.now = c.tmb.now := by
  simp [setWdrr]
@[simp] theorem joinWdrr_now (k : Pkt) (c : Chip) : (joinWdrr k c).tmb.now = c.tmb.now := by
  unfold joinWdrr; (try dsimp only) <;> (repeat' split) <;> simp [*, forEach_now]
@[simp] theorem noteAsked_now (k : Pkt) (c : Chip) : (noteAsked k c).tmb.now = c.tmb.now := by
  unfold noteAsked; (try dsimp only) <;> (repeat' split) <;> simp [*, forEach_now]
@[simp] theorem noteAnswer_now (i : PktIn) (c : Chip) : (noteAnswer i c).tmb.now = c.tmb.now := by
  unfold noteAnswer; split <;> simp
@[simp] theorem sendCell_now (k : Pkt) (c : Chip) : (sendCell k c).tmb.now = c.tmb.now := by
  unfold sendCell; (try dsimp only) <;> (repeat' split) <;> simp [*, forEach_now]
@[simp] theorem takePkt_now (k : Pkt) (l : Option (List (Nat × Nat))) (c : Chip) :
    (takePkt k l c).tmb.now = c.tmb.now := by
  unfold takePkt; (try dsimp only) <;> (repeat' split) <;> simp [*, forEach_now]
@[simp] theorem noteErrs_now (errs : List SlotErr) (g : Nat) (k : Pkt) (cell : Nat) (c : Chip) :
    (noteErrs errs g k cell c).tmb.now = c.tmb.now := by
  simp [noteErrs]
@[simp] theorem serveCell_now (errs : List SlotErr) (k : Pkt) (l : Option (List (Nat × Nat))) (c : Chip) :
    (serveCell errs k l c).tmb.now = c.tmb.now := by
  unfold serveCell; (try dsimp only) <;> (repeat' split) <;> simp [*, forEach_now]
@[simp] theorem secondCell_now (errs : List SlotErr) (i : Nat) (e : Nat) (cls : Nat) (k : Pkt) (c : Chip) :
    (secondCell errs i e cls k c).tmb.now = c.tmb.now := by
  unfold secondCell; (try dsimp only) <;> (repeat' split) <;> simp [*, forEach_now]
@[simp] theorem serveMatch_now (errs : List SlotErr) (m : Nat × Nat) (c : Chip) :
    (serveMatch errs m c).tmb.now = c.tmb.now := by
  unfold serveMatch; (try dsimp only) <;> (repeat' split) <;> simp [*, forEach_now]
@[simp] theorem movePtrs_now (ms : List (Nat × Nat)) (c : Chip) : (movePtrs ms c).tmb.now = c.tmb.now := by
  simp [movePtrs, *, forEach_now]
@[simp] theorem matchSlot_now (c : Chip) (reqs : List (Nat × Nat)) : (matchSlot c reqs).2.tmb.now = c.tmb.now := by
  simp [matchSlot]
@[simp] theorem readCopy_now (errs : List SlotErr) (k : Pkt) (p : Nat) (c : Chip) :
    (readCopy errs k p c).tmb.now = c.tmb.now := by
  unfold readCopy; (try dsimp only) <;> (repeat' split) <;> simp [*, forEach_now]
@[simp] theorem multicastPhase_now (errs : List SlotErr) (c : Chip) :
    (multicastPhase errs c).2.tmb.now = c.tmb.now := by
  unfold multicastPhase; (try dsimp only) <;> (repeat' split) <;> (try simp [*, forEach_now]) <;>
    (try (refine (forEach_now _ _ _ (fun _ _ => ?_)).trans ?_ <;> (try dsimp only) <;> (repeat' split) <;> (try simp [*, forEach_now]) <;>
      (repeat' split) <;> (try simp [*, forEach_now])))
@[simp] theorem effSlot_now (errs : List SlotErr) (c : Chip) : (effSlot errs c).tmb.now = c.tmb.now := by
  unfold effSlot; (try dsimp only) <;> (repeat' split) <;> simp [*, forEach_now]
@[simp] theorem serveExport_now (errs : List SlotErr) (k : Pkt) (ecc : Ecc) (c : Chip) :
    (serveExport errs k ecc c).tmb.now = c.tmb.now := by
  unfold serveExport; (try dsimp only) <;> (repeat' split) <;> simp [*, forEach_now]
@[simp] theorem discardNew_now (i : PktIn) (c : Chip) : (discardNew i c).tmb.now = c.tmb.now := by
  simp [discardNew]
@[simp] theorem enterPkt_now (i : PktIn) (e : Nat) (errs : List SlotErr) (ecc : Ecc) (c : Chip) :
    (enterPkt i e errs ecc c).tmb.now = c.tmb.now := by
  unfold enterPkt; (try dsimp only) <;> (repeat' split) <;> simp [*, forEach_now]
@[simp] theorem moreCells_now (k : Pkt) (n : Nat) (errs : List SlotErr) (ecc : Ecc) (c : Chip) :
    (moreCells k n errs ecc c).tmb.now = c.tmb.now := by
  unfold moreCells; (try dsimp only) <;> (repeat' split) <;> simp [*, forEach_now]
@[simp] theorem arrivalLookup_now (i : PktIn) (ecc : Ecc) (c : Chip) :
    (arrivalLookup i ecc c).tmb.now = c.tmb.now := by
  unfold arrivalLookup; (try dsimp only) <;> (repeat' split) <;> simp [*, forEach_now]
@[simp] theorem placePkt_now (i : PktIn) (errs : List SlotErr) (ecc : Ecc) (c : Chip) :
    (placePkt i errs ecc c).tmb.now = c.tmb.now := by
  unfold placePkt; (try dsimp only) <;> (repeat' split) <;> simp [*, forEach_now]
@[simp] theorem effArrival_now (i : PktIn) (errs : List SlotErr) (ecc : Ecc) (c : Chip) :
    (effArrival i errs ecc c).tmb.now = c.tmb.now := by
  unfold effArrival; (try dsimp only) <;> (repeat' split) <;> simp [*, forEach_now]
@[simp] theorem effStall_now (i : Nat) (c : Chip) : (effStall i c).tmb.now = c.tmb.now := by
  unfold effStall; (try dsimp only) <;> (repeat' split) <;> simp [*, forEach_now]
@[simp] theorem effLate_now (i : Nat) (n : Nat) (c : Chip) : (effLate i n c).tmb.now = c.tmb.now := by
  unfold effLate; (try dsimp only) <;> (repeat' split) <;> simp [*, forEach_now]
@[simp] theorem pmodeWrite_now (p : Nat) (fr : Bool) (ct : Nat) (c : Chip) :
    (pmodeWrite p fr ct c).tmb.now = c.tmb.now := by
  unfold pmodeWrite; split <;> simp
@[simp] theorem slotReport_now (p : Nat) (button : Bool) (presence : Bool) (link : Bool) (c : Chip) :
    (slotReport p button presence link c).tmb.now = c.tmb.now := by
  unfold slotReport; (try dsimp only) <;> (repeat' split) <;> simp [*, forEach_now]
@[simp] theorem setHot_now (p : Nat) (h : HotStep) (c : Chip) : (setHot p h c).tmb.now = c.tmb.now := by
  simp [setHot]
@[simp] theorem setPerst_now (p : Nat) (high : Bool) (c : Chip) : (setPerst p high c).tmb.now = c.tmb.now := by
  simp [setPerst]
@[simp] theorem setPwrInd_now (p : Nat) (v : Nat) (c : Chip) : (setPwrInd p v c).tmb.now = c.tmb.now := by
  unfold setPwrInd; split <;> simp
@[simp] theorem startPower_now (p : Nat) (c : Chip) : (startPower p c).tmb.now = c.tmb.now := by
  simp [startPower]
@[simp] theorem stopPower_now (p : Nat) (c : Chip) : (stopPower p c).tmb.now = c.tmb.now := by
  simp [stopPower]
@[simp] theorem slotRequest_now (p : Nat) (on : Bool) (c : Chip) : (slotRequest p on c).tmb.now = c.tmb.now := by
  unfold slotRequest; (try dsimp only) <;> (repeat' split) <;> simp [*, forEach_now]
@[simp] theorem linkClear_now (p : Nat) (c : Chip) : (linkClear p c).tmb.now = c.tmb.now := by
  simp [linkClear, *, forEach_now]
@[simp] theorem devLeft_now (p : Nat) (result : Nat) (c : Chip) : (devLeft p result c).tmb.now = c.tmb.now := by
  unfold devLeft; split <;> simp
@[simp] theorem devLinkGone_now (p : Nat) (result : Nat) (c : Chip) :
    (devLinkGone p result c).tmb.now = c.tmb.now := by
  simp [devLinkGone]
@[simp] theorem loseAnswers_now (p : Nat) (c : Chip) : (loseAnswers p c).tmb.now = c.tmb.now := by
  simp [loseAnswers, *, forEach_now]
@[simp] theorem poolFaceDown_now (p : Nat) (c : Chip) : (poolFaceDown p c).tmb.now = c.tmb.now := by
  simp [poolFaceDown]
@[simp] theorem retrainStep_now (p : Nat) (c : Chip) : (retrainStep p c).tmb.now = c.tmb.now := by
  simp [retrainStep]
@[simp] theorem answerAsked_now (p : Nat) (c : Chip) : (answerAsked p c).tmb.now = c.tmb.now := by
  simp [answerAsked, *, forEach_now]
@[simp] theorem linkLost_now (p : Nat) (c : Chip) : (linkLost p c).tmb.now = c.tmb.now := by
  unfold linkLost; (try dsimp only) <;> (repeat' split) <;> simp [*, forEach_now]
@[simp] theorem withdrawWidth_now (p : Nat) (c : Chip) : (withdrawWidth p c).tmb.now = c.tmb.now := by
  unfold withdrawWidth; (try dsimp only) <;> (repeat' split) <;> simp [*, forEach_now]
@[simp] theorem failover_now (p : Nat) (q : Nat) (c : Chip) : (failover p q c).tmb.now = c.tmb.now := by
  simp [failover, *, forEach_now]
@[simp] theorem retarget_now (b : Nat) (src : Nat) (dst : Nat) (c : Chip) :
    (retarget b src dst c).tmb.now = c.tmb.now := by
  simp [retarget]
@[simp] theorem bucketGo_now (p : Nat) (b : Nat) (c : Chip) : (bucketGo p b c).tmb.now = c.tmb.now := by
  simp [bucketGo]
@[simp] theorem carryAlone_now (p : Nat) (c : Chip) : (carryAlone p c).tmb.now = c.tmb.now := by
  simp [carryAlone, *, forEach_now]
@[simp] theorem dropFlits_now (p : Nat) (c : Chip) : (dropFlits p c).tmb.now = c.tmb.now := by
  simp [dropFlits]
@[simp] theorem pairDown_now (p : Nat) (q : Nat) (c : Chip) : (pairDown p q c).tmb.now = c.tmb.now := by
  unfold pairDown; (try dsimp only) <;> (repeat' split) <;> simp [*, forEach_now]
@[simp] theorem memberDown_now (p : Nat) (c : Chip) : (memberDown p c).tmb.now = c.tmb.now := by
  unfold memberDown; (try dsimp only) <;> (repeat' split) <;> simp [*, forEach_now]
@[simp] theorem trunkDown_now (p : Nat) (c : Chip) : (trunkDown p c).tmb.now = c.tmb.now := by
  unfold trunkDown; split <;> simp
@[simp] theorem edgeDown_now (p : Nat) (asked : Bool) (c : Chip) : (edgeDown p asked c).tmb.now = c.tmb.now := by
  simp [edgeDown]
@[simp] theorem trunkOut_now (p : Nat) (asked : Bool) (c : Chip) : (trunkOut p asked c).tmb.now = c.tmb.now := by
  unfold trunkOut; (try dsimp only) <;> (repeat' split) <;> simp [*, forEach_now]
@[simp] theorem takeDown_now (p : Nat) (asked : Bool) (c : Chip) : (takeDown p asked c).tmb.now = c.tmb.now := by
  unfold takeDown; (try dsimp only) <;> (repeat' split) <;> simp [*, forEach_now]
@[simp] theorem enterRecovery_now (p : Nat) (c : Chip) : (enterRecovery p c).tmb.now = c.tmb.now := by
  unfold enterRecovery; (try dsimp only) <;> (repeat' split) <;> simp [*, forEach_now]
@[simp] theorem failHot_now (p : Nat) (code : Nat) (c : Chip) : (failHot p code c).tmb.now = c.tmb.now := by
  simp [failHot]
@[simp] theorem deviceArrives_now (p : Nat) (d : DeviceInfo) (c : Chip) :
    (deviceArrives p d c).tmb.now = c.tmb.now := by
  unfold deviceArrives; split <;> simp
@[simp] theorem bindMedia_now (p : Nat) (serial : Nat) (c : Chip) : (bindMedia p serial c).tmb.now = c.tmb.now := by
  unfold bindMedia; split <;> simp
@[simp] theorem deviceReady_now (p : Nat) (d : DeviceInfo) (c : Chip) : (deviceReady p d c).tmb.now = c.tmb.now := by
  simp [deviceReady]
@[simp] theorem presenceLost_now (p : Nat) (c : Chip) : (presenceLost p c).tmb.now = c.tmb.now := by
  unfold presenceLost; (try dsimp only) <;> (repeat' split) <;> simp [*, forEach_now]
@[simp] theorem removeDevice_now (p : Nat) (c : Chip) : (removeDevice p c).tmb.now = c.tmb.now := by
  simp [removeDevice]
@[simp] theorem clearCounts_now (pg : Nat) (c : Chip) : (clearCounts pg c).tmb.now = c.tmb.now := by
  simp [clearCounts]
@[simp] theorem clearLane_now (l : Nat) (c : Chip) : (clearLane l c).tmb.now = c.tmb.now := by
  simp [clearLane, *, forEach_now]
@[simp] theorem portResetGo_now (p : Nat) (asked : Bool) (c : Chip) :
    (portResetGo p asked c).tmb.now = c.tmb.now := by
  unfold portResetGo; (try dsimp only) <;> (repeat' split) <;> simp [*, forEach_now]
@[simp] theorem forgetPage_now (d : Nat) (c : Chip) : (forgetPage d c).tmb.now = c.tmb.now := by
  simp [forgetPage]
@[simp] theorem carBind_now (d : Nat) (en : Bool) (c : Chip) : (carBind d en c).tmb.now = c.tmb.now := by
  unfold carBind; (try dsimp only) <;> (repeat' split) <;> simp [*, forEach_now]
@[simp] theorem effHealthPoll_now (d : Nat) (r : HealthReport) (c : Chip) :
    (effHealthPoll d r c).tmb.now = c.tmb.now := by
  unfold effHealthPoll; (try dsimp only) <;> (repeat' split) <;> simp [*, forEach_now]
@[simp] theorem effHealthFail_now (d : Nat) (secs : Nat) (c : Chip) :
    (effHealthFail d secs c).tmb.now = c.tmb.now := by
  unfold effHealthFail; split <;> simp
@[simp] theorem dropPending_now (w : Nat) (c : Chip) : (dropPending w c).tmb.now = c.tmb.now := by
  simp [dropPending]
@[simp] theorem noteExpired_now (tile : Nat) (c : Chip) : (noteExpired tile c).tmb.now = c.tmb.now := by
  unfold noteExpired; (try dsimp only) <;> (repeat' split) <;> simp [*, forEach_now]
@[simp] theorem evalRecord_now (d : Nat) (x : CareRec) (c : Chip) : (evalRecord d x c).tmb.now = c.tmb.now := by
  unfold evalRecord; split <;> simp
@[simp] theorem passRecord_now (d : Nat) (t : Nat) (c : Chip) : (passRecord d t c).tmb.now = c.tmb.now := by
  unfold passRecord; (try dsimp only) <;> (repeat' split) <;> simp [*, forEach_now]
@[simp] theorem newDevicePass_now (d : Nat) (c : Chip) : (newDevicePass d c).tmb.now = c.tmb.now := by
  unfold newDevicePass; (try dsimp only) <;> (repeat' split) <;> simp [*, forEach_now]
@[simp] theorem twstalePass_now (d : Nat) (c : Chip) : (twstalePass d c).tmb.now = c.tmb.now := by
  unfold twstalePass; (try dsimp only) <;> (repeat' split) <;> simp [*, forEach_now]
@[simp] theorem passDevice_now (d : Nat) (c : Chip) : (passDevice d c).tmb.now = c.tmb.now := by
  unfold passDevice; (try dsimp only) <;> (repeat' split) <;> simp [*, forEach_now]
@[simp] theorem runPass_now (c : Chip) : (runPass c).tmb.now = c.tmb.now := by
  simp [runPass, *, forEach_now]
@[simp] theorem passDefects_now (ls : List Loc) (c : Chip) : (passDefects ls c).tmb.now = c.tmb.now := by
  simp [passDefects, *, forEach_now]
@[simp] theorem effPassStart_now (poison : List Loc) (c : Chip) : (effPassStart poison c).tmb.now = c.tmb.now := by
  unfold effPassStart; (try dsimp only) <;> (repeat' split) <;> simp [*, forEach_now]
@[simp] theorem closeDevice_now (d : Nat) (c : Chip) : (closeDevice d c).tmb.now = c.tmb.now := by
  unfold closeDevice; split <;> simp
@[simp] theorem setMargin_now (c : Chip) : (setMargin c).tmb.now = c.tmb.now := by
  unfold setMargin; (try dsimp only) <;> (repeat' split) <;> simp [*, forEach_now]
@[simp] theorem effPassDone_now (durS : Nat) (poison : List Loc) (c : Chip) :
    (effPassDone durS poison c).tmb.now = c.tmb.now := by
  unfold effPassDone; (try dsimp only) <;> (repeat' split) <;> simp [*, forEach_now]
@[simp] theorem careItem_now (i : CareItem) (ch : PlaceChoice) (c : Chip) :
    (careItem i ch c).tmb.now = c.tmb.now := by
  unfold careItem; (try dsimp only) <;> (repeat' split) <;> simp [*, forEach_now]
@[simp] theorem noSpace_now (i : CareItem) (c : Chip) : (noSpace i c).tmb.now = c.tmb.now := by
  unfold noSpace; (try dsimp only) <;> (repeat' split) <;> simp [*, forEach_now]
@[simp] theorem effCareRead_now (pa : Path) (ch : Option PlaceChoice) (c : Chip) :
    (effCareRead pa ch c).tmb.now = c.tmb.now := by
  unfold effCareRead; (try dsimp only) <;> (repeat' split) <;> simp [*, forEach_now]
@[simp] theorem sendMend_now (x : Nat) (y : Nat) (l : Nat) (good : DevStatus) (d : Line) (c : Chip) :
    (sendMend x y l good d c).tmb.now = c.tmb.now := by
  unfold sendMend; split <;> simp
@[simp] theorem effMend_now (good : DevStatus) (d : Line) (writeOk : Bool) (c : Chip) :
    (effMend good d writeOk c).tmb.now = c.tmb.now := by
  unfold effMend; (try dsimp only) <;> (repeat' split) <;> simp [*, forEach_now]
@[simp] theorem effTwstale_now (d : Nat) (c : Chip) : (effTwstale d c).tmb.now = c.tmb.now := by
  unfold effTwstale; split <;> simp
@[simp] theorem effLostWait_now (d : Nat) (c : Chip) : (effLostWait d c).tmb.now = c.tmb.now := by
  unfold effLostWait; split <;> simp
@[simp] theorem evacDone_now (d : Nat) (c : Chip) : (evacDone d c).tmb.now = c.tmb.now := by
  simp [evacDone]
@[simp] theorem evacLook_now (d : Nat) (c : Chip) : (evacLook d c).tmb.now = c.tmb.now := by
  unfold evacLook; (try dsimp only) <;> (repeat' split) <;> simp [*, forEach_now]
@[simp] theorem effEvacTimeout_now (d : Nat) (c : Chip) : (effEvacTimeout d c).tmb.now = c.tmb.now := by
  unfold effEvacTimeout; split <;> simp
@[simp] theorem abortEvac_now (d : Nat) (code : Nat) (c : Chip) : (abortEvac d code c).tmb.now = c.tmb.now := by
  unfold abortEvac; split <;> simp
@[simp] theorem onVaux_now (f : Chip → Chip) (c : Chip) (hf : ∀  c, (f  c).tmb.now = c.tmb.now) :
    (onVaux f c).tmb.now = c.tmb.now := by
  unfold onVaux; (try dsimp only) <;> (repeat' split) <;> simp [*, forEach_now]
@[simp] theorem slpEnable_now (n : Nat) (en : Bool) (c : Chip) : (slpEnable n en c).tmb.now = c.tmb.now := by
  unfold slpEnable; split <;> simp
@[simp] theorem softReq_now (n : Nat) (req : Bool) (c : Chip) : (softReq n req c).tmb.now = c.tmb.now := by
  unfold softReq; split <;> simp
@[simp] theorem portReq_now (n : Nat) (req : Bool) (c : Chip) : (portReq n req c).tmb.now = c.tmb.now := by
  unfold portReq; split <;> simp
@[simp] theorem portPresent_now (n : Nat) (c : Chip) : (portPresent n c).tmb.now = c.tmb.now := by
  unfold portPresent; (try dsimp only) <;> (repeat' split) <;> simp [*, forEach_now]
@[simp] theorem effQualified_now (n : Nat) (c : Chip) : (effQualified n c).tmb.now = c.tmb.now := by
  unfold effQualified; (try dsimp only) <;> (repeat' split) <;> simp [*, forEach_now]
@[simp] theorem effRemoval_now (n : Nat) (c : Chip) : (effRemoval n c).tmb.now = c.tmb.now := by
  unfold effRemoval; (try dsimp only) <;> (repeat' split) <;> simp [*, forEach_now]
@[simp] theorem enterRamp_now (n : Nat) (c : Chip) : (enterRamp n c).tmb.now = c.tmb.now := by
  simp [enterRamp]
@[simp] theorem effRampAdmit_now (n : Nat) (c : Chip) : (effRampAdmit n c).tmb.now = c.tmb.now := by
  unfold effRampAdmit; split <;> simp
@[simp] theorem effGateFull_now (n : Nat) (vgs : Nat) (c : Chip) : (effGateFull n vgs c).tmb.now = c.tmb.now := by
  unfold effGateFull; (try dsimp only) <;> (repeat' split) <;> simp [*, forEach_now]
@[simp] theorem effPgQualified_now (n : Nat) (c : Chip) : (effPgQualified n c).tmb.now = c.tmb.now := by
  unfold effPgQualified; split <;> simp
@[simp] theorem effLimitOnset_now (n : Nat) (isns : Nat) (c : Chip) :
    (effLimitOnset n isns c).tmb.now = c.tmb.now := by
  unfold effLimitOnset; (try dsimp only) <;> (repeat' split) <;> simp [*, forEach_now]
@[simp] theorem effLimitEnd_now (n : Nat) (isns : Nat) (good : Bool) (c : Chip) :
    (effLimitEnd n isns good c).tmb.now = c.tmb.now := by
  unfold effLimitEnd; (try dsimp only) <;> (repeat' split) <;> simp [*, forEach_now]
@[simp] theorem effFaultTimer_now (n : Nat) (c : Chip) : (effFaultTimer n c).tmb.now = c.tmb.now := by
  unfold effFaultTimer; split <;> simp
@[simp] theorem effRampTimeout_now (n : Nat) (c : Chip) : (effRampTimeout n c).tmb.now = c.tmb.now := by
  unfold effRampTimeout; split <;> simp
@[simp] theorem effFastTrip_now (n : Nat) (isns : Nat) (c : Chip) : (effFastTrip n isns c).tmb.now = c.tmb.now := by
  unfold effFastTrip; (try dsimp only) <;> (repeat' split) <;> simp [*, forEach_now]
@[simp] theorem effCooldownEnd_now (n : Nat) (c : Chip) : (effCooldownEnd n c).tmb.now = c.tmb.now := by
  unfold effCooldownEnd; (try dsimp only) <;> (repeat' split) <;> simp [*, forEach_now]
@[simp] theorem setHv_now (cv : Nat) (ok : Bool) (c : Chip) : (setHv cv ok c).tmb.now = c.tmb.now := by
  simp [setHv]
@[simp] theorem effHvValid_now (cv : Nat) (c : Chip) : (effHvValid cv c).tmb.now = c.tmb.now := by
  unfold effHvValid; split <;> simp
@[simp] theorem effHvLost_now (cv : Nat) (c : Chip) : (effHvLost cv c).tmb.now = c.tmb.now := by
  unfold effHvLost; (try dsimp only) <;> (repeat' split) <;> simp [*, forEach_now]
@[simp] theorem effRailEnd_now (n : Nat) (srail : Nat) (c : Chip) : (effRailEnd n srail c).tmb.now = c.tmb.now := by
  unfold effRailEnd; (try dsimp only) <;> (repeat' split) <;> simp [*, forEach_now]
@[simp] theorem effRailReturn_now (n : Nat) (srail : Nat) (c : Chip) :
    (effRailReturn n srail c).tmb.now = c.tmb.now := by
  unfold effRailReturn; (try dsimp only) <;> (repeat' split) <;> simp [*, forEach_now]
@[simp] theorem effRetryClear_now (n : Nat) (c : Chip) : (effRetryClear n c).tmb.now = c.tmb.now := by
  unfold effRetryClear; split <;> simp
@[simp] theorem effFetShort_now (n : Nat) (srail : Nat) (c : Chip) :
    (effFetShort n srail c).tmb.now = c.tmb.now := by
  unfold effFetShort; (try dsimp only) <;> (repeat' split) <;> simp [*, forEach_now]
@[simp] theorem peakClr_now (n : Nat) (c : Chip) : (peakClr n c).tmb.now = c.tmb.now := by
  simp [peakClr]
@[simp] theorem enableSlot_now (p : Nat) (c : Chip) : (enableSlot p c).tmb.now = c.tmb.now := by
  unfold enableSlot; (try dsimp only) <;> (repeat' split) <;> simp [*, forEach_now]
@[simp] theorem laneJoins_now (l : Nat) (c : Chip) : (laneJoins l c).tmb.now = c.tmb.now := by
  simp [laneJoins]
@[simp] theorem laneLeaves_now (l : Nat) (c : Chip) : (laneLeaves l c).tmb.now = c.tmb.now := by
  simp [laneLeaves]
@[simp] theorem refusePort_now (p : Nat) (code : Nat) (c : Chip) : (refusePort p code c).tmb.now = c.tmb.now := by
  simp [refusePort]
@[simp] theorem enablePort_now (p : Nat) (c : Chip) : (enablePort p c).tmb.now = c.tmb.now := by
  unfold enablePort; (try dsimp only) <;> (repeat' split) <;> simp [*, forEach_now]
@[simp] theorem disablePort_now (p : Nat) (c : Chip) : (disablePort p c).tmb.now = c.tmb.now := by
  unfold disablePort; (try dsimp only) <;> (repeat' split) <;> simp [*, forEach_now]
@[simp] theorem effPerstRelease_now (p : Nat) (c : Chip) : (effPerstRelease p c).tmb.now = c.tmb.now := by
  unfold effPerstRelease; split <;> simp
@[simp] theorem effLinkTimeout_now (p : Nat) (c : Chip) : (effLinkTimeout p c).tmb.now = c.tmb.now := by
  unfold effLinkTimeout; split <;> simp
@[simp] theorem effMemoryActive_now (p : Nat) (d : DeviceInfo) (c : Chip) :
    (effMemoryActive p d c).tmb.now = c.tmb.now := by
  unfold effMemoryActive; (try dsimp only) <;> (repeat' split) <;> simp [*, forEach_now]
@[simp] theorem effActiveTimeout_now (p : Nat) (c : Chip) : (effActiveTimeout p c).tmb.now = c.tmb.now := by
  unfold effActiveTimeout; split <;> simp
@[simp] theorem effButton_now (p : Nat) (c : Chip) : (effButton p c).tmb.now = c.tmb.now := by
  unfold effButton; (try dsimp only) <;> (repeat' split) <;> simp [*, forEach_now]
@[simp] theorem removeReq_now (p : Nat) (c : Chip) : (removeReq p c).tmb.now = c.tmb.now := by
  unfold removeReq; (try dsimp only) <;> (repeat' split) <;> simp [*, forEach_now]
@[simp] theorem effProto_now (p : Nat) (nonPosted : Bool) (tag : Nat) (c : Chip) :
    (effProto p nonPosted tag c).tmb.now = c.tmb.now := by
  unfold effProto; split <;> simp
@[simp] theorem setInd_now (X : Fld) (p : Nat) (v : Nat) (c : Chip) : (setInd X p v c).tmb.now = c.tmb.now := by
  unfold setInd; split <;> simp
@[simp] theorem effSlotControl_now (p : Nat) (off : Bool) (attn : Nat) (ind : Nat) (c : Chip) :
    (effSlotControl p off attn ind c).tmb.now = c.tmb.now := by
  unfold effSlotControl; (try dsimp only) <;> (repeat' split) <;> simp [*, forEach_now]
@[simp] theorem resetLane_now (X : Fld) (l : Nat) (c : Chip) : (resetLane X l c).tmb.now = c.tmb.now := by
  simp [resetLane]
@[simp] theorem resetAdapt_now (l : Nat) (c : Chip) : (resetAdapt l c).tmb.now = c.tmb.now := by
  simp [resetAdapt, *, forEach_now]
@[simp] theorem takeTaps_now (l : Nat) (rate : Nat) (a : LaneAdapt) (c : Chip) :
    (takeTaps l rate a c).tmb.now = c.tmb.now := by
  unfold takeTaps; (try dsimp only) <;> (repeat' split) <;> simp [*, forEach_now]
@[simp] theorem takeAdapt_now (l : Nat) (rate : Nat) (a : LaneAdapt) (c : Chip) :
    (takeAdapt l rate a c).tmb.now = c.tmb.now := by
  unfold takeAdapt; (try dsimp only) <;> (repeat' split) <;> simp [*, forEach_now]
@[simp] theorem effTracking_now (l : Nat) (tap : Nat) (up : Bool) (c : Chip) :
    (effTracking l tap up c).tmb.now = c.tmb.now := by
  unfold effTracking; (try dsimp only) <;> (repeat' split) <;> simp [*, forEach_now]
@[simp] theorem movePos_now (l : Nat) (i : Nat) (pos : Nat) (c : Chip) :
    (movePos l i pos c).tmb.now = c.tmb.now := by
  unfold movePos; (try dsimp only) <;> (repeat' split) <;> simp [*, forEach_now]
@[simp] theorem effReeval_now (l : Nat) (i : Nat) (pos : Nat) (c : Chip) :
    (effReeval l i pos c).tmb.now = c.tmb.now := by
  unfold effReeval; split <;> simp
@[simp] theorem effSat_now (l : Nat) (c : Chip) : (effSat l c).tmb.now = c.tmb.now := by
  unfold effSat; split <;> simp
@[simp] theorem freezeLane_now (l : Nat) (on : Bool) (c : Chip) : (freezeLane l on c).tmb.now = c.tmb.now := by
  simp [freezeLane]
@[simp] theorem powerLane_now (l : Nat) (on : Bool) (c : Chip) : (powerLane l on c).tmb.now = c.tmb.now := by
  unfold powerLane; (try dsimp only) <;> (repeat' split) <;> simp [*, forEach_now]
@[simp] theorem effCdrLoss_now (l : Nat) (c : Chip) : (effCdrLoss l c).tmb.now = c.tmb.now := by
  unfold effCdrLoss; (try dsimp only) <;> (repeat' split) <;> simp [*, forEach_now]
@[simp] theorem effCdrRelock_now (l : Nat) (c : Chip) : (effCdrRelock l c).tmb.now = c.tmb.now := by
  unfold effCdrRelock; split <;> simp
@[simp] theorem tileOut_now (k : Nat) (c : Chip) : (tileOut k c).tmb.now = c.tmb.now := by
  unfold tileOut; (try dsimp only) <;> (repeat' split) <;> (try simp [*, forEach_now]) <;>
    (try (refine (forEach_now _ _ _ (fun _ _ => ?_)).trans ?_ <;> (try dsimp only) <;> (repeat' split) <;> (try simp [*, forEach_now]) <;>
      (repeat' split) <;> (try simp [*, forEach_now])))
@[simp] theorem setPllLost_now (k : Nat) (on : Bool) (c : Chip) : (setPllLost k on c).tmb.now = c.tmb.now := by
  simp [setPllLost]
@[simp] theorem reportRef_now (k : Nat) (c : Chip) : (reportRef k c).tmb.now = c.tmb.now := by
  unfold reportRef; split <;> simp
@[simp] theorem effRefLoss_now (k : Nat) (c : Chip) : (effRefLoss k c).tmb.now = c.tmb.now := by
  unfold effRefLoss; (try dsimp only) <;> (repeat' split) <;> simp [*, forEach_now]
@[simp] theorem effRefReturn_now (k : Nat) (c : Chip) : (effRefReturn k c).tmb.now = c.tmb.now := by
  unfold effRefReturn; (try dsimp only) <;> (repeat' split) <;> simp [*, forEach_now]
@[simp] theorem effPllUnlock_now (k : Nat) (c : Chip) : (effPllUnlock k c).tmb.now = c.tmb.now := by
  unfold effPllUnlock; split <;> simp
@[simp] theorem effPllRelock_now (k : Nat) (c : Chip) : (effPllRelock k c).tmb.now = c.tmb.now := by
  unfold effPllRelock; split <;> simp
@[simp] theorem effRefPpm_now (k : Nat) (ppm : Nat) (c : Chip) : (effRefPpm k ppm c).tmb.now = c.tmb.now := by
  unfold effRefPpm; split <;> simp
@[simp] theorem selectRef_now (k : Nat) (sel : Bool) (c : Chip) : (selectRef k sel c).tmb.now = c.tmb.now := by
  unfold selectRef; (try dsimp only) <;> (repeat' split) <;> simp [*, forEach_now]
@[simp] theorem setLb_now (l : Nat) (p : LbPhase) (c : Chip) : (setLb l p c).tmb.now = c.tmb.now := by
  simp [setLb]
@[simp] theorem closeLoop_now (l : Nat) (a : Option LaneAdapt) (c : Chip) :
    (closeLoop l a c).tmb.now = c.tmb.now := by
  unfold closeLoop; split <;> simp
@[simp] theorem bareLane_now (l : Nat) (c : Chip) : (bareLane l c).tmb.now = c.tmb.now := by
  simp [bareLane]
@[simp] theorem enterLoop_now (l : Nat) (lb : Nat) (a : LaneAdapt) (c : Chip) :
    (enterLoop l lb a c).tmb.now = c.tmb.now := by
  unfold enterLoop; (try dsimp only) <;> (repeat' split) <;> simp [*, forEach_now]
@[simp] theorem effFeSignal_now (l : Nat) (a : LaneAdapt) (c : Chip) : (effFeSignal l a c).tmb.now = c.tmb.now := by
  unfold effFeSignal; split <;> simp
@[simp] theorem exitLoop_now (l : Nat) (c : Chip) : (exitLoop l c).tmb.now = c.tmb.now := by
  unfold exitLoop; split <;> simp
@[simp] theorem effFollower_now (p : Nat) (enter : Bool) (c : Chip) :
    (effFollower p enter c).tmb.now = c.tmb.now := by
  unfold effFollower; (try dsimp only) <;> (repeat' split) <;> simp [*, forEach_now]
@[simp] theorem genEnable_now (l : Nat) (on : Bool) (c : Chip) : (genEnable l on c).tmb.now = c.tmb.now := by
  simp [genEnable]
@[simp] theorem clearBits_now (l : Nat) (c : Chip) : (clearBits l c).tmb.now = c.tmb.now := by
  simp [clearBits]
@[simp] theorem chkEnable_now (l : Nat) (on : Bool) (c : Chip) : (chkEnable l on c).tmb.now = c.tmb.now := by
  simp [chkEnable]
@[simp] theorem effChkLock_now (l : Nat) (c : Chip) : (effChkLock l c).tmb.now = c.tmb.now := by
  unfold effChkLock; split <;> simp
@[simp] theorem countBits_now (l : Nat) (bits : Nat) (errors : Nat) (c : Chip) :
    (countBits l bits errors c).tmb.now = c.tmb.now := by
  simp [countBits]
@[simp] theorem effChkLoss_now (l : Nat) (clean : Nat) (errors : Nat) (c : Chip) :
    (effChkLoss l clean errors c).tmb.now = c.tmb.now := by
  unfold effChkLoss; (try dsimp only) <;> (repeat' split) <;> simp [*, forEach_now]
@[simp] theorem setSampler_now (l : Nat) (m : Option MarginRun) (c : Chip) :
    (setSampler l m c).tmb.now = c.tmb.now := by
  simp [setSampler]
@[simp] theorem marginStart_now (l : Nat) (c : Chip) : (marginStart l c).tmb.now = c.tmb.now := by
  unfold marginStart; split <;> simp
@[simp] theorem effMarginDone_now (l : Nat) (errs : Nat) (c : Chip) :
    (effMarginDone l errs c).tmb.now = c.tmb.now := by
  unfold effMarginDone; (try dsimp only) <;> (repeat' split) <;> simp [*, forEach_now]
@[simp] theorem effPcieMargin_now (l : Nat) (off : MarginStep) (eye : Nat) (c : Chip) :
    (effPcieMargin l off eye c).tmb.now = c.tmb.now := by
  unfold effPcieMargin; (try dsimp only) <;> (repeat' split) <;> simp [*, forEach_now]
@[simp] theorem trainLane_now (p : Nat) (rate : Nat) (rev : Bool) (i : TrainInfo) (l : Nat) (c : Chip) :
    (trainLane p rate rev i l c).tmb.now = c.tmb.now := by
  simp [trainLane]
@[simp] theorem train_now (p : Nat) (i : TrainInfo) (c : Chip) : (train p i c).tmb.now = c.tmb.now := by
  unfold train; (try dsimp only) <;> (repeat' split) <;> simp [*, forEach_now]
@[simp] theorem effTrain_now (p : Nat) (i : TrainInfo) (c : Chip) : (effTrain p i c).tmb.now = c.tmb.now := by
  unfold effTrain; (try dsimp only) <;> (repeat' split) <;> simp [*, forEach_now]
@[simp] theorem setRepaid_now (p : Nat) (c : Chip) : (setRepaid p c).tmb.now = c.tmb.now := by
  simp [setRepaid]
@[simp] theorem startCredits_now (p : Nat) (i : TrainInfo) (c : Chip) :
    (startCredits p i c).tmb.now = c.tmb.now := by
  simp [startCredits, *, forEach_now]
@[simp] theorem memberBack_now (p : Nat) (c : Chip) : (memberBack p c).tmb.now = c.tmb.now := by
  unfold memberBack; (try dsimp only) <;> (repeat' split) <;> simp [*, forEach_now]
@[simp] theorem trackLanes_now (p : Nat) (c : Chip) : (trackLanes p c).tmb.now = c.tmb.now := by
  simp [trackLanes, *, forEach_now]
@[simp] theorem setWidth_now (p : Nat) (w : Nat) (c : Chip) : (setWidth p w c).tmb.now = c.tmb.now := by
  simp [setWidth, *, forEach_now]
@[simp] theorem evenPair_now (p : Nat) (c : Chip) : (evenPair p c).tmb.now = c.tmb.now := by
  unfold evenPair; (try dsimp only) <;> (repeat' split) <;> simp [*, forEach_now]
@[simp] theorem enterL0_now (p : Nat) (i : TrainInfo) (dev : DeviceInfo) (c : Chip) :
    (enterL0 p i dev c).tmb.now = c.tmb.now := by
  unfold enterL0; (try dsimp only) <;> (repeat' split) <;> simp [*, forEach_now]
@[simp] theorem returnL0_now (p : Nat) (i : TrainInfo) (c : Chip) : (returnL0 p i c).tmb.now = c.tmb.now := by
  unfold returnL0; (try dsimp only) <;> (repeat' split) <;> simp [*, forEach_now]
@[simp] theorem effL0_now (p : Nat) (dev : DeviceInfo) (c : Chip) : (effL0 p dev c).tmb.now = c.tmb.now := by
  unfold effL0; (try dsimp only) <;> (repeat' split) <;> simp [*, forEach_now]
@[simp] theorem askReplay_now (p : Nat) (c : Chip) : (askReplay p c).tmb.now = c.tmb.now := by
  simp [askReplay]
@[simp] theorem takeReturn_now (p : Nat) (k : Nat) (v : Nat) (c : Chip) :
    (takeReturn p k v c).tmb.now = c.tmb.now := by
  simp [takeReturn]
@[simp] theorem takeReturns_now (p : Nat) (rs : List (Fin 4096)) (c : Chip) :
    (takeReturns p rs c).tmb.now = c.tmb.now := by
  unfold takeReturns; (try dsimp only) <;> (repeat' split) <;> (try simp [*, forEach_now]) <;>
    (try (refine (forEach_now _ _ _ (fun _ _ => ?_)).trans ?_ <;> (try dsimp only) <;> (repeat' split) <;> (try simp [*, forEach_now]) <;>
      (repeat' split) <;> (try simp [*, forEach_now])))
@[simp] theorem useCredits_now (p : Nat) (m : FlitMsg) (c : Chip) : (useCredits p m c).tmb.now = c.tmb.now := by
  simp [useCredits]
@[simp] theorem ackNow_now (p : Nat) (c : Chip) : (ackNow p c).tmb.now = c.tmb.now := by
  simp [ackNow]
@[simp] theorem advanceRx_now (p : Nat) (c : Chip) : (advanceRx p c).tmb.now = c.tmb.now := by
  simp [advanceRx]
@[simp] theorem acceptMsg_now (p : Nat) (m : FlitMsg) (ok : Chip → Chip) (c : Chip) (hok : ∀  c, (ok  c).tmb.now = c.tmb.now) :
    (acceptMsg p m ok c).tmb.now = c.tmb.now := by
  unfold acceptMsg; (try dsimp only) <;> (repeat' split) <;> simp [*, forEach_now]
@[simp] theorem numbered_now (p : Nat) (seq : Nat) (take : Chip → Chip) (c : Chip) (htake : ∀  c, (take  c).tmb.now = c.tmb.now) :
    (numbered p seq take c).tmb.now = c.tmb.now := by
  unfold numbered; (try dsimp only) <;> (repeat' split) <;> simp [*, forEach_now]
@[simp] theorem checked_now (p : Nat) (k : FlitCheck) (good : Chip → Chip) (c : Chip) (hgood : ∀  c, (good  c).tmb.now = c.tmb.now) :
    (checked p k good c).tmb.now = c.tmb.now := by
  unfold checked; (try dsimp only) <;> (repeat' split) <;> simp [*, forEach_now]
@[simp] theorem goodFlit_now (p : Nat) (f : FlitRx) (c : Chip) : (goodFlit p f c).tmb.now = c.tmb.now := by
  unfold goodFlit; split <;> simp
@[simp] theorem effFlit_now (p : Nat) (f : FlitRx) (c : Chip) : (effFlit p f c).tmb.now = c.tmb.now := by
  unfold effFlit; split <;> simp
@[simp] theorem overLimit_now (p : Nat) (c : Chip) : (overLimit p c).tmb.now = c.tmb.now := by
  unfold overLimit; (try dsimp only) <;> (repeat' split) <;> simp [*, forEach_now]
@[simp] theorem noteReplay_now (p : Nat) (n : Nat) (c : Chip) : (noteReplay p n c).tmb.now = c.tmb.now := by
  unfold noteReplay; (try dsimp only) <;> (repeat' split) <;> simp [*, forEach_now]
@[simp] theorem nak_now (p : Nat) (seq : Nat) (c : Chip) : (nak p seq c).tmb.now = c.tmb.now := by
  unfold nak; split <;> simp
@[simp] theorem effNak_now (p : Nat) (seq : Nat) (c : Chip) : (effNak p seq c).tmb.now = c.tmb.now := by
  unfold effNak; (try dsimp only) <;> (repeat' split) <;> simp [*, forEach_now]
@[simp] theorem effAckSend_now (p : Nat) (c : Chip) : (effAckSend p c).tmb.now = c.tmb.now := by
  unfold effAckSend; split <;> simp
@[simp] theorem ackTo_now (p : Nat) (seq : Nat) (c : Chip) : (ackTo p seq c).tmb.now = c.tmb.now := by
  simp [ackTo]
@[simp] theorem effAck_now (p : Nat) (seq : Nat) (c : Chip) : (effAck p seq c).tmb.now = c.tmb.now := by
  unfold effAck; (try dsimp only) <;> (repeat' split) <;> simp [*, forEach_now]
@[simp] theorem effCreditReturn_now (p : Nat) (cls : Nat) (c : Chip) :
    (effCreditReturn p cls c).tmb.now = c.tmb.now := by
  unfold effCreditReturn; (try dsimp only) <;> (repeat' split) <;> simp [*, forEach_now]
@[simp] theorem effSpentClear_now (p : Nat) (c : Chip) : (effSpentClear p c).tmb.now = c.tmb.now := by
  unfold effSpentClear; (try dsimp only) <;> (repeat' split) <;> simp [*, forEach_now]
@[simp] theorem effRecovery_now (p : Nat) (c : Chip) : (effRecovery p c).tmb.now = c.tmb.now := by
  unfold effRecovery; split <;> simp
@[simp] theorem retrainWrite_now (p : Nat) (c : Chip) : (retrainWrite p c).tmb.now = c.tmb.now := by
  unfold retrainWrite; split <;> simp
@[simp] theorem effLinkDown_now (p : Nat) (cause : DownCause) (c : Chip) :
    (effLinkDown p cause c).tmb.now = c.tmb.now := by
  unfold effLinkDown; split <;> simp
@[simp] theorem effPartner_now (p : Nat) (hot : Bool) (c : Chip) : (effPartner p hot c).tmb.now = c.tmb.now := by
  unfold effPartner; (try dsimp only) <;> (repeat' split) <;> simp [*, forEach_now]
@[simp] theorem effLockTmr_now (p : Nat) (c : Chip) : (effLockTmr p c).tmb.now = c.tmb.now := by
  unfold effLockTmr; split <;> simp
@[simp] theorem resendTaken_now (p q orig : Nat) (m : FlitMsg) (c : Chip) :
    (resendTaken p q orig m c).tmb.now = c.tmb.now := by
  unfold resendTaken
  refine (acceptMsg_now _ _ _ _ (fun c => ?_)).trans ?_
  · split <;> simp
  · split <;> simp
@[simp] theorem goodResend_now (p : Nat) (f : FlitRx) (orig : Nat) (c : Chip) :
    (goodResend p f orig c).tmb.now = c.tmb.now := by
  unfold goodResend; split <;> simp
@[simp] theorem effResend_now (p : Nat) (f : FlitRx) (orig : Nat) (c : Chip) :
    (effResend p f orig c).tmb.now = c.tmb.now := by
  unfold effResend; split <;> simp
@[simp] theorem failbackEnds_now (p : Nat) (c : Chip) : (failbackEnds p c).tmb.now = c.tmb.now := by
  unfold failbackEnds; split <;> simp
@[simp] theorem effHoldExpiry_now (p : Nat) (c : Chip) : (effHoldExpiry p c).tmb.now = c.tmb.now := by
  unfold effHoldExpiry; split <;> simp
@[simp] theorem effBucketMove_now (p : Nat) (b : Nat) (c : Chip) : (effBucketMove p b c).tmb.now = c.tmb.now := by
  unfold effBucketMove; (try dsimp only) <;> (repeat' split) <;> simp [*, forEach_now]
@[simp] theorem splitWrite_now (p : Nat) (v : Nat) (c : Chip) : (splitWrite p v c).tmb.now = c.tmb.now := by
  unfold splitWrite; (try dsimp only) <;> (repeat' split) <;> simp [*, forEach_now]
@[simp] theorem widthGo_now (p : Nat) (peer : Option WidthPeer) (c : Chip) :
    (widthGo p peer c).tmb.now = c.tmb.now := by
  unfold widthGo; (try dsimp only) <;> (repeat' split) <;> simp [*, forEach_now]
@[simp] theorem widthEnds_now (r : Nat) (c : Chip) : (widthEnds r c).tmb.now = c.tmb.now := by
  unfold widthEnds; split <;> simp
@[simp] theorem effWidthDone_now (p : Nat) (c : Chip) : (effWidthDone p c).tmb.now = c.tmb.now := by
  unfold effWidthDone; (try dsimp only) <;> (repeat' split) <;> simp [*, forEach_now]
@[simp] theorem setMarks_now (prim : Nat) (l : List MarkWait) (c : Chip) :
    (setMarks prim l c).tmb.now = c.tmb.now := by
  simp [setMarks]
@[simp] theorem effMarksSend_now (p : Nat) (nops : Nat) (c : Chip) :
    (effMarksSend p nops c).tmb.now = c.tmb.now := by
  unfold effMarksSend; (try dsimp only) <;> (repeat' split) <;> simp [*, forEach_now]
@[simp] theorem takeMark_now (r : MarkRec) (c : Chip) : (takeMark r c).tmb.now = c.tmb.now := by
  unfold takeMark; (try dsimp only) <;> (repeat' split) <;> simp [*, forEach_now]
@[simp] theorem goodMarks_now (p : Nat) (recs : List MarkRec) (c : Chip) :
    (goodMarks p recs c).tmb.now = c.tmb.now := by
  simp [goodMarks, *, forEach_now]
@[simp] theorem effMarksReceive_now (p : Nat) (k : FlitCheck) (recs : List MarkRec) (c : Chip) :
    (effMarksReceive p k recs c).tmb.now = c.tmb.now := by
  unfold effMarksReceive; (try dsimp only) <;> (repeat' split) <;> simp [*, forEach_now]
@[simp] theorem effMarkAge_now (p : Nat) (c : Chip) : (effMarkAge p c).tmb.now = c.tmb.now := by
  unfold effMarkAge; (try dsimp only) <;> (repeat' split) <;> simp [*, forEach_now]
@[simp] theorem setPending_now (id : Nat) (v : Bool) (c : Chip) : (setPending id v c).tmb.now = c.tmb.now := by
  simp [setPending]
@[simp] theorem setActive_now (id : Nat) (v : Bool) (c : Chip) : (setActive id v c).tmb.now = c.tmb.now := by
  simp [setActive]
@[simp] theorem wake_now (core : Nat) (c : Chip) : (wake core c).tmb.now = c.tmb.now := by
  unfold wake; (try dsimp only) <;> (repeat' split) <;> simp [*, forEach_now]
@[simp] theorem notify_now (before : Chip) (c : Chip) : (notify before c).tmb.now = c.tmb.now := by
  unfold notify; (try dsimp only) <;> (repeat' split) <;> (try simp [*, forEach_now]) <;>
    (try (refine (forEach_now _ _ _ (fun _ _ => ?_)).trans ?_ <;> (try dsimp only) <;> (repeat' split) <;> (try simp [*, forEach_now]) <;>
      (repeat' split) <;> (try simp [*, forEach_now])))
@[simp] theorem withNotify_now (f : Chip → Chip) (c : Chip) (hf : ∀  c, (f  c).tmb.now = c.tmb.now) :
    (withNotify f c).tmb.now = c.tmb.now := by
  simp [withNotify, *, forEach_now]
@[simp] theorem complete_now (id : Nat) (c : Chip) : (complete id c).tmb.now = c.tmb.now := by
  unfold complete; (try dsimp only) <;> (repeat' split) <;> simp [*, forEach_now]
@[simp] theorem coreEnterReset_now (core : Nat) (c : Chip) : (coreEnterReset core c).tmb.now = c.tmb.now := by
  simp [coreEnterReset, *, forEach_now]
@[simp] theorem coreRun_now (core : Nat) (c : Chip) : (coreRun core c).tmb.now = c.tmb.now := by
  simp [coreRun]
@[simp] theorem setWdt_now (core : Nat) (on : Bool) (c : Chip) : (setWdt core on c).tmb.now = c.tmb.now := by
  simp [setWdt]
@[simp] theorem coreRestart_now (core : Nat) (c : Chip) : (coreRestart core c).tmb.now = c.tmb.now := by
  simp [coreRestart]
@[simp] theorem rstWrite_now (core : Nat) (rst : Bool) (c : Chip) : (rstWrite core rst c).tmb.now = c.tmb.now := by
  unfold rstWrite; (try dsimp only) <;> (repeat' split) <;> simp [*, forEach_now]
@[simp] theorem kick_now (core : Nat) (c : Chip) : (kick core c).tmb.now = c.tmb.now := by
  simp [kick]
@[simp] theorem effWdt_now (core : Nat) (c : Chip) : (effWdt core c).tmb.now = c.tmb.now := by
  unfold effWdt; split <;> simp
@[simp] theorem effCoreUe_now (core : Nat) (c : Chip) : (effCoreUe core c).tmb.now = c.tmb.now := by
  unfold effCoreUe; split <;> simp
@[simp] theorem effSleep_now (core : Nat) (c : Chip) : (effSleep core c).tmb.now = c.tmb.now := by
  unfold effSleep; split <;> simp
@[simp] theorem effLevel_now (id : Nat) (c : Chip) : (effLevel id c).tmb.now = c.tmb.now := by
  unfold effLevel; split <;> simp
@[simp] theorem swi_now (id : Nat) (c : Chip) : (swi id c).tmb.now = c.tmb.now := by
  unfold swi; split <;> simp
@[simp] theorem claim_now (core : Nat) (c : Chip) : (claim core c).2.tmb.now = c.tmb.now := by
  unfold claim; (try dsimp only) <;> (repeat' split) <;> simp [*, forEach_now]
@[simp] theorem effClaim_now (core : Nat) (c : Chip) : (effClaim core c).tmb.now = c.tmb.now := by
  unfold effClaim; split <;> simp
@[simp] theorem comp_now (core : Nat) (id : Nat) (c : Chip) : (comp core id c).tmb.now = c.tmb.now := by
  unfold comp; split <;> simp
@[simp] theorem effComp_now (core : Nat) (id : Nat) (c : Chip) : (effComp core id c).tmb.now = c.tmb.now := by
  unfold effComp; split <;> simp
@[simp] theorem irqByte_now (word : Nat) (j : Nat) (v : Nat) (c : Chip) :
    (irqByte word j v c).tmb.now = c.tmb.now := by
  unfold irqByte; split <;> simp
@[simp] theorem irqWord_now (word : Nat) (v : Nat) (c : Chip) : (irqWord word v c).tmb.now = c.tmb.now := by
  simp [irqWord, *, forEach_now]
@[simp] theorem threshWrite_now (core : Nat) (v : Nat) (c : Chip) : (threshWrite core v c).tmb.now = c.tmb.now := by
  simp [threshWrite]
@[simp] theorem setSlot_now (pfx : Bool) (b : Bool) (x : ImgSlot) (c : Chip) :
    (setSlot pfx b x c).tmb.now = c.tmb.now := by
  simp [setSlot]
@[simp] theorem markActive_now (pfx : Bool) (b : Bool) (c : Chip) : (markActive pfx b c).tmb.now = c.tmb.now := by
  simp [markActive]
@[simp] theorem verify_now (pfx : Bool) (b : Bool) (c : Chip) : (verify pfx b c).2.tmb.now = c.tmb.now := by
  simp [verify]
@[simp] theorem bootType_now (pfx : Bool) (c : Chip) : (bootType pfx c).2.tmb.now = c.tmb.now := by
  unfold bootType; (try dsimp only) <;> (repeat' split) <;> simp [*, forEach_now]
@[simp] theorem runCores_now (c : Chip) : (runCores c).tmb.now = c.tmb.now := by
  simp [runCores, *, forEach_now]
@[simp] theorem deriveAlias_now (c : Chip) : (deriveAlias c).tmb.now = c.tmb.now := by
  simp [deriveAlias]
@[simp] theorem bootMgt_now (c : Chip) : (bootMgt c).tmb.now = c.tmb.now := by
  simp [bootMgt]
@[simp] theorem bootPfx_now (c : Chip) : (bootPfx c).tmb.now = c.tmb.now := by
  simp [bootPfx]
@[simp] theorem updEnd_now (st : Nat) (c : Chip) : (updEnd st c).tmb.now = c.tmb.now := by
  simp [updEnd]
@[simp] theorem updCommand_now (op : Nat) (pfx : Bool) (f : Chip → Chip) (c : Chip) (hf : ∀  c, (f  c).tmb.now = c.tmb.now) :
    (updCommand op pfx f c).tmb.now = c.tmb.now := by
  unfold updCommand; (try dsimp only) <;> (repeat' split) <;> simp [*, forEach_now]
@[simp] theorem setOpen_now (o : Option Bool) (c : Chip) : (setOpen o c).tmb.now = c.tmb.now := by
  simp [setOpen]
@[simp] theorem setChecked_now (ok : Bool) (c : Chip) : (setChecked ok c).tmb.now = c.tmb.now := by
  simp [setChecked]
@[simp] theorem updBegin_now (pfx : Bool) (c : Chip) : (updBegin pfx c).tmb.now = c.tmb.now := by
  simp [updBegin]
@[simp] theorem appendWord_now (pfx : Bool) (w : Nat) (c : Chip) : (appendWord pfx w c).tmb.now = c.tmb.now := by
  unfold appendWord; (try dsimp only) <;> (repeat' split) <;> simp [*, forEach_now]
@[simp] theorem updData_now (w : Nat) (c : Chip) : (updData w c).tmb.now = c.tmb.now := by
  unfold updData; (try dsimp only) <;> (repeat' split) <;> simp [*, forEach_now]
@[simp] theorem updVerify_now (pfx : Bool) (c : Chip) : (updVerify pfx c).tmb.now = c.tmb.now := by
  unfold updVerify; split <;> simp
@[simp] theorem clearFailed_now (pfx : Bool) (c : Chip) : (clearFailed pfx c).tmb.now = c.tmb.now := by
  simp [clearFailed]
@[simp] theorem activateMgt_now (c : Chip) : (activateMgt c).tmb.now = c.tmb.now := by
  simp [activateMgt, *, forEach_now]
@[simp] theorem updActivate_now (pfx : Bool) (c : Chip) : (updActivate pfx c).tmb.now = c.tmb.now := by
  unfold updActivate; (try dsimp only) <;> (repeat' split) <;> simp [*, forEach_now]
@[simp] theorem effActivationLoad_now (c : Chip) : (effActivationLoad c).tmb.now = c.tmb.now := by
  unfold effActivationLoad; split <;> simp
@[simp] theorem commitSvn_now (pfx : Bool) (c : Chip) : (commitSvn pfx c).tmb.now = c.tmb.now := by
  unfold commitSvn; (try dsimp only) <;> (repeat' split) <;> simp [*, forEach_now]
@[simp] theorem keyrev_now (slots : Nat) (c : Chip) : (keyrev slots c).tmb.now = c.tmb.now := by
  unfold keyrev; (try dsimp only) <;> (repeat' split) <;> simp [*, forEach_now]
@[simp] theorem spdm_now (via : SpdmVia) (what : Nat) (own : List Nat) (ok : Bool) (c : Chip) :
    (spdm via what own ok c).tmb.now = c.tmb.now := by
  unfold spdm; (try dsimp only) <;> (repeat' split) <;> simp [*, forEach_now]
@[simp] theorem keyExchange_now (via : SpdmVia) (x : Nat) (c : Chip) :
    (keyExchange via x c).tmb.now = c.tmb.now := by
  unfold keyExchange; (try dsimp only) <;> (repeat' split) <;> simp [*, forEach_now]
@[simp] theorem setIde_now (p : Nat) (x : IdeSt) (c : Chip) : (setIde p x c).tmb.now = c.tmb.now := by
  simp [setIde]
@[simp] theorem ideShows_now (p : Nat) (c : Chip) : (ideShows p c).tmb.now = c.tmb.now := by
  simp [ideShows]
@[simp] theorem ideKm_now (p : Nat) (what : Nat) (f : IdeSt → Option IdeSt) (c : Chip) :
    (ideKm p what f c).tmb.now = c.tmb.now := by
  unfold ideKm; (try dsimp only) <;> (repeat' split) <;> simp [*, forEach_now]
@[simp] theorem effIdeFail_now (p : Nat) (c : Chip) : (effIdeFail p c).tmb.now = c.tmb.now := by
  unfold effIdeFail; (try dsimp only) <;> (repeat' split) <;> simp [*, forEach_now]
@[simp] theorem formFails_now (f : Nat) (b : Nat) (c : Chip) : (formFails f b c).tmb.now = c.tmb.now := by
  unfold formFails; split <;> simp
@[simp] theorem effAgeDrain_now (p : Nat) (l : Nat) (ecc : Nat) (c : Chip) :
    (effAgeDrain p l ecc c).tmb.now = c.tmb.now := by
  unfold effAgeDrain; (try dsimp only) <;> (repeat' split) <;> simp [*, forEach_now]
@[simp] theorem effDrainComplete_now (p : Nat) (l : Nat) (ecc : Nat) (c : Chip) :
    (effDrainComplete p l ecc c).tmb.now = c.tmb.now := by
  unfold effDrainComplete; (try dsimp only) <;> (repeat' split) <;> simp [*, forEach_now]
@[simp] theorem pageDenied_now (t : Nat) (c : Chip) : (pageDenied t c).tmb.now = c.tmb.now := by
  simp [pageDenied]
@[simp] theorem ringBell_now (x : Nat) (b : Bell) (c : Chip) : (ringBell x b c).tmb.now = c.tmb.now := by
  simp [ringBell]
@[simp] theorem bellNow_now (x : Nat) (c : Chip) : (bellNow x c).tmb.now = c.tmb.now := by
  unfold bellNow; split <;> simp
@[simp] theorem effBell_now (p : Nat) (t : Nat) (pasid : Option Nat) (eight : Bool) (tag : Nat) (c : Chip) :
    (effBell p t pasid eight tag c).tmb.now = c.tmb.now := by
  unfold effBell; (try dsimp only) <;> (repeat' split) <;> simp [*, forEach_now]
@[simp] theorem limitEntry_now (i : Nat) (c : Chip) : (limitEntry i c).tmb.now = c.tmb.now := by
  unfold limitEntry; (try dsimp only) <;> (repeat' split) <;> simp [*, forEach_now]
@[simp] theorem bellAtLimit_now (x : Nat) (k : Nat) (b : Bell) (c : Chip) :
    (bellAtLimit x k b c).tmb.now = c.tmb.now := by
  simp [bellAtLimit]
@[simp] theorem effBellLimit_now (x : Nat) (k : Nat) (c : Chip) : (effBellLimit x k c).tmb.now = c.tmb.now := by
  unfold effBellLimit; (try dsimp only) <;> (repeat' split) <;> simp [*, forEach_now]
@[simp] theorem drainSlate_now (p : Nat) (c : Chip) : (drainSlate p c).tmb.now = c.tmb.now := by
  simp [drainSlate]
@[simp] theorem effDrainDone_now (p : Nat) (c : Chip) : (effDrainDone p c).tmb.now = c.tmb.now := by
  unfold effDrainDone; split <;> simp
@[simp] theorem effPoisonWrite_now (l : Nat) (c : Chip) : (effPoisonWrite l c).tmb.now = c.tmb.now := by
  unfold effPoisonWrite; (try dsimp only) <;> (repeat' split) <;> simp [*, forEach_now]
@[simp] theorem occHwClr_now (p : Nat) (c : Chip) : (occHwClr p c).tmb.now = c.tmb.now := by
  simp [occHwClr]
@[simp] theorem tenCommand_now (t : Nat) (f : Chip → Chip) (c : Chip) (hf : ∀  c, (f  c).tmb.now = c.tmb.now) :
    (tenCommand t f c).tmb.now = c.tmb.now := by
  unfold tenCommand; (try dsimp only) <;> (repeat' split) <;> simp [*, forEach_now]
@[simp] theorem enableTen_now (t : Nat) (c : Chip) : (enableTen t c).tmb.now = c.tmb.now := by
  unfold enableTen; (try dsimp only) <;> (repeat' split) <;> simp [*, forEach_now]
@[simp] theorem stopJob_now (t : Nat) (c : Chip) : (stopJob t c).tmb.now = c.tmb.now := by
  unfold stopJob; (try dsimp only) <;> (repeat' split) <;> simp [*, forEach_now]
@[simp] theorem startReset_now (t : Nat) (self : Bool) (disabling : Bool) (c : Chip) :
    (startReset t self disabling c).tmb.now = c.tmb.now := by
  simp [startReset]
@[simp] theorem disableTen_now (t : Nat) (c : Chip) : (disableTen t c).tmb.now = c.tmb.now := by
  unfold disableTen; (try dsimp only) <;> (repeat' split) <;> simp [*, forEach_now]
@[simp] theorem pauseJob_now (t : Nat) (c : Chip) : (pauseJob t c).tmb.now = c.tmb.now := by
  unfold pauseJob; (try dsimp only) <;> (repeat' split) <;> simp [*, forEach_now]
@[simp] theorem freezeTen_now (t : Nat) (c : Chip) : (freezeTen t c).tmb.now = c.tmb.now := by
  unfold freezeTen; split <;> simp
@[simp] theorem internalBellEnds_now (t : Nat) (c : Chip) : (internalBellEnds t c).tmb.now = c.tmb.now := by
  unfold internalBellEnds; (try dsimp only) <;> (repeat' split) <;> simp [*, forEach_now]
@[simp] theorem effFreezeComplete_now (t : Nat) (c : Chip) : (effFreezeComplete t c).tmb.now = c.tmb.now := by
  unfold effFreezeComplete; (try dsimp only) <;> (repeat' split) <;> simp [*, forEach_now]
@[simp] theorem thawTen_now (t : Nat) (c : Chip) : (thawTen t c).tmb.now = c.tmb.now := by
  unfold thawTen; split <;> simp
@[simp] theorem resetTen_now (t : Nat) (c : Chip) : (resetTen t c).tmb.now = c.tmb.now := by
  unfold resetTen; split <;> simp
@[simp] theorem selfReset_now (t : Nat) (c : Chip) : (selfReset t c).tmb.now = c.tmb.now := by
  unfold selfReset; split <;> simp
@[simp] theorem pageWrite_now (p : Nat) (t : Nat) (pasid : Option Nat) (f : Chip → Chip) (c : Chip) (hf : ∀  c, (f  c).tmb.now = c.tmb.now) :
    (pageWrite p t pasid f c).tmb.now = c.tmb.now := by
  unfold pageWrite; (try dsimp only) <;> (repeat' split) <;> simp [*, forEach_now]
@[simp] theorem forgetJob_now (t : Nat) (c : Chip) : (forgetJob t c).tmb.now = c.tmb.now := by
  simp [forgetJob]
@[simp] theorem finishReset_now (t : Nat) (c : Chip) : (finishReset t c).tmb.now = c.tmb.now := by
  simp [finishReset]
@[simp] theorem takeFld_now (X : Fld) (t : Nat) (v : Nat) (c : Chip) : (takeFld X t v c).tmb.now = c.tmb.now := by
  unfold takeFld; split <;> simp
@[simp] theorem queueJob_now (t : Nat) (c : Chip) : (queueJob t c).tmb.now = c.tmb.now := by
  unfold queueJob; split <;> simp
@[simp] theorem submitJob_now (t : Nat) (c : Chip) : (submitJob t c).tmb.now = c.tmb.now := by
  unfold submitJob; (try dsimp only) <;> (repeat' split) <;> simp [*, forEach_now]
@[simp] theorem jobCtrlWrite_now (t : Nat) (v : Nat) (c : Chip) : (jobCtrlWrite t v c).tmb.now = c.tmb.now := by
  unfold jobCtrlWrite; (try dsimp only) <;> (repeat' split) <;> simp [*, forEach_now]
@[simp] theorem jobReg_now (t : Nat) (f : TenSt → TenSt) (c : Chip) : (jobReg t f c).tmb.now = c.tmb.now := by
  unfold jobReg; split <;> simp
@[simp] theorem ctlWrite_now (t : Nat) (o : Nat) (v : Nat) (c : Chip) : (ctlWrite t o v c).tmb.now = c.tmb.now := by
  unfold ctlWrite; (try dsimp only) <;> (repeat' split) <;> simp [*, forEach_now]
@[simp] theorem ctlServe_now (p : Nat) (t : Nat) (o : Nat) (tag : Nat) (eight : Bool) (w : Option Nat) (c : Chip) :
    (ctlServe p t o tag eight w c).tmb.now = c.tmb.now := by
  unfold ctlServe; split <;> simp
@[simp] theorem effCtlAccess_now (p : Nat) (off : Nat) (eight : Bool) (whole : Bool) (w : Option Nat) (pasid : Option Nat) (tag : Nat) (c : Chip) :
    (effCtlAccess p off eight whole w pasid tag c).tmb.now = c.tmb.now := by
  unfold effCtlAccess; (try dsimp only) <;> (repeat' split) <;> simp [*, forEach_now]
@[simp] theorem effRefill_now (c : Chip) : (effRefill c).tmb.now = c.tmb.now := by
  unfold effRefill; (try dsimp only) <;> (repeat' split) <;> simp [*, forEach_now]
@[simp] theorem refuseSlots_now (t : Nat) (c : Chip) : (refuseSlots t c).tmb.now = c.tmb.now := by
  simp [refuseSlots]
@[simp] theorem qmaxWrite_now (t : Nat) (q : Nat) (c : Chip) : (qmaxWrite t q c).tmb.now = c.tmb.now := by
  unfold qmaxWrite; (try dsimp only) <;> (repeat' split) <;> simp [*, forEach_now]
@[simp] theorem srateEnWrite_now (t : Nat) (on : Bool) (c : Chip) : (srateEnWrite t on c).tmb.now = c.tmb.now := by
  unfold srateEnWrite; split <;> simp
@[simp] theorem effSlotWrite_now (t : Nat) (q : Option Nat) (en : Option Bool) (c : Chip) :
    (effSlotWrite t q en c).tmb.now = c.tmb.now := by
  unfold effSlotWrite; (try dsimp only) <;> (repeat' split) <;> simp [*, forEach_now]
@[simp] theorem reachPage_now (pa : Path) (pg : Nat) (off : Nat) (eff : PK → Nat → Chip → Chip) (c : Chip) (heff : ∀ x0 x1 c, (eff x0 x1 c).tmb.now = c.tmb.now) :
    (reachPage pa pg off eff c).tmb.now = c.tmb.now := by
  unfold reachPage; (try dsimp only) <;> (repeat' split) <;> simp [*, forEach_now]
@[simp] theorem setLatch_now (pa : Path) (x : PathLatch) (c : Chip) : (setLatch pa x c).tmb.now = c.tmb.now := by
  unfold setLatch; split <;> simp
@[simp] theorem readLow_now (pa : Path) (addr : Nat) (v : Nat) (c : Chip) :
    (readLow pa addr v c).2.tmb.now = c.tmb.now := by
  simp [readLow]
@[simp] theorem readHigh_now (pa : Path) (addr : Nat) (live : Nat) (c : Chip) :
    (readHigh pa addr live c).2.tmb.now = c.tmb.now := by
  simp [readHigh]
@[simp] theorem holdLow_now (pa : Path) (addr : Nat) (v : Nat) (c : Chip) :
    (holdLow pa addr v c).tmb.now = c.tmb.now := by
  simp [holdLow]
@[simp] theorem dropHeld_now (pa : Path) (addr : Nat) (c : Chip) : (dropHeld pa addr c).tmb.now = c.tmb.now := by
  unfold dropHeld; (try dsimp only) <;> (repeat' split) <;> simp [*, forEach_now]
@[simp] theorem effStallTmb_now (c : Chip) : (effStallTmb c).tmb.now = c.tmb.now := by
  unfold effStallTmb; (try dsimp only) <;> (repeat' split) <;> simp [*, forEach_now]
@[simp] theorem effResume_now (c : Chip) : (effResume c).tmb.now = c.tmb.now := by
  simp [effResume]
@[simp] theorem ofsHigh_now (pa : Path) (v : Nat) (c : Chip) : (ofsHigh pa v c).tmb.now = c.tmb.now := by
  simp [ofsHigh]
@[simp] theorem answerRead_now (pa : Path) (r : Nat × Chip) : (answerRead pa r).tmb.now = r.2.tmb.now := (rfl)
@[simp] theorem selWrite_now (pg : Nat) (i : Nat) (v : Nat) (k : PK) (c : Chip) :
    (selWrite pg i v k c).tmb.now = c.tmb.now := by
  unfold selWrite; split <;> simp
@[simp] theorem valHigh_now (pa : Path) (pg : Nat) (i : Nat) (v : Nat) (c : Chip) :
    (valHigh pa pg i v c).tmb.now = c.tmb.now := by
  simp [valHigh]
@[simp] theorem cntFreeze_now (on : Bool) (c : Chip) : (cntFreeze on c).tmb.now = c.tmb.now := by
  simp [cntFreeze]
@[simp] theorem glbFreeze_now (on : Bool) (c : Chip) : (glbFreeze on c).tmb.now = c.tmb.now := by
  simp [glbFreeze]
@[simp] theorem snapStart_now (c : Chip) : (snapStart c).tmb.now = c.tmb.now := by
  simp [snapStart]
@[simp] theorem snapDue_now (c : Chip) : (snapDue c).tmb.now = c.tmb.now := by
  unfold snapDue; split <;> simp
@[simp] theorem effSnapPeriod_now (c : Chip) : (effSnapPeriod c).tmb.now = c.tmb.now := by
  unfold effSnapPeriod; split <;> simp
@[simp] theorem effSnapDone_now (dur : Nat) (c : Chip) : (effSnapDone dur c).tmb.now = c.tmb.now := by
  unfold effSnapDone; split <;> simp
@[simp] theorem effWindowRead_now (p : Nat) (off : Nat) (eight : Bool) (whole : Bool) (pasid : Option Nat) (tag : Nat) (c : Chip) :
    (effWindowRead p off eight whole pasid tag c).tmb.now = c.tmb.now := by
  unfold effWindowRead; (try dsimp only) <;> (repeat' split) <;> simp [*, forEach_now]
@[simp] theorem keepMedia_now (old : Chip) (c : Chip) : (keepMedia old c).tmb.now = c.tmb.now := by
  simp [keepMedia]
@[simp] theorem keepModel_now (old : Chip) (c : Chip) : (keepModel old c).tmb.now = c.tmb.now := by
  simp [keepModel]
@[simp] theorem abandonUpdate_now (c : Chip) : (abandonUpdate c).tmb.now = c.tmb.now := by
  unfold abandonUpdate; split <;> simp
@[simp] theorem keepSec_now (old : Chip) (c : Chip) : (keepSec old c).tmb.now = c.tmb.now := by
  simp [keepSec]
@[simp] theorem sampleStraps_now (c : Chip) : (sampleStraps c).tmb.now = c.tmb.now := by
  simp [sampleStraps]
@[simp] theorem vauxStart_now (cause : Nat) (c : Chip) : (vauxStart cause c).tmb.now = c.tmb.now := by
  unfold vauxStart; split <;> simp
@[simp] theorem deriveKeys_now (c : Chip) : (deriveKeys c).tmb.now = c.tmb.now := by
  unfold deriveKeys; split <;> simp
@[simp] theorem warmReset_now (cause : Nat) (c : Chip) : (warmReset cause c).tmb.now = c.tmb.now := by
  simp [warmReset]
@[simp] theorem effPortReset_now (p : Nat) (c : Chip) : (effPortReset p c).tmb.now = c.tmb.now := by
  unfold effPortReset; split <;> simp
@[simp] theorem senseSupply_now (x : Supply) (mv : Nat) (c : Chip) : (senseSupply x mv c).tmb.now = c.tmb.now := by
  unfold senseSupply; split <;> simp
@[simp] theorem setSupply_now (x : Supply) (v : Bool) (c : Chip) : (setSupply x v c).tmb.now = c.tmb.now := by
  unfold setSupply; split <;> simp
@[simp] theorem effValid_now (x : Supply) (mv : Nat) (c : Chip) : (effValid x mv c).tmb.now = c.tmb.now := by
  unfold effValid; (try dsimp only) <;> (repeat' split) <;> simp [*, forEach_now]
@[simp] theorem effWarn_now (mv : Nat) (c : Chip) : (effWarn mv c).tmb.now = c.tmb.now := by
  unfold effWarn; split <;> simp
@[simp] theorem effWarnClear_now (mv : Nat) (c : Chip) : (effWarnClear mv c).tmb.now = c.tmb.now := by
  unfold effWarnClear; split <;> simp
@[simp] theorem effAuxWarn_now (mv : Nat) (c : Chip) : (effAuxWarn mv c).tmb.now = c.tmb.now := by
  unfold effAuxWarn; split <;> simp
@[simp] theorem effAuxWarnClear_now (mv : Nat) (c : Chip) : (effAuxWarnClear mv c).tmb.now = c.tmb.now := by
  unfold effAuxWarnClear; split <;> simp
@[simp] theorem senseTemp_now (sensor : Nat) (tj : BitVec 10) (c : Chip) :
    (senseTemp sensor tj c).tmb.now = c.tmb.now := by
  simp [senseTemp]
@[simp] theorem effTj_now (sensor : Nat) (tj : BitVec 10) (c : Chip) : (effTj sensor tj c).tmb.now = c.tmb.now := by
  unfold effTj; split <;> simp
@[simp] theorem effTjClear_now (sensor : Nat) (tj : BitVec 10) (c : Chip) :
    (effTjClear sensor tj c).tmb.now = c.tmb.now := by
  unfold effTjClear; split <;> simp
@[simp] theorem effThermRestart_now (sensor : Nat) (tj : BitVec 10) (c : Chip) :
    (effThermRestart sensor tj c).tmb.now = c.tmb.now := by
  unfold effThermRestart; split <;> simp
@[simp] theorem showPace_now (c : Chip) : (showPace c).tmb.now = c.tmb.now := by
  unfold showPace; split <;> simp
@[simp] theorem effPaces_now (ps : List Nat) (c : Chip) : (effPaces ps c).tmb.now = c.tmb.now := by
  unfold effPaces; split <;> simp
@[simp] theorem excludeMeter_now (i : Nat) (c : Chip) : (excludeMeter i c).tmb.now = c.tmb.now := by
  simp [excludeMeter]
@[simp] theorem setVcore_now (v : Nat) (c : Chip) : (setVcore v c).tmb.now = c.tmb.now := by
  simp [setVcore]
@[simp] theorem stepUp_now (c : Chip) : (stepUp c).tmb.now = c.tmb.now := by
  unfold stepUp; split <;> simp
@[simp] theorem stepDown_now (c : Chip) : (stepDown c).tmb.now = c.tmb.now := by
  unfold stepDown; split <;> simp
@[simp] theorem regulate_now (c : Chip) : (regulate c).tmb.now = c.tmb.now := by
  unfold regulate; (try dsimp only) <;> (repeat' split) <;> simp [*, forEach_now]
@[simp] theorem showShort_now (c : Chip) : (showShort c).tmb.now = c.tmb.now := by
  simp [showShort]
@[simp] theorem effLoop_now (c : Chip) : (effLoop c).tmb.now = c.tmb.now := by
  unfold effLoop; (try dsimp only) <;> (repeat' split) <;> simp [*, forEach_now]
@[simp] theorem setBegun_now (k : Nat) (c : Chip) : (setBegun k c).tmb.now = c.tmb.now := by
  simp [setBegun]
@[simp] theorem effTime0_now (c : Chip) : (effTime0 c).tmb.now = c.tmb.now := by
  unfold effTime0; split <;> simp
@[simp] theorem effStageStart_now (c : Chip) : (effStageStart c).tmb.now = c.tmb.now := by
  unfold effStageStart; split <;> simp
@[simp] theorem effStageDone_now (k : Nat) (c : Chip) : (effStageDone k c).tmb.now = c.tmb.now := by
  unfold effStageDone; (try dsimp only) <;> (repeat' split) <;> simp [*, forEach_now]
@[simp] theorem effStageTimeout_now (k : Nat) (c : Chip) : (effStageTimeout k c).tmb.now = c.tmb.now := by
  unfold effStageTimeout; split <;> simp
@[simp] theorem effImageLoad_now (c : Chip) : (effImageLoad c).tmb.now = c.tmb.now := by
  unfold effImageLoad; split <;> simp
@[simp] theorem bumpHist_now (k : Nat) (c : Chip) : (bumpHist k c).tmb.now = c.tmb.now := by
  simp [bumpHist]
@[simp] theorem putCand_now (t : Nat) (down : Bool) (e : Entry) (c : Chip) :
    (putCand t down e c).tmb.now = c.tmb.now := by
  unfold putCand; (try dsimp only) <;> (repeat' split) <;> simp [*, forEach_now]
@[simp] theorem takeMarks_now (l : Nat) (c : Chip) : (takeMarks l c).tmb.now = c.tmb.now := by
  unfold takeMarks; (try dsimp only) <;> (repeat' split) <;> simp [*, forEach_now]
@[simp] theorem sweepEntry_now (t : Nat) (e : Entry) (c : Chip) : (sweepEntry t e c).tmb.now = c.tmb.now := by
  unfold sweepEntry; (try dsimp only) <;> (repeat' split) <;> simp [*, forEach_now]
@[simp] theorem sweepLine_now (l : Nat) (c : Chip) : (sweepLine l c).tmb.now = c.tmb.now := by
  unfold sweepLine; (try dsimp only) <;> (repeat' split) <;> simp [*, forEach_now]
@[simp] theorem endTerm_now (bad : List Nat) (c : Chip) : (endTerm bad c).tmb.now = c.tmb.now := by
  unfold endTerm; (try dsimp only) <;> (repeat' split) <;> simp [*, forEach_now]
@[simp] theorem effTermEnd_now (bad : List Nat) (c : Chip) : (effTermEnd bad c).tmb.now = c.tmb.now := by
  unfold effTermEnd; (try dsimp only) <;> (repeat' split) <;> simp [*, forEach_now]
@[simp] theorem effMrkEnable_now (on : Bool) (c : Chip) : (effMrkEnable on c).tmb.now = c.tmb.now := by
  simp [effMrkEnable]
@[simp] theorem effSweepDone_now (durUs : Nat) (ps : List MovePick) (bad : List Nat) (c : Chip) :
    (effSweepDone durUs ps bad c).tmb.now = c.tmb.now := by
  unfold effSweepDone; (try dsimp only) <;> (repeat' split) <;> simp [*, forEach_now]
@[simp] theorem putWords_now (X : Fld) (l : List Nat) (c : Chip) : (putWords X l c).tmb.now = c.tmb.now := by
  simp [putWords, *, forEach_now]
@[simp] theorem keepRecord_now (r : FltRec) (c : Chip) : (keepRecord r c).tmb.now = c.tmb.now := by
  unfold keepRecord; (try dsimp only) <;> (repeat' split) <;> simp [*, forEach_now]
@[simp] theorem logRecord_now (r : FltRec) (c : Chip) : (logRecord r c).tmb.now = c.tmb.now := by
  unfold logRecord; split <;> simp
@[simp] theorem queueEvent_now (sev : Nat) (r : FltRec) (c : Chip) : (queueEvent sev r c).tmb.now = c.tmb.now := by
  unfold queueEvent; (try dsimp only) <;> (repeat' split) <;> simp [*, forEach_now]
@[simp] theorem setPulse_now (v : Bool) (c : Chip) : (setPulse v c).tmb.now = c.tmb.now := by
  simp [setPulse]
@[simp] theorem isolate_now (c : Chip) : (isolate c).tmb.now = c.tmb.now := by
  simp [isolate, *, forEach_now]
@[simp] theorem fatal_now (hadFe : Bool) (c : Chip) : (fatal hadFe c).tmb.now = c.tmb.now := by
  unfold fatal; (try dsimp only) <;> (repeat' split) <;> simp [*, forEach_now]
@[simp] theorem capture_now (coincident : Bool) (x : FltCode) (c : Chip) :
    (capture coincident x c).tmb.now = c.tmb.now := by
  simp [capture]
@[simp] theorem captureAll_now (l : List FltCode) (c : Chip) : (captureAll l c).tmb.now = c.tmb.now := by
  unfold captureAll; (try dsimp only) <;> (repeat' split) <;> simp [*, forEach_now]
@[simp] theorem hearPage_now (pg : Nat) (c : Chip) : (hearPage pg c).tmb.now = c.tmb.now := by
  simp [hearPage]
@[simp] theorem effCapture_now (n : Nat) (c : Chip) : (effCapture n c).tmb.now = c.tmb.now := by
  simp [effCapture, *, forEach_now]
@[simp] theorem clearFirst_now (c : Chip) : (clearFirst c).tmb.now = c.tmb.now := by
  simp [clearFirst]
@[simp] theorem clearNext_now (c : Chip) : (clearNext c).tmb.now = c.tmb.now := by
  simp [clearNext]
@[simp] theorem clearRecords_now (s : Nat) (c : Chip) : (clearRecords s c).tmb.now = c.tmb.now := by
  unfold clearRecords; (try dsimp only) <;> (repeat' split) <;> simp [*, forEach_now]
@[simp] theorem effHeartbeat_now (pg : Nat) (c : Chip) : (effHeartbeat pg c).tmb.now = c.tmb.now := by
  unfold effHeartbeat; split <;> simp
@[simp] theorem breakLink_now (pg : Nat) (c : Chip) : (breakLink pg c).tmb.now = c.tmb.now := by
  unfold breakLink; (try dsimp only) <;> (repeat' split) <;> simp [*, forEach_now]
@[simp] theorem effLink_now (pg : Nat) (seen : LinkSeen) (c : Chip) : (effLink pg seen c).tmb.now = c.tmb.now := by
  unfold effLink; split <;> simp
@[simp] theorem pollPage_now (k : PK) (n : Nat) (pg : Nat) (was : Nat) (c : Chip) :
    (pollPage k n pg was c).tmb.now = c.tmb.now := by
  simp [pollPage, *, forEach_now]
@[simp] theorem effLinkPoll_now (pg : Nat) (c : Chip) : (effLinkPoll pg c).tmb.now = c.tmb.now := by
  unfold effLinkPoll; split <;> simp
@[simp] theorem injectErrs_now (v : Nat) (k : PK) (n : Nat) (c : Chip) :
    (injectErrs v k n c).tmb.now = c.tmb.now := by
  simp [injectErrs, *, forEach_now]
@[simp] theorem maskErrs_now (v : Nat) (k : PK) (n : Nat) (c : Chip) : (maskErrs v k n c).tmb.now = c.tmb.now := by
  simp [maskErrs, *, forEach_now]
@[simp] theorem clearErrs_now (v : Nat) (k : PK) (n : Nat) (c : Chip) : (clearErrs v k n c).tmb.now = c.tmb.now := by
  simp [clearErrs]
@[simp] theorem sevWrite_now (v : Nat) (k : PK) (n : Nat) (c : Chip) : (sevWrite v k n c).tmb.now = c.tmb.now := by
  unfold sevWrite; (try dsimp only) <;> (repeat' split) <;> (try simp [*, forEach_now]) <;>
    (try (refine (forEach_now _ _ _ (fun _ _ => ?_)).trans ?_ <;> (try dsimp only) <;> (repeat' split) <;> (try simp [*, forEach_now]) <;>
      (repeat' split) <;> (try simp [*, forEach_now])))
@[simp] theorem frameStart_now (c : Chip) : (frameStart c).tmb.now = c.tmb.now := by
  simp [frameStart]
@[simp] theorem noteChanges_now (diff : Nat) (c : Chip) : (noteChanges diff c).tmb.now = c.tmb.now := by
  unfold noteChanges; (try dsimp only) <;> (repeat' split) <;> (try simp [*, forEach_now]) <;>
    (try (refine (forEach_now _ _ _ (fun _ _ => ?_)).trans ?_ <;> (try dsimp only) <;> (repeat' split) <;> (try simp [*, forEach_now]) <;>
      (repeat' split) <;> (try simp [*, forEach_now])))
@[simp] theorem publishFrame_now (img : Nat) (c : Chip) : (publishFrame img c).tmb.now = c.tmb.now := by
  unfold publishFrame; (try dsimp only) <;> (repeat' split) <;> simp [*, forEach_now]
@[simp] theorem countBrg_now (port : Option Nat) (x : Nat) (q : Option Nat) (c : Chip) :
    (countBrg port x q c).tmb.now = c.tmb.now := by
  simp [countBrg, *, forEach_now]
@[simp] theorem discardFrame_now (c : Chip) : (discardFrame c).tmb.now = c.tmb.now := by
  unfold discardFrame; (try dsimp only) <;> (repeat' split) <;> simp [*, forEach_now]
@[simp] theorem frame_now (img : Nat) (c : Chip) : (frame img c).tmb.now = c.tmb.now := by
  unfold frame; (try dsimp only) <;> (repeat' split) <;> simp [*, forEach_now]
@[simp] theorem effFrame_now (img : Nat) (c : Chip) : (effFrame img c).tmb.now = c.tmb.now := by
  unfold effFrame; split <;> simp
@[simp] theorem setTap_now (f : Tap → Tap) (c : Chip) : (setTap f c).tmb.now = c.tmb.now := by
  simp [setTap]
@[simp] theorem scanDr_now (x : TapScan) (c : Chip) : (scanDr x c).tmb.now = c.tmb.now := by
  unfold scanDr; (try dsimp only) <;> (repeat' split) <;> simp [*, forEach_now]
@[simp] theorem unloop_now (l : Nat) (c : Chip) : (unloop l c).tmb.now = c.tmb.now := by
  unfold unloop; split <;> simp
@[simp] theorem takeLands_now (c : Chip) : (takeLands c).tmb.now = c.tmb.now := by
  unfold takeLands; (try dsimp only) <;> (repeat' split) <;> simp [*, forEach_now]
@[simp] theorem returnLands_now (c : Chip) : (returnLands c).tmb.now = c.tmb.now := by
  simp [returnLands]
@[simp] theorem loadIr_now (op : BitVec 8) (x : TapScan) (c : Chip) : (loadIr op x c).tmb.now = c.tmb.now := by
  unfold loadIr; (try dsimp only) <;> (repeat' split) <;> simp [*, forEach_now]
@[simp] theorem resetTap_now (c : Chip) : (resetTap c).tmb.now = c.tmb.now := by
  simp [resetTap]
@[simp] theorem setSensor_now (e : Nat) (x : Sensor) (c : Chip) : (setSensor e x c).tmb.now = c.tmb.now := by
  simp [setSensor]
@[simp] theorem writePart_now (n : Nat) (off : Nat) (v : Nat) (X : Fld) (c : Chip) :
    (writePart n off v X c).tmb.now = c.tmb.now := by
  unfold writePart; (try dsimp only) <;> (repeat' split) <;> simp [*, forEach_now]
@[simp] theorem writeFldsBut_now (skip : List Fld) (k : PK) (n : Nat) (off : Nat) (v : Nat) (c : Chip) :
    (writeFldsBut skip k n off v c).tmb.now = c.tmb.now := by
  simp [writeFldsBut, *, forEach_now]
@[simp] theorem writeFlds_now (k : PK) (n : Nat) (off : Nat) (v : Nat) (c : Chip) :
    (writeFlds k n off v c).tmb.now = c.tmb.now := by
  simp [writeFlds]
@[simp] theorem writeOne_now (X : Fld) (n : Nat) (v : Nat) (c : Chip) : (writeOne X n v c).tmb.now = c.tmb.now := by
  simp [writeOne]
@[simp] theorem headerWrite_now (k : PK) (n : Nat) (off : Nat) (v : Nat) (c : Chip) :
    (headerWrite k n off v c).tmb.now = c.tmb.now := by
  unfold headerWrite; (try dsimp only) <;> (repeat' split) <;> simp [*, forEach_now]
@[simp] theorem counterWrite_now (pa : Path) (k : PK) (n : Nat) (off : Nat) (v : Nat) (c : Chip) :
    (counterWrite pa k n off v c).tmb.now = c.tmb.now := by
  unfold counterWrite; (try dsimp only) <;> (repeat' split) <;> simp [*, forEach_now]
@[simp] theorem updCtrlWrite_now (v : Nat) (c : Chip) : (updCtrlWrite v c).tmb.now = c.tmb.now := by
  unfold updCtrlWrite; (try dsimp only) <;> (repeat' split) <;> simp [*, forEach_now]
@[simp] theorem secWrite_now (pa : Path) (off : Nat) (v : Nat) (c : Chip) :
    (secWrite pa off v c).tmb.now = c.tmb.now := by
  unfold secWrite; (try dsimp only) <;> (repeat' split) <;> simp [*, forEach_now]
@[simp] theorem compWrite_now (pa : Path) (core : Nat) (v : Nat) (c : Chip) :
    (compWrite pa core v c).tmb.now = c.tmb.now := by
  unfold compWrite; split <;> simp
@[simp] theorem mgtCoreWrite_now (pa : Path) (core : Nat) (off : Nat) (v : Nat) (c : Chip) :
    (mgtCoreWrite pa core off v c).tmb.now = c.tmb.now := by
  unfold mgtCoreWrite; (try dsimp only) <;> (repeat' split) <;> simp [*, forEach_now]
@[simp] theorem sbcOutWrite_now (m : Nat) (v : Nat) (c : Chip) : (sbcOutWrite m v c).tmb.now = c.tmb.now := by
  simp [sbcOutWrite]
@[simp] theorem brgSbcWrite_now (off : Nat) (v : Nat) (c : Chip) : (brgSbcWrite off v c).tmb.now = c.tmb.now := by
  unfold brgSbcWrite; (try dsimp only) <;> (repeat' split) <;> simp [*, forEach_now]
@[simp] theorem pdrChanged_now (c : Chip) : (pdrChanged c).tmb.now = c.tmb.now := by
  simp [pdrChanged]
@[simp] theorem sensorWrite_now (i : Nat) (v : Nat) (c : Chip) : (sensorWrite i v c).tmb.now = c.tmb.now := by
  simp [sensorWrite]
@[simp] theorem brgSensWrite_now (off : Nat) (v : Nat) (c : Chip) : (brgSensWrite off v c).tmb.now = c.tmb.now := by
  unfold brgSensWrite; split <;> simp
@[simp] theorem slpWrite_now (n : Nat) (off : Nat) (v : Nat) (c : Chip) :
    (slpWrite n off v c).tmb.now = c.tmb.now := by
  unfold slpWrite; (try dsimp only) <;> (repeat' split) <;> simp [*, forEach_now]
@[simp] theorem fltWrite_now (off : Nat) (v : Nat) (c : Chip) : (fltWrite off v c).tmb.now = c.tmb.now := by
  unfold fltWrite; split <;> simp
@[simp] theorem glbWrite_now (off : Nat) (v : Nat) (c : Chip) : (glbWrite off v c).tmb.now = c.tmb.now := by
  unfold glbWrite; split <;> simp
@[simp] theorem tmbWrite_now (pa : Path) (off : Nat) (v : Nat) (c : Chip) :
    (tmbWrite pa off v c).tmb.now = c.tmb.now := by
  unfold tmbWrite; (try dsimp only) <;> (repeat' split) <;> simp [*, forEach_now]
@[simp] theorem cntWrite_now (off : Nat) (v : Nat) (c : Chip) : (cntWrite off v c).tmb.now = c.tmb.now := by
  unfold cntWrite; (try dsimp only) <;> (repeat' split) <;> simp [*, forEach_now]
@[simp] theorem bndCtrlWrite_now (off : Nat) (v : Nat) (c : Chip) : (bndCtrlWrite off v c).tmb.now = c.tmb.now := by
  unfold bndCtrlWrite; (try dsimp only) <;> (repeat' split) <;> simp [*, forEach_now]
@[simp] theorem ifaceWrite_now (i : Nat) (k : PK) (n : Nat) (off : Nat) (v : Nat) (c : Chip) :
    (ifaceWrite i k n off v c).tmb.now = c.tmb.now := by
  unfold ifaceWrite; split <;> simp
@[simp] theorem mapCmdWrite_now (i : Nat) (k : PK) (n : Nat) (v : Nat) (c : Chip) :
    (mapCmdWrite i k n v c).tmb.now = c.tmb.now := by
  unfold mapCmdWrite; (try dsimp only) <;> (repeat' split) <;> simp [*, forEach_now]
@[simp] theorem mapWrite_now (off : Nat) (v : Nat) (c : Chip) : (mapWrite off v c).tmb.now = c.tmb.now := by
  unfold mapWrite; (try dsimp only) <;> (repeat' split) <;> simp [*, forEach_now]
@[simp] theorem panWrite_now (p : Nat) (off : Nat) (v : Nat) (c : Chip) :
    (panWrite p off v c).tmb.now = c.tmb.now := by
  unfold panWrite; (try dsimp only) <;> (repeat' split) <;> simp [*, forEach_now]
@[simp] theorem mrkWrite_now (off : Nat) (v : Nat) (c : Chip) : (mrkWrite off v c).tmb.now = c.tmb.now := by
  unfold mrkWrite; (try dsimp only) <;> (repeat' split) <;> simp [*, forEach_now]
@[simp] theorem carCfgWrite_now (d : Nat) (v : Nat) (c : Chip) : (carCfgWrite d v c).tmb.now = c.tmb.now := by
  unfold carCfgWrite; split <;> simp
@[simp] theorem carDWrite_now (d : Nat) (off : Nat) (v : Nat) (c : Chip) :
    (carDWrite d off v c).tmb.now = c.tmb.now := by
  unfold carDWrite; (try dsimp only) <;> (repeat' split) <;> simp [*, forEach_now]
@[simp] theorem rolWrite_now (off : Nat) (v : Nat) (c : Chip) : (rolWrite off v c).tmb.now = c.tmb.now := by
  unfold rolWrite; (try dsimp only) <;> (repeat' split) <;> simp [*, forEach_now]
@[simp] theorem laneCtrlWrite_now (g : Nat) (off : Nat) (l : Nat) (v : Nat) (c : Chip) :
    (laneCtrlWrite g off l v c).tmb.now = c.tmb.now := by
  unfold laneCtrlWrite; (try dsimp only) <;> (repeat' split) <;> simp [*, forEach_now]
@[simp] theorem laneWrite_now (g : Nat) (off : Nat) (l : Nat) (r : Nat) (v : Nat) (c : Chip) :
    (laneWrite g off l r v c).tmb.now = c.tmb.now := by
  unfold laneWrite; (try dsimp only) <;> (repeat' split) <;> simp [*, forEach_now]
@[simp] theorem phyGWrite_now (g : Nat) (off : Nat) (v : Nat) (c : Chip) :
    (phyGWrite g off v c).tmb.now = c.tmb.now := by
  unfold phyGWrite; split <;> simp
@[simp] theorem widthWrite_now (p : Nat) (v : Nat) (c : Chip) : (widthWrite p v c).tmb.now = c.tmb.now := by
  simp [widthWrite]
@[simp] theorem advWrite_now (p : Nat) (cls : Nat) (v : Nat) (c : Chip) :
    (advWrite p cls v c).tmb.now = c.tmb.now := by
  unfold advWrite; split <;> simp
@[simp] theorem lnkWrite_now (p : Nat) (off : Nat) (v : Nat) (c : Chip) :
    (lnkWrite p off v c).tmb.now = c.tmb.now := by
  unfold lnkWrite; (try dsimp only) <;> (repeat' split) <;> simp [*, forEach_now]
@[simp] theorem prtCfgWrite_now (p : Nat) (v : Nat) (c : Chip) : (prtCfgWrite p v c).tmb.now = c.tmb.now := by
  unfold prtCfgWrite; (try dsimp only) <;> (repeat' split) <;> simp [*, forEach_now]
@[simp] theorem pwrReqWrite_now (p : Nat) (on : Bool) (c : Chip) : (pwrReqWrite p on c).tmb.now = c.tmb.now := by
  unfold pwrReqWrite; (try dsimp only) <;> (repeat' split) <;> simp [*, forEach_now]
@[simp] theorem autoStart_now (p : Nat) (c : Chip) : (autoStart p c).tmb.now = c.tmb.now := by
  unfold autoStart; split <;> simp
@[simp] theorem prtSlotWrite_now (p : Nat) (v : Nat) (c : Chip) : (prtSlotWrite p v c).tmb.now = c.tmb.now := by
  unfold prtSlotWrite; (try dsimp only) <;> (repeat' split) <;> simp [*, forEach_now]
@[simp] theorem prtWrite_now (p : Nat) (off : Nat) (v : Nat) (c : Chip) :
    (prtWrite p off v c).tmb.now = c.tmb.now := by
  unfold prtWrite; (try dsimp only) <;> (repeat' split) <;> simp [*, forEach_now]
@[simp] theorem tenWrite_now (t : Nat) (off : Nat) (v : Nat) (c : Chip) :
    (tenWrite t off v c).tmb.now = c.tmb.now := by
  unfold tenWrite; (try dsimp only) <;> (repeat' split) <;> simp [*, forEach_now]
@[simp] theorem watWrite_now (p : Nat) (v : Nat) (c : Chip) : (watWrite p v c).tmb.now = c.tmb.now := by
  unfold watWrite; (try dsimp only) <;> (repeat' split) <;> simp [*, forEach_now]
@[simp] theorem sltWrite_now (p : Nat) (off : Nat) (v : Nat) (c : Chip) :
    (sltWrite p off v c).tmb.now = c.tmb.now := by
  unfold sltWrite; (try dsimp only) <;> (repeat' split) <;> simp [*, forEach_now]
@[simp] theorem shpTWrite_now (t : Nat) (off : Nat) (v : Nat) (c : Chip) :
    (shpTWrite t off v c).tmb.now = c.tmb.now := by
  unfold shpTWrite; (try dsimp only) <;> (repeat' split) <;> simp [*, forEach_now]
@[simp] theorem blockWrite_now (pa : Path) (k : PK) (n : Nat) (off : Nat) (v : Nat) (c : Chip) :
    (blockWrite pa k n off v c).tmb.now = c.tmb.now := by
  unfold blockWrite; (try dsimp only) <;> (repeat' split) <;> simp [*, forEach_now]
@[simp] theorem chipWrite_now (pa : Path) (k : PK) (n : Nat) (off : Nat) (v : Nat) (c : Chip) :
    (chipWrite pa k n off v c).tmb.now = c.tmb.now := by
  unfold chipWrite; (try dsimp only) <;> (repeat' split) <;> simp [*, forEach_now]
@[simp] theorem setBrgPort_now (k : Nat) (x : BrgPort) (c : Chip) : (setBrgPort k x c).tmb.now = c.tmb.now := by
  simp [setBrgPort]
@[simp] theorem busErr_now (k : Nat) (c : Chip) : (busErr k c).tmb.now = c.tmb.now := by
  simp [busErr]
@[simp] theorem noteReqFault_now (res : BrgRes) (addr : Nat) (c : Chip) :
    (noteReqFault res addr c).tmb.now = c.tmb.now := by
  unfold noteReqFault; split <;> simp
@[simp] theorem finishReq_now (k : Nat) (res : BrgRes) (data : Nat) (c : Chip) :
    (finishReq k res data c).tmb.now = c.tmb.now := by
  simp [finishReq]
@[simp] theorem dropLate_now (k : Nat) (r : BrgReq) (c : Chip) : (dropLate k r c).tmb.now = c.tmb.now := by
  simp [dropLate]
@[simp] theorem postedFail_now (k : Nat) (addr : Nat) (c : Chip) : (postedFail k addr c).tmb.now = c.tmb.now := by
  unfold postedFail; split <;> simp
@[simp] theorem postWrite_now (k : Nat) (addr : Nat) (v : Nat) (c : Chip) :
    (postWrite k addr v c).tmb.now = c.tmb.now := by
  unfold postWrite; (try dsimp only) <;> (repeat' split) <;> simp [*, forEach_now]
@[simp] theorem popPosted_now (k : Nat) (c : Chip) : (popPosted k c).tmb.now = c.tmb.now := by
  simp [popPosted]
@[simp] theorem effResult_now (k : Nat) (c : Chip) : (effResult k c).tmb.now = c.tmb.now := by
  unfold effResult; split <;> simp
@[simp] theorem effReserved_now (k : Nat) (code : Nat) (c : Chip) : (effReserved k code c).tmb.now = c.tmb.now := by
  unfold effReserved; split <;> simp
@[simp] theorem effFetchTimeout_now (k : Nat) (c : Chip) : (effFetchTimeout k c).tmb.now = c.tmb.now := by
  unfold effFetchTimeout; (try dsimp only) <;> (repeat' split) <;> simp [*, forEach_now]
@[simp] theorem i3cEnter_now (k : Nat) (addr : Nat) (c : Chip) : (i3cEnter k addr c).tmb.now = c.tmb.now := by
  unfold i3cEnter; split <;> simp
@[simp] theorem i3cLeave_now (k : Nat) (c : Chip) : (i3cLeave k c).tmb.now = c.tmb.now := by
  unfold i3cLeave; split <;> simp
@[simp] theorem setAsm_now (l : List MctpAsm) (c : Chip) : (setAsm l c).tmb.now = c.tmb.now := by
  simp [setAsm]
@[simp] theorem withoutAsm_now (k : Nat) (src : Nat) (tag : Nat) (c : Chip) :
    (withoutAsm k src tag c).tmb.now = c.tmb.now := by
  simp [withoutAsm]
@[simp] theorem dropMsg_now (k : Nat) (c : Chip) : (dropMsg k c).tmb.now = c.tmb.now := by
  simp [dropMsg]
@[simp] theorem extendMsg_now (m : MctpAsm) (l : List Byte) (eom : Bool) (c : Chip) :
    (extendMsg m l eom c).tmb.now = c.tmb.now := by
  unfold extendMsg; (try dsimp only) <;> (repeat' split) <;> simp [*, forEach_now]
@[simp] theorem startMsg_now (k : Nat) (p : MctpPkt) (c : Chip) : (startMsg k p c).tmb.now = c.tmb.now := by
  unfold startMsg; (try dsimp only) <;> (repeat' split) <;> simp [*, forEach_now]
@[simp] theorem nextPkt_now (k : Nat) (p : MctpPkt) (c : Chip) : (nextPkt k p c).tmb.now = c.tmb.now := by
  unfold nextPkt; (try dsimp only) <;> (repeat' split) <;> simp [*, forEach_now]
@[simp] theorem effMctpPacket_now (k : Nat) (p : MctpPkt) (c : Chip) :
    (effMctpPacket k p c).tmb.now = c.tmb.now := by
  unfold effMctpPacket; (try dsimp only) <;> (repeat' split) <;> simp [*, forEach_now]
@[simp] theorem effReassembly_now (k : Nat) (src : Nat) (tag : Nat) (c : Chip) :
    (effReassembly k src tag c).tmb.now = c.tmb.now := by
  unfold effReassembly; split <;> simp
@[simp] theorem mctpReply_now (k : Nat) (h : MctpHead) (typ : Nat) (cmd : Nat) (code : Nat) (data : List Nat) (c : Chip) :
    (mctpReply k h typ cmd code data c).tmb.now = c.tmb.now := by
  simp [mctpReply]
@[simp] theorem setEid_now (k : Nat) (h : MctpHead) (op : Nat) (eid : Nat) (c : Chip) :
    (setEid k h op eid c).tmb.now = c.tmb.now := by
  unfold setEid; split <;> simp
@[simp] theorem getVersion_now (k : Nat) (h : MctpHead) (typ : Nat) (c : Chip) :
    (getVersion k h typ c).tmb.now = c.tmb.now := by
  unfold getVersion; (try dsimp only) <;> (repeat' split) <;> simp [*, forEach_now]
@[simp] theorem fmAnswered_now (n : Nat) (c : Chip) : (fmAnswered n c).tmb.now = c.tmb.now := by
  unfold fmAnswered; (try dsimp only) <;> (repeat' split) <;> simp [*, forEach_now]
@[simp] theorem fmTake_now (src : FmSource) (opcode : Nat) (c : Chip) :
    (fmTake src opcode c).tmb.now = c.tmb.now := by
  unfold fmTake; (try dsimp only) <;> (repeat' split) <;> simp [*, forEach_now]
@[simp] theorem pldmReplyOf_now (k : Nat) (h : MctpHead) (typ : Nat) (cmd : Nat) (code : Nat) (data : List Nat) (c : Chip) :
    (pldmReplyOf k h typ cmd code data c).tmb.now = c.tmb.now := by
  simp [pldmReplyOf]
@[simp] theorem pldmReply_now (k : Nat) (h : MctpHead) (cmd : Nat) (code : Nat) (data : List Nat) (c : Chip) :
    (pldmReply k h cmd code data c).tmb.now = c.tmb.now := by
  simp [pldmReply]
@[simp] theorem getPdr_now (k : Nat) (h : MctpHead) (handle : Nat) (c : Chip) :
    (getPdr k h handle c).tmb.now = c.tmb.now := by
  unfold getPdr; (try dsimp only) <;> (repeat' split) <;> simp [*, forEach_now]
@[simp] theorem sensorReading_now (k : Nat) (h : MctpHead) (id : Nat) (c : Chip) :
    (sensorReading k h id c).tmb.now = c.tmb.now := by
  unfold sensorReading; split <;> simp
@[simp] theorem sensorEnable_now (k : Nat) (h : MctpHead) (id : Nat) (en : Bool) (c : Chip) :
    (sensorEnable k h id en c).tmb.now = c.tmb.now := by
  unfold sensorEnable; split <;> simp
@[simp] theorem sampleOne_now (s : State) (e : Nat) (c : Chip) : (sampleOne s e c).tmb.now = c.tmb.now := by
  unfold sampleOne; (try dsimp only) <;> (repeat' split) <;> simp [*, forEach_now]
@[simp] theorem pldmBase_now (k : Nat) (h : MctpHead) (code : Nat) (arg : Nat) (c : Chip) :
    (pldmBase k h code arg c).tmb.now = c.tmb.now := by
  unfold pldmBase; split <;> simp
@[simp] theorem pldmOther_now (k : Nat) (h : MctpHead) (typ : Nat) (code : Nat) (arg : Nat) (c : Chip) :
    (pldmOther k h typ code arg c).tmb.now = c.tmb.now := by
  unfold pldmOther; (try dsimp only) <;> (repeat' split) <;> simp [*, forEach_now]
@[simp] theorem setReceiver_now (eid : Nat) (c : Chip) : (setReceiver eid c).tmb.now = c.tmb.now := by
  simp [setReceiver]
@[simp] theorem setEvents_now (l : List BrgEvent) (c : Chip) : (setEvents l c).tmb.now = c.tmb.now := by
  simp [setEvents]
@[simp] theorem dropEvent_now (id : Nat) (c : Chip) : (dropEvent id c).tmb.now = c.tmb.now := by
  simp [dropEvent]
@[simp] theorem ackPolled_now (id : Nat) (c : Chip) : (ackPolled id c).tmb.now = c.tmb.now := by
  simp [ackPolled]
@[simp] theorem onEvent_now (id : Nat) (f : BrgEvent → BrgEvent) (c : Chip) :
    (onEvent id f c).tmb.now = c.tmb.now := by
  simp [onEvent]
@[simp] theorem pollEvent_now (k : Nat) (h : MctpHead) (ack : Option Nat) (c : Chip) :
    (pollEvent k h ack c).tmb.now = c.tmb.now := by
  unfold pollEvent; (try dsimp only) <;> (repeat' split) <;> simp [*, forEach_now]
@[simp] theorem sendEvent_now (c : Chip) : (sendEvent c).tmb.now = c.tmb.now := by
  unfold sendEvent; split <;> simp
@[simp] theorem raiseIbi_now (k : Nat) (won : Bool) (c : Chip) : (raiseIbi k won c).tmb.now = c.tmb.now := by
  unfold raiseIbi; (try dsimp only) <;> (repeat' split) <;> simp [*, forEach_now]
@[simp] theorem answerAlert_now (k : Nat) (c : Chip) : (answerAlert k c).tmb.now = c.tmb.now := by
  unfold answerAlert; split <;> simp

end Sys2Proof.Machine
end

