-- ==== Sys2Proof/Laws/Widths.lean ====
section
/-!
SUPPORT. The width of every register field, so that a value set in a field reads back by `getF_setF_same`.
-/
namespace Sys2Proof.Machine

@[simp] theorem PG_LOCK_w (k : PK) : (PG_LOCK k).w = 1 := (rfl)
@[simp] theorem PG_CTRL_CFRZ_w (k : PK) : (PG_CTRL_CFRZ k).w = 1 := (rfl)
@[simp] theorem PG_ERR_w (k : PK) : (PG_ERR k).w = 16 := (rfl)
@[simp] theorem PG_ERR_MASK_w (k : PK) : (PG_ERR_MASK k).w = 16 := (rfl)
@[simp] theorem PG_ERR_SEV_w (k : PK) : (PG_ERR_SEV k).w = 32 := (rfl)
@[simp] theorem PG_EVT_PEND_w (k : PK) : (PG_EVT_PEND k).w = 16 := (rfl)
@[simp] theorem PG_EVT_EN_w (k : PK) : (PG_EVT_EN k).w = 16 := (rfl)
@[simp] theorem PWR_VIN_LVL_HYST_w : PWR_VIN_LVL_HYST.w = 8 := (rfl)
@[simp] theorem PWR_VIN_LVL_WARN_w : PWR_VIN_LVL_WARN.w = 9 := (rfl)
@[simp] theorem PWR_VAUX_LVL_HYST_w : PWR_VAUX_LVL_HYST.w = 8 := (rfl)
@[simp] theorem PWR_VAUX_LVL_WARN_w : PWR_VAUX_LVL_WARN.w = 9 := (rfl)
@[simp] theorem PWR_PACE_TGT_TGT_w : PWR_PACE_TGT_TGT.w = 11 := (rfl)
@[simp] theorem PWR_PACE_USED_w : PWR_PACE_USED.w = 5 := (rfl)
@[simp] theorem PWR_PACE_SLOW_w : PWR_PACE_SLOW.w = 4 := (rfl)
@[simp] theorem PWR_PACE_MEAS_w : PWR_PACE_MEAS.w = 11 := (rfl)
@[simp] theorem PWR_VCORE_HOLD_w : PWR_VCORE_HOLD.w = 1 := (rfl)
@[simp] theorem PWR_VCORE_VMAX_w : PWR_VCORE_VMAX.w = 10 := (rfl)
@[simp] theorem PWR_VCORE_VCORE_w : PWR_VCORE_VCORE.w = 10 := (rfl)
@[simp] theorem PWR_TEMP_SENSOR_w : PWR_TEMP_SENSOR.w = 4 := (rfl)
@[simp] theorem PWR_TEMP_TJ_w : PWR_TEMP_TJ.w = 10 := (rfl)
@[simp] theorem PWR_TEMP_LVL_TRIP_w : PWR_TEMP_LVL_TRIP.w = 8 := (rfl)
@[simp] theorem PWR_TEMP_LVL_WARN_w : PWR_TEMP_LVL_WARN.w = 8 := (rfl)
@[simp] theorem PWR_VSENSE_VAUX_w : PWR_VSENSE_VAUX.w = 12 := (rfl)
@[simp] theorem PWR_VSENSE_VIN_w : PWR_VSENSE_VIN.w = 12 := (rfl)
@[simp] theorem PWR_HVSENSE_HV_IN_w : PWR_HVSENSE_HV_IN.w = 12 := (rfl)
@[simp] theorem PWR_RSTCAUSE_CAUSE_w : PWR_RSTCAUSE_CAUSE.w = 4 := (rfl)
@[simp] theorem PWR_START_T_USEFUL_w : PWR_START_T_USEFUL.w = 16 := (rfl)
@[simp] theorem PWR_START_USEFUL_w : PWR_START_USEFUL.w = 1 := (rfl)
@[simp] theorem PWR_START_DONE_w : PWR_START_DONE.w = 1 := (rfl)
@[simp] theorem PWR_START_HALT_w : PWR_START_HALT.w = 1 := (rfl)
@[simp] theorem PWR_START_STAGE_w : PWR_START_STAGE.w = 4 := (rfl)
@[simp] theorem PHY_LG_CTRL_FOLLOW_w : PHY_LG_CTRL_FOLLOW.w = 1 := (rfl)
@[simp] theorem PHY_LG_CTRL_PRECODE_w : PHY_LG_CTRL_PRECODE.w = 2 := (rfl)
@[simp] theorem PHY_LG_CTRL_RATECAP_w : PHY_LG_CTRL_RATECAP.w = 3 := (rfl)
@[simp] theorem PHY_LANE_CTRL_PD_w : PHY_LANE_CTRL_PD.w = 1 := (rfl)
@[simp] theorem PHY_LANE_CTRL_LB_w : PHY_LANE_CTRL_LB.w = 3 := (rfl)
@[simp] theorem PHY_LANE_CTRL_LBRATE_w : PHY_LANE_CTRL_LBRATE.w = 3 := (rfl)
@[simp] theorem PHY_LANE_CTRL_CLKMODE_w : PHY_LANE_CTRL_CLKMODE.w = 2 := (rfl)
@[simp] theorem PHY_LANE_CTRL_POL_w : PHY_LANE_CTRL_POL.w = 2 := (rfl)
@[simp] theorem PHY_LANE_CTRL_FREEZE_w : PHY_LANE_CTRL_FREEZE.w = 1 := (rfl)
@[simp] theorem PHY_LANE_CTRL_CDR_BW_w : PHY_LANE_CTRL_CDR_BW.w = 3 := (rfl)
@[simp] theorem PHY_LANE_STAT_PDACT_w : PHY_LANE_STAT_PDACT.w = 1 := (rfl)
@[simp] theorem PHY_LANE_STAT_LBACT_w : PHY_LANE_STAT_LBACT.w = 1 := (rfl)
@[simp] theorem PHY_LANE_STAT_RATE_w : PHY_LANE_STAT_RATE.w = 3 := (rfl)
@[simp] theorem PHY_LANE_STAT_SIGDET_w : PHY_LANE_STAT_SIGDET.w = 1 := (rfl)
@[simp] theorem PHY_LANE_STAT_CDR_LOCK_w : PHY_LANE_STAT_CDR_LOCK.w = 1 := (rfl)
@[simp] theorem PHY_LANE_STAT_CDR_LOST_w : PHY_LANE_STAT_CDR_LOST.w = 1 := (rfl)
@[simp] theorem PHY_LANE_STAT_POL_INV_w : PHY_LANE_STAT_POL_INV.w = 1 := (rfl)
@[simp] theorem PHY_LANE_STAT_PRE_TX_w : PHY_LANE_STAT_PRE_TX.w = 1 := (rfl)
@[simp] theorem PHY_LANE_STAT_PRE_RX_w : PHY_LANE_STAT_PRE_RX.w = 1 := (rfl)
@[simp] theorem PHY_LANE_STAT_ADAPT_w : PHY_LANE_STAT_ADAPT.w = 2 := (rfl)
@[simp] theorem PHY_LANE_STAT_REV_w : PHY_LANE_STAT_REV.w = 1 := (rfl)
@[simp] theorem PHY_LANE_STAT_LOGICAL_w : PHY_LANE_STAT_LOGICAL.w = 4 := (rfl)
@[simp] theorem PHY_LANE_STAT_TXPRE_w : PHY_LANE_STAT_TXPRE.w = 4 := (rfl)
@[simp] theorem PHY_LANE_STAT_CHK_LOCK_w : PHY_LANE_STAT_CHK_LOCK.w = 1 := (rfl)
@[simp] theorem PHY_LANE_DFE0_TAP_D_w : PHY_LANE_DFE0_TAP_D.w = 8 := (rfl)
@[simp] theorem PHY_LANE_DFE0_TAP_C_w : PHY_LANE_DFE0_TAP_C.w = 8 := (rfl)
@[simp] theorem PHY_LANE_DFE0_TAP_B_w : PHY_LANE_DFE0_TAP_B.w = 8 := (rfl)
@[simp] theorem PHY_LANE_DFE0_TAP_A_w : PHY_LANE_DFE0_TAP_A.w = 8 := (rfl)
@[simp] theorem PHY_LANE_DFE1_TAP_D_w : PHY_LANE_DFE1_TAP_D.w = 8 := (rfl)
@[simp] theorem PHY_LANE_DFE1_TAP_C_w : PHY_LANE_DFE1_TAP_C.w = 8 := (rfl)
@[simp] theorem PHY_LANE_DFE1_TAP_B_w : PHY_LANE_DFE1_TAP_B.w = 8 := (rfl)
@[simp] theorem PHY_LANE_DFE1_TAP_A_w : PHY_LANE_DFE1_TAP_A.w = 8 := (rfl)
@[simp] theorem PHY_LANE_DFE2_TAP_D_w : PHY_LANE_DFE2_TAP_D.w = 8 := (rfl)
@[simp] theorem PHY_LANE_DFE2_TAP_C_w : PHY_LANE_DFE2_TAP_C.w = 8 := (rfl)
@[simp] theorem PHY_LANE_DFE2_TAP_B_w : PHY_LANE_DFE2_TAP_B.w = 8 := (rfl)
@[simp] theorem PHY_LANE_DFE2_TAP_A_w : PHY_LANE_DFE2_TAP_A.w = 8 := (rfl)
@[simp] theorem PHY_LANE_FTAP0_POS_w : PHY_LANE_FTAP0_POS.w = 7 := (rfl)
@[simp] theorem PHY_LANE_FTAP0_VAL_w : PHY_LANE_FTAP0_VAL.w = 8 := (rfl)
@[simp] theorem PHY_LANE_FTAP1_POS_w : PHY_LANE_FTAP1_POS.w = 7 := (rfl)
@[simp] theorem PHY_LANE_FTAP1_VAL_w : PHY_LANE_FTAP1_VAL.w = 8 := (rfl)
@[simp] theorem PHY_LANE_FTAP2_POS_w : PHY_LANE_FTAP2_POS.w = 7 := (rfl)
@[simp] theorem PHY_LANE_FTAP2_VAL_w : PHY_LANE_FTAP2_VAL.w = 8 := (rfl)
@[simp] theorem PHY_LANE_CTLE_PEAK_w : PHY_LANE_CTLE_PEAK.w = 5 := (rfl)
@[simp] theorem PHY_LANE_CDR_PPM_w : PHY_LANE_CDR_PPM.w = 16 := (rfl)
@[simp] theorem PHY_LANE_PAT_GEN_EN_w : PHY_LANE_PAT_GEN_EN.w = 1 := (rfl)
@[simp] theorem PHY_LANE_PAT_CHK_EN_w : PHY_LANE_PAT_CHK_EN.w = 1 := (rfl)
@[simp] theorem PHY_LANE_PAT_GEN_PAT_w : PHY_LANE_PAT_GEN_PAT.w = 4 := (rfl)
@[simp] theorem PHY_LANE_PAT_CHK_PAT_w : PHY_LANE_PAT_CHK_PAT.w = 4 := (rfl)
@[simp] theorem PHY_LANE_UPAT0_PAT_w : PHY_LANE_UPAT0_PAT.w = 32 := (rfl)
@[simp] theorem PHY_LANE_UPAT1_PAT_w : PHY_LANE_UPAT1_PAT.w = 32 := (rfl)
@[simp] theorem PHY_LANE_BERR_ERRORS_w : PHY_LANE_BERR_ERRORS.w = 32 := (rfl)
@[simp] theorem PHY_LANE_BCNT_BITS_w : PHY_LANE_BCNT_BITS.w = 32 := (rfl)
@[simp] theorem PHY_LANE_MARGIN_GO_w : PHY_LANE_MARGIN_GO.w = 1 := (rfl)
@[simp] theorem PHY_LANE_MARGIN_EYE_w : PHY_LANE_MARGIN_EYE.w = 2 := (rfl)
@[simp] theorem PHY_LANE_MARGIN_DWELL_w : PHY_LANE_MARGIN_DWELL.w = 4 := (rfl)
@[simp] theorem PHY_LANE_MARGIN_TOFF_w : PHY_LANE_MARGIN_TOFF.w = 8 := (rfl)
@[simp] theorem PHY_LANE_MARGIN_VOFF_w : PHY_LANE_MARGIN_VOFF.w = 8 := (rfl)
@[simp] theorem PHY_LANE_MRES_DONE_w : PHY_LANE_MRES_DONE.w = 1 := (rfl)
@[simp] theorem PHY_LANE_MRES_REFUSED_w : PHY_LANE_MRES_REFUSED.w = 1 := (rfl)
@[simp] theorem PHY_LANE_MRES_ERRORS_w : PHY_LANE_MRES_ERRORS.w = 30 := (rfl)
@[simp] theorem PHY_ST_CTRL_REFSEL_w : PHY_ST_CTRL_REFSEL.w = 1 := (rfl)
@[simp] theorem PHY_ST_STAT_REF_PPM_w : PHY_ST_STAT_REF_PPM.w = 16 := (rfl)
@[simp] theorem PHY_ST_STAT_PLL_LOCK_w : PHY_ST_STAT_PLL_LOCK.w = 1 := (rfl)
@[simp] theorem PHY_ST_STAT_REF_OK_w : PHY_ST_STAT_REF_OK.w = 1 := (rfl)
@[simp] theorem LNK_CTRL_RETRAIN_w : LNK_CTRL_RETRAIN.w = 1 := (rfl)
@[simp] theorem LNK_CTRL_SELNAK_w : LNK_CTRL_SELNAK.w = 1 := (rfl)
@[simp] theorem LNK_CTRL_REPLAY_LIMIT_w : LNK_CTRL_REPLAY_LIMIT.w = 4 := (rfl)
@[simp] theorem LNK_STAT_STATE_w : LNK_STAT_STATE.w = 3 := (rfl)
@[simp] theorem LNK_STAT_RATE_w : LNK_STAT_RATE.w = 3 := (rfl)
@[simp] theorem LNK_STAT_WIDTH_w : LNK_STAT_WIDTH.w = 5 := (rfl)
@[simp] theorem LNK_STAT_FLIT_w : LNK_STAT_FLIT.w = 1 := (rfl)
@[simp] theorem LNK_STAT_SELNAK_P_w : LNK_STAT_SELNAK_P.w = 1 := (rfl)
@[simp] theorem LNK_STAT_RETRAIN_SPENT_w : LNK_STAT_RETRAIN_SPENT.w = 1 := (rfl)
@[simp] theorem LNK_STAT_REPLAY_NUM_w : LNK_STAT_REPLAY_NUM.w = 4 := (rfl)
@[simp] theorem LNK_SEQ_NEXT_TX_w : LNK_SEQ_NEXT_TX.w = 10 := (rfl)
@[simp] theorem LNK_SEQ_ACKD_w : LNK_SEQ_ACKD.w = 10 := (rfl)
@[simp] theorem LNK_SEQ_LAST_RX_w : LNK_SEQ_LAST_RX.w = 10 := (rfl)
@[simp] theorem LNK_REPLAY_CAP_w : LNK_REPLAY_CAP.w = 9 := (rfl)
@[simp] theorem LNK_REPLAY_OCC_w : LNK_REPLAY_OCC.w = 9 := (rfl)
@[simp] theorem LNK_TRUNK_PRIMARY_w : LNK_TRUNK_PRIMARY.w = 1 := (rfl)
@[simp] theorem LNK_TRUNK_PARTNER_w : LNK_TRUNK_PARTNER.w = 10 := (rfl)
@[simp] theorem LNK_TRUNK_FAILBACK_HOLD_w : LNK_TRUNK_FAILBACK_HOLD.w = 8 := (rfl)
@[simp] theorem LNK_TRUNK_LOCK_TMR_w : LNK_TRUNK_LOCK_TMR.w = 8 := (rfl)
@[simp] theorem LNK_PAIR_SPLIT_w : LNK_PAIR_SPLIT.w = 9 := (rfl)
@[simp] theorem LNK_TSTAT_PEER_ID_w : LNK_TSTAT_PEER_ID.w = 12 := (rfl)
@[simp] theorem LNK_TSTAT_CARRYING_w : LNK_TSTAT_CARRYING.w = 1 := (rfl)
@[simp] theorem LNK_TSTAT_BUCKETS_w : LNK_TSTAT_BUCKETS.w = 9 := (rfl)
@[simp] theorem LNK_WIDTH_GO_w : LNK_WIDTH_GO.w = 1 := (rfl)
@[simp] theorem LNK_WIDTH_WITHDRAWN_w : LNK_WIDTH_WITHDRAWN.w = 1 := (rfl)
@[simp] theorem LNK_WIDTH_DONE_w : LNK_WIDTH_DONE.w = 1 := (rfl)
@[simp] theorem LNK_WIDTH_REQ_w : LNK_WIDTH_REQ.w = 5 := (rfl)
@[simp] theorem LNK_CRED_ADV_w : LNK_CRED_ADV.w = 12 := (rfl)
@[simp] theorem LNK_CRED_AVAIL_w : LNK_CRED_AVAIL.w = 12 := (rfl)
@[simp] theorem LNK_MKCH_EN_w : LNK_MKCH_EN.w = 1 := (rfl)
@[simp] theorem LNK_MKCH_AGE_w : LNK_MKCH_AGE.w = 8 := (rfl)
@[simp] theorem LNK_MKCH_SHARE_w : LNK_MKCH_SHARE.w = 4 := (rfl)
@[simp] theorem PRT_CFG_EN_w : PRT_CFG_EN.w = 1 := (rfl)
@[simp] theorem PRT_CFG_PERS_w : PRT_CFG_PERS.w = 3 := (rfl)
@[simp] theorem PRT_CFG_WIDTH_w : PRT_CFG_WIDTH.w = 5 := (rfl)
@[simp] theorem PRT_CFG_X128_EN_w : PRT_CFG_X128_EN.w = 1 := (rfl)
@[simp] theorem PRT_CFG_MGR_w : PRT_CFG_MGR.w = 1 := (rfl)
@[simp] theorem PRT_CFG_IDE_REQ_w : PRT_CFG_IDE_REQ.w = 1 := (rfl)
@[simp] theorem PRT_STAT_CFG_STATUS_w : PRT_STAT_CFG_STATUS.w = 4 := (rfl)
@[simp] theorem PRT_STAT_TWIDTH_w : PRT_STAT_TWIDTH.w = 5 := (rfl)
@[simp] theorem PRT_STAT_X128_P_w : PRT_STAT_X128_P.w = 1 := (rfl)
@[simp] theorem PRT_STAT_IDE_ON_w : PRT_STAT_IDE_ON.w = 1 := (rfl)
@[simp] theorem PRT_SLOT_IN_BTN_w : PRT_SLOT_IN_BTN.w = 10 := (rfl)
@[simp] theorem PRT_SLOT_IN_PRSNT_w : PRT_SLOT_IN_PRSNT.w = 10 := (rfl)
@[simp] theorem PRT_SLOT_OUT_PERST_w : PRT_SLOT_OUT_PERST.w = 10 := (rfl)
@[simp] theorem PRT_SLOT_OUT_PWR_LED_w : PRT_SLOT_OUT_PWR_LED.w = 10 := (rfl)
@[simp] theorem PRT_SLOT_OUT_ATTN_LED_w : PRT_SLOT_OUT_ATTN_LED.w = 10 := (rfl)
@[simp] theorem PRT_SLOT_SLOTTED_w : PRT_SLOT_SLOTTED.w = 1 := (rfl)
@[simp] theorem PRT_SLOT_CHAN_w : PRT_SLOT_CHAN.w = 6 := (rfl)
@[simp] theorem PRT_SLOT_AUTO_w : PRT_SLOT_AUTO.w = 1 := (rfl)
@[simp] theorem PRT_SLOT_PWR_REQ_w : PRT_SLOT_PWR_REQ.w = 1 := (rfl)
@[simp] theorem PRT_SLOT_REMOVE_REQ_w : PRT_SLOT_REMOVE_REQ.w = 1 := (rfl)
@[simp] theorem PRT_SLOT_ATTN_w : PRT_SLOT_ATTN.w = 2 := (rfl)
@[simp] theorem PRT_SLOT_PWR_IND_w : PRT_SLOT_PWR_IND.w = 2 := (rfl)
@[simp] theorem PRT_SLOT_PRESENT_w : PRT_SLOT_PRESENT.w = 1 := (rfl)
@[simp] theorem PRT_SLOT_PG_w : PRT_SLOT_PG.w = 1 := (rfl)
@[simp] theorem PRT_SLOT_TPERST_w : PRT_SLOT_TPERST.w = 8 := (rfl)
@[simp] theorem PRT_DEV_PAN_w : PRT_DEV_PAN.w = 2 := (rfl)
@[simp] theorem PRT_DEV_ACTIVE_TMO_w : PRT_DEV_ACTIVE_TMO.w = 8 := (rfl)
@[simp] theorem PRT_DEV_SAME_w : PRT_DEV_SAME.w = 1 := (rfl)
@[simp] theorem PRT_DEV_CAPPED_w : PRT_DEV_CAPPED.w = 1 := (rfl)
@[simp] theorem PRT_DEV_CPL_TMO_w : PRT_DEV_CPL_TMO.w = 8 := (rfl)
@[simp] theorem PRT_DEV_RESULT_w : PRT_DEV_RESULT.w = 4 := (rfl)
@[simp] theorem PRT_DEV_CAP_TILES_w : PRT_DEV_CAP_TILES.w = 32 := (rfl)
@[simp] theorem XBR_CTRL_STALL_w : XBR_CTRL_STALL.w = 20 := (rfl)
@[simp] theorem XBR_DT_K3_w : XBR_DT_K3.w = 4 := (rfl)
@[simp] theorem XBR_DT_K2_w : XBR_DT_K2.w = 4 := (rfl)
@[simp] theorem XBR_DT_K1_w : XBR_DT_K1.w = 4 := (rfl)
@[simp] theorem XBR_DT_K0_w : XBR_DT_K0.w = 4 := (rfl)
@[simp] theorem XBR_ALLOT_INT_w : XBR_ALLOT_INT.w = 9 := (rfl)
@[simp] theorem XBR_ALLOT_LANE_w : XBR_ALLOT_LANE.w = 9 := (rfl)
@[simp] theorem XBR_SHARED_S_w : XBR_SHARED_S.w = 19 := (rfl)
@[simp] theorem XBR_USED_U_w : XBR_USED_U.w = 19 := (rfl)
@[simp] theorem XBR_MC_PKTS_w : XBR_MC_PKTS.w = 16 := (rfl)
@[simp] theorem XBR_PMODE_B0_FR_w : XBR_PMODE_B0_FR.w = 1 := (rfl)
@[simp] theorem XBR_PMODE_B0_CT_w : XBR_PMODE_B0_CT.w = 4 := (rfl)
@[simp] theorem XBR_PMODE_B1_FR_w : XBR_PMODE_B1_FR.w = 1 := (rfl)
@[simp] theorem XBR_PMODE_B1_CT_w : XBR_PMODE_B1_CT.w = 4 := (rfl)
@[simp] theorem XBR_PMODE_B2_FR_w : XBR_PMODE_B2_FR.w = 1 := (rfl)
@[simp] theorem XBR_PMODE_B2_CT_w : XBR_PMODE_B2_CT.w = 4 := (rfl)
@[simp] theorem XBR_PMODE_B3_FR_w : XBR_PMODE_B3_FR.w = 1 := (rfl)
@[simp] theorem XBR_PMODE_B3_CT_w : XBR_PMODE_B3_CT.w = 4 := (rfl)
@[simp] theorem XBR_GP_STALL_VALID_w : XBR_GP_STALL_VALID.w = 1 := (rfl)
@[simp] theorem XBR_GP_STALL_CLASS_w : XBR_GP_STALL_CLASS.w = 2 := (rfl)
@[simp] theorem XBR_GP_STALL_EGRESS_w : XBR_GP_STALL_EGRESS.w = 10 := (rfl)
@[simp] theorem XBR_GP_STALL_INGRESS_w : XBR_GP_STALL_INGRESS.w = 10 := (rfl)
@[simp] theorem XBR_GP_PTR_GRANT_w : XBR_GP_PTR_GRANT.w = 6 := (rfl)
@[simp] theorem XBR_GP_PTR_ACCEPT_w : XBR_GP_PTR_ACCEPT.w = 6 := (rfl)
@[simp] theorem XBR_GP_QSEL_CLASS_w : XBR_GP_QSEL_CLASS.w = 2 := (rfl)
@[simp] theorem XBR_GP_QSEL_POS_w : XBR_GP_QSEL_POS.w = 4 := (rfl)
@[simp] theorem XBR_GP_QLEN_HELD_w : XBR_GP_QLEN_HELD.w = 12 := (rfl)
@[simp] theorem XBR_GP_QLEN_SHARED_w : XBR_GP_QLEN_SHARED.w = 19 := (rfl)
@[simp] theorem XBR_GP_ALLOT_SIZE_w : XBR_GP_ALLOT_SIZE.w = 16 := (rfl)
@[simp] theorem XBR_GP_ALLOT_USED_w : XBR_GP_ALLOT_USED.w = 16 := (rfl)
@[simp] theorem BND_CTRL_COMMIT_WAIT_w : BND_CTRL_COMMIT_WAIT.w = 8 := (rfl)
@[simp] theorem BND_CTRL_VIEW_w : BND_CTRL_VIEW.w = 1 := (rfl)
@[simp] theorem BND_FSID_FSID_w : BND_FSID_FSID.w = 12 := (rfl)
@[simp] theorem BND_COMMIT_GO_w : BND_COMMIT_GO.w = 1 := (rfl)
@[simp] theorem BND_COMMIT_DISCARD_w : BND_COMMIT_DISCARD.w = 1 := (rfl)
@[simp] theorem BND_COMMIT_DIRTY_w : BND_COMMIT_DIRTY.w = 11 := (rfl)
@[simp] theorem BND_STATUS_CODE_w : BND_STATUS_CODE.w = 5 := (rfl)
@[simp] theorem BND_STATUS_DETAIL_w : BND_STATUS_DETAIL.w = 11 := (rfl)
@[simp] theorem BND_STATUS_WINDOW_w : BND_STATUS_WINDOW.w = 16 := (rfl)
@[simp] theorem BND_EPOCH_EPOCH_w : BND_EPOCH_EPOCH.w = 32 := (rfl)
@[simp] theorem BND_DRAIN_OLDEST_w : BND_DRAIN_OLDEST.w = 32 := (rfl)
@[simp] theorem BND_DRAIN_TGT_TGT_w : BND_DRAIN_TGT_TGT.w = 32 := (rfl)
@[simp] theorem BND_MISS_VALID_w : BND_MISS_VALID.w = 1 := (rfl)
@[simp] theorem BND_MISS_TYPE_w : BND_MISS_TYPE.w = 2 := (rfl)
@[simp] theorem BND_MISS_PORT_w : BND_MISS_PORT.w = 10 := (rfl)
@[simp] theorem BND_MISS_ADDR_LO_ADDR_w : BND_MISS_ADDR_LO_ADDR.w = 32 := (rfl)
@[simp] theorem BND_MISS_ADDR_HI_ADDR_w : BND_MISS_ADDR_HI_ADDR.w = 18 := (rfl)
@[simp] theorem BND_UE_WIN_VALID_w : BND_UE_WIN_VALID.w = 1 := (rfl)
@[simp] theorem BND_UE_WIN_WINDOW_w : BND_UE_WIN_WINDOW.w = 16 := (rfl)
@[simp] theorem MAP_CTRL_RUN_w : MAP_CTRL_RUN.w = 1 := (rfl)
@[simp] theorem MAP_CTRL_INIT_w : MAP_CTRL_INIT.w = 1 := (rfl)
@[simp] theorem MAP_CTRL_REBUILD_w : MAP_CTRL_REBUILD.w = 1 := (rfl)
@[simp] theorem MAP_CTRL_SCRUB_H_w : MAP_CTRL_SCRUB_H.w = 8 := (rfl)
@[simp] theorem MAP_CTRL_PLACE_WAIT_w : MAP_CTRL_PLACE_WAIT.w = 16 := (rfl)
@[simp] theorem MAP_CFG_POOL_U_w : MAP_CFG_POOL_U.w = 14 := (rfl)
@[simp] theorem MAP_COPY0_N_w : MAP_COPY0_N.w = 2 := (rfl)
@[simp] theorem MAP_COPY0_DEV1_w : MAP_COPY0_DEV1.w = 10 := (rfl)
@[simp] theorem MAP_COPY0_DEV0_w : MAP_COPY0_DEV0.w = 10 := (rfl)
@[simp] theorem MAP_COPY1_DEV3_w : MAP_COPY1_DEV3.w = 10 := (rfl)
@[simp] theorem MAP_COPY1_DEV2_w : MAP_COPY1_DEV2.w = 10 := (rfl)
@[simp] theorem MAP_STAT_RUNNING_w : MAP_STAT_RUNNING.w = 1 := (rfl)
@[simp] theorem MAP_STAT_RSTATUS_w : MAP_STAT_RSTATUS.w = 3 := (rfl)
@[simp] theorem MAP_STAT_SINGLE_w : MAP_STAT_SINGLE.w = 2 := (rfl)
@[simp] theorem MAP_STAT_SPLITS_w : MAP_STAT_SPLITS.w = 9 := (rfl)
@[simp] theorem MAP_STAT_OSCAN_w : MAP_STAT_OSCAN.w = 1 := (rfl)
@[simp] theorem MAP_STAT_ORPHANS_w : MAP_STAT_ORPHANS.w = 16 := (rfl)
@[simp] theorem MAP_ERR_TILE_VALID_w : MAP_ERR_TILE_VALID.w = 1 := (rfl)
@[simp] theorem MAP_ERR_TILE_TILE_w : MAP_ERR_TILE_TILE.w = 29 := (rfl)
@[simp] theorem MAP_RING_VALID_w : MAP_RING_VALID.w = 1 := (rfl)
@[simp] theorem MAP_RING_KIND_w : MAP_RING_KIND.w = 2 := (rfl)
@[simp] theorem MAP_RING_TILE_w : MAP_RING_TILE.w = 29 := (rfl)
@[simp] theorem MAP_RING_LOC_LOC_w : MAP_RING_LOC_LOC.w = 32 := (rfl)
@[simp] theorem MAP_CMD_GO_w : MAP_CMD_GO.w = 1 := (rfl)
@[simp] theorem MAP_CMD_OP_w : MAP_CMD_OP.w = 4 := (rfl)
@[simp] theorem MAP_CMD_REASON_w : MAP_CMD_REASON.w = 3 := (rfl)
@[simp] theorem MAP_CMD_MSLOT_w : MAP_CMD_MSLOT.w = 1 := (rfl)
@[simp] theorem MAP_CMD_TWIN_w : MAP_CMD_TWIN.w = 1 := (rfl)
@[simp] theorem MAP_CMD_STATUS_w : MAP_CMD_STATUS.w = 4 := (rfl)
@[simp] theorem MAP_CMD_TILE_TILE_w : MAP_CMD_TILE_TILE.w = 29 := (rfl)
@[simp] theorem MAP_CMD_A_LOC_w : MAP_CMD_A_LOC.w = 32 := (rfl)
@[simp] theorem MAP_CMD_B_LOC_w : MAP_CMD_B_LOC.w = 32 := (rfl)
@[simp] theorem MAP_CMD_E_WORD_w : MAP_CMD_E_WORD.w = 32 := (rfl)
@[simp] theorem PFX_CMD_GO_w : PFX_CMD_GO.w = 1 := (rfl)
@[simp] theorem PFX_CMD_OP_w : PFX_CMD_OP.w = 4 := (rfl)
@[simp] theorem PFX_CMD_REASON_w : PFX_CMD_REASON.w = 3 := (rfl)
@[simp] theorem PFX_CMD_MSLOT_w : PFX_CMD_MSLOT.w = 1 := (rfl)
@[simp] theorem PFX_CMD_TWIN_w : PFX_CMD_TWIN.w = 1 := (rfl)
@[simp] theorem PFX_CMD_STATUS_w : PFX_CMD_STATUS.w = 4 := (rfl)
@[simp] theorem PFX_CMD_TILE_TILE_w : PFX_CMD_TILE_TILE.w = 29 := (rfl)
@[simp] theorem PFX_CMD_A_LOC_w : PFX_CMD_A_LOC.w = 32 := (rfl)
@[simp] theorem PFX_CMD_B_LOC_w : PFX_CMD_B_LOC.w = 32 := (rfl)
@[simp] theorem PFX_CMD_E_WORD_w : PFX_CMD_E_WORD.w = 32 := (rfl)
@[simp] theorem MRK_CTRL_EN_w : MRK_CTRL_EN.w = 1 := (rfl)
@[simp] theorem MRK_CTRL_SWEEP_GBS_w : MRK_CTRL_SWEEP_GBS.w = 8 := (rfl)
@[simp] theorem MRK_CTRL_CONFIRM_w : MRK_CTRL_CONFIRM.w = 4 := (rfl)
@[simp] theorem MRK_CTRL_TERM_w : MRK_CTRL_TERM.w = 9 := (rfl)
@[simp] theorem MRK_TERMNO_N_w : MRK_TERMNO_N.w = 32 := (rfl)
@[simp] theorem MRK_SWEEP_T_T_w : MRK_SWEEP_T_T.w = 32 := (rfl)
@[simp] theorem MRK_BUDGET_MAXMOVES_w : MRK_BUDGET_MAXMOVES.w = 20 := (rfl)
@[simp] theorem MRK_UNBOUND_PANS_w : MRK_UNBOUND_PANS.w = 4 := (rfl)
@[simp] theorem MRK_PAN_CFG_EN_w : MRK_PAN_CFG_EN.w = 1 := (rfl)
@[simp] theorem MRK_PAN_CFG_WW_w : MRK_PAN_CFG_WW.w = 4 := (rfl)
@[simp] theorem MRK_PAN_CFG_PROMOTE_w : MRK_PAN_CFG_PROMOTE.w = 8 := (rfl)
@[simp] theorem MRK_PAN_CFG_DEMOTE_w : MRK_PAN_CFG_DEMOTE.w = 8 := (rfl)
@[simp] theorem MRK_PAN_FILL_FILL_HI_w : MRK_PAN_FILL_FILL_HI.w = 7 := (rfl)
@[simp] theorem MRK_PAN_FILL_FILL_LO_w : MRK_PAN_FILL_FILL_LO.w = 7 := (rfl)
@[simp] theorem MRK_PAN_CAP_TILES_w : MRK_PAN_CAP_TILES.w = 32 := (rfl)
@[simp] theorem MRK_PAN_USED_TILES_w : MRK_PAN_USED_TILES.w = 32 := (rfl)
@[simp] theorem MRK_HIST_SEL_PAN_w : MRK_HIST_SEL_PAN.w = 2 := (rfl)
@[simp] theorem MRK_HIST_SEL_BUCKET_w : MRK_HIST_SEL_BUCKET.w = 4 := (rfl)
@[simp] theorem MRK_HIST_COUNT_w : MRK_HIST_COUNT.w = 32 := (rfl)
@[simp] theorem MRK_CAND_UP_N_w : MRK_CAND_UP_N.w = 32 := (rfl)
@[simp] theorem MRK_CAND_DOWN_N_w : MRK_CAND_DOWN_N.w = 32 := (rfl)
@[simp] theorem MRK_CAND_DROP_N_w : MRK_CAND_DROP_N.w = 32 := (rfl)
@[simp] theorem RAK_CTRL_EN_w : RAK_CTRL_EN.w = 1 := (rfl)
@[simp] theorem RAK_CTRL_SRC_WAIT_w : RAK_CTRL_SRC_WAIT.w = 6 := (rfl)
@[simp] theorem RAK_CTRL_TEN_SLOTS_w : RAK_CTRL_TEN_SLOTS.w = 7 := (rfl)
@[simp] theorem RAK_CAP_TEN_PCT_w : RAK_CAP_TEN_PCT.w = 7 := (rfl)
@[simp] theorem RAK_CAP_GBS_w : RAK_CAP_GBS.w = 9 := (rfl)
@[simp] theorem RAK_STAT_BUSY_w : RAK_STAT_BUSY.w = 8 := (rfl)
@[simp] theorem RAK_STAT_TENJOBS_w : RAK_STAT_TENJOBS.w = 7 := (rfl)
@[simp] theorem RAK_STAT_PENDING_w : RAK_STAT_PENDING.w = 14 := (rfl)
@[simp] theorem RAK_ERR_VALID_w : RAK_ERR_VALID.w = 1 := (rfl)
@[simp] theorem RAK_ERR_CAUSE_w : RAK_ERR_CAUSE.w = 2 := (rfl)
@[simp] theorem RAK_ERR_TILE_w : RAK_ERR_TILE.w = 29 := (rfl)
@[simp] theorem RAK_SLOT_BUSY_w : RAK_SLOT_BUSY.w = 1 := (rfl)
@[simp] theorem RAK_SLOT_KIND_w : RAK_SLOT_KIND.w = 2 := (rfl)
@[simp] theorem RAK_SLOT_ID_w : RAK_SLOT_ID.w = 29 := (rfl)
@[simp] theorem RAK_SLOT_PROG_WAITSRC_w : RAK_SLOT_PROG_WAITSRC.w = 1 := (rfl)
@[simp] theorem RAK_SLOT_PROG_REASON_w : RAK_SLOT_PROG_REASON.w = 4 := (rfl)
@[simp] theorem RAK_SLOT_PROG_PROG_w : RAK_SLOT_PROG_PROG.w = 16 := (rfl)
@[simp] theorem CAR_CTRL_EN_w : CAR_CTRL_EN.w = 1 := (rfl)
@[simp] theorem CAR_CTRL_PASS_H_w : CAR_CTRL_PASS_H.w = 8 := (rfl)
@[simp] theorem CAR_CTRL_PASS_GBS_w : CAR_CTRL_PASS_GBS.w = 8 := (rfl)
@[simp] theorem CAR_CTRL_RECOVER_w : CAR_CTRL_RECOVER.w = 1 := (rfl)
@[simp] theorem CAR_TIMERS_LOST_WAIT_w : CAR_TIMERS_LOST_WAIT.w = 16 := (rfl)
@[simp] theorem CAR_TIMERS_EVAC_S_w : CAR_TIMERS_EVAC_S.w = 16 := (rfl)
@[simp] theorem CAR_TIMERS2_OFF_EQH_w : CAR_TIMERS2_OFF_EQH.w = 16 := (rfl)
@[simp] theorem CAR_TIMERS2_HEALTH_S_w : CAR_TIMERS2_HEALTH_S.w = 12 := (rfl)
@[simp] theorem CAR_MARGIN_H_w : CAR_MARGIN_H.w = 32 := (rfl)
@[simp] theorem CAR_MARGIN_TILE_VALID_w : CAR_MARGIN_TILE_VALID.w = 1 := (rfl)
@[simp] theorem CAR_MARGIN_TILE_TILE_w : CAR_MARGIN_TILE_TILE.w = 29 := (rfl)
@[simp] theorem CAR_PASSNO_N_w : CAR_PASSNO_N.w = 32 := (rfl)
@[simp] theorem CAR_PASS_T_T_w : CAR_PASS_T_T.w = 32 := (rfl)
@[simp] theorem CAR_RING_VALID_w : CAR_RING_VALID.w = 1 := (rfl)
@[simp] theorem CAR_RING_KIND_w : CAR_RING_KIND.w = 3 := (rfl)
@[simp] theorem CAR_RING_SLOT_w : CAR_RING_SLOT.w = 1 := (rfl)
@[simp] theorem CAR_RING_PORT_w : CAR_RING_PORT.w = 10 := (rfl)
@[simp] theorem CAR_RING_TILE_TILE_w : CAR_RING_TILE_TILE.w = 29 := (rfl)
@[simp] theorem CAR_EXP_TILE_VALID_w : CAR_EXP_TILE_VALID.w = 1 := (rfl)
@[simp] theorem CAR_EXP_TILE_TILE_w : CAR_EXP_TILE_TILE.w = 29 := (rfl)
@[simp] theorem CAR_DEV_CFG_EN_w : CAR_DEV_CFG_EN.w = 1 := (rfl)
@[simp] theorem CAR_DEV_CFG_CLASS_w : CAR_DEV_CFG_CLASS.w = 2 := (rfl)
@[simp] theorem CAR_DEV_CFG_CSTAT_w : CAR_DEV_CFG_CSTAT.w = 4 := (rfl)
@[simp] theorem CAR_DEV_CFG_PORT_w : CAR_DEV_CFG_PORT.w = 10 := (rfl)
@[simp] theorem CAR_DEV_MEDIA_RET_H_w : CAR_DEV_MEDIA_RET_H.w = 16 := (rfl)
@[simp] theorem CAR_DEV_MEDIA_TREF_w : CAR_DEV_MEDIA_TREF.w = 8 := (rfl)
@[simp] theorem CAR_DEV_MEDIA_HALVE_w : CAR_DEV_MEDIA_HALVE.w = 6 := (rfl)
@[simp] theorem CAR_DEV_THR_TDEF_w : CAR_DEV_THR_TDEF.w = 8 := (rfl)
@[simp] theorem CAR_DEV_THR_REWET_PCT_w : CAR_DEV_THR_REWET_PCT.w = 8 := (rfl)
@[simp] theorem CAR_DEV_THR_SPARE_PCT_w : CAR_DEV_THR_SPARE_PCT.w = 8 := (rfl)
@[simp] theorem CAR_DEV_THR_RETMAX_PCT_w : CAR_DEV_THR_RETMAX_PCT.w = 8 := (rfl)
@[simp] theorem CAR_DEV_WEAR_ENDUR_w : CAR_DEV_WEAR_ENDUR.w = 8 := (rfl)
@[simp] theorem CAR_DEV_WEAR_WL_GAP_w : CAR_DEV_WEAR_WL_GAP.w = 8 := (rfl)
@[simp] theorem CAR_DEV_WEAR_RETIRE_PCT_w : CAR_DEV_WEAR_RETIRE_PCT.w = 8 := (rfl)
@[simp] theorem CAR_DEV_WEAR_DEF_MAX_w : CAR_DEV_WEAR_DEF_MAX.w = 4 := (rfl)
@[simp] theorem CAR_DEV_STAT_STATE_w : CAR_DEV_STAT_STATE.w = 3 := (rfl)
@[simp] theorem CAR_DEV_STAT_HOLD_w : CAR_DEV_STAT_HOLD.w = 1 := (rfl)
@[simp] theorem CAR_DEV_STAT_MAINT_w : CAR_DEV_STAT_MAINT.w = 1 := (rfl)
@[simp] theorem CAR_DEV_STAT_DEGRADED_w : CAR_DEV_STAT_DEGRADED.w = 1 := (rfl)
@[simp] theorem CAR_DEV_STAT_REPLACE_w : CAR_DEV_STAT_REPLACE.w = 1 := (rfl)
@[simp] theorem CAR_DEV_STAT_LIFE_w : CAR_DEV_STAT_LIFE.w = 7 := (rfl)
@[simp] theorem CAR_DEV_STAT_TWSTALE_w : CAR_DEV_STAT_TWSTALE.w = 1 := (rfl)
@[simp] theorem CAR_DEV_STAT_TVALID_w : CAR_DEV_STAT_TVALID.w = 1 := (rfl)
@[simp] theorem CAR_DEV_STAT_TEMP_w : CAR_DEV_STAT_TEMP.w = 10 := (rfl)
@[simp] theorem CAR_DEV_AGE_AGE_w : CAR_DEV_AGE_AGE.w = 32 := (rfl)
@[simp] theorem CAR_DEV_REGION_C_w : CAR_DEV_REGION_C.w = 16 := (rfl)
@[simp] theorem CAR_DEV_RETIRED_N_w : CAR_DEV_RETIRED_N.w = 32 := (rfl)
@[simp] theorem CAR_DEV_WMEAN_MEAN_w : CAR_DEV_WMEAN_MEAN.w = 32 := (rfl)
@[simp] theorem CAR_DEV_EVAC_ABORT_w : CAR_DEV_EVAC_ABORT.w = 1 := (rfl)
@[simp] theorem CAR_DEV_EVAC_CODE_w : CAR_DEV_EVAC_CODE.w = 3 := (rfl)
@[simp] theorem CAR_DEV_EVAC_STATUS_w : CAR_DEV_EVAC_STATUS.w = 4 := (rfl)
@[simp] theorem CAR_DEV_EVAC_LEFT_LEFT_w : CAR_DEV_EVAC_LEFT_LEFT.w = 32 := (rfl)
@[simp] theorem ROL_CTRL_SNP_TMO_w : ROL_CTRL_SNP_TMO.w = 16 := (rfl)
@[simp] theorem ROL_STAT_SCRUB_w : ROL_STAT_SCRUB.w = 1 := (rfl)
@[simp] theorem ROL_STAT_GONE_N_w : ROL_STAT_GONE_N.w = 9 := (rfl)
@[simp] theorem ROL_GONE_GONE_w : ROL_GONE_GONE.w = 32 := (rfl)
@[simp] theorem ROL_PARK_USED_w : ROL_PARK_USED.w = 20 := (rfl)
@[simp] theorem ROL_PARK_HW_CLR_w : ROL_PARK_HW_CLR.w = 1 := (rfl)
@[simp] theorem ROL_PARK_HW_HW_w : ROL_PARK_HW_HW.w = 20 := (rfl)
@[simp] theorem ROL_ERR_VALID_w : ROL_ERR_VALID.w = 1 := (rfl)
@[simp] theorem ROL_ERR_CAUSE_w : ROL_ERR_CAUSE.w = 3 := (rfl)
@[simp] theorem ROL_ERR_HOST_w : ROL_ERR_HOST.w = 8 := (rfl)
@[simp] theorem ROL_ERR_LINE_LO_LINE_w : ROL_ERR_LINE_LO_LINE.w = 32 := (rfl)
@[simp] theorem ROL_ERR_LINE_HI_LINE_w : ROL_ERR_LINE_HI_LINE.w = 12 := (rfl)
@[simp] theorem ROL_PROBE_GO_w : ROL_PROBE_GO.w = 1 := (rfl)
@[simp] theorem ROL_PROBE_HIT_w : ROL_PROBE_HIT.w = 1 := (rfl)
@[simp] theorem ROL_PROBE_LOCKED_w : ROL_PROBE_LOCKED.w = 1 := (rfl)
@[simp] theorem ROL_PROBE_LINE_HI_w : ROL_PROBE_LINE_HI.w = 12 := (rfl)
@[simp] theorem ROL_PROBE_LO_LINE_LO_w : ROL_PROBE_LO_LINE_LO.w = 32 := (rfl)
@[simp] theorem ROL_PROBE_E0_ENTRY_w : ROL_PROBE_E0_ENTRY.w = 32 := (rfl)
@[simp] theorem ROL_PROBE_E1_ENTRY_w : ROL_PROBE_E1_ENTRY.w = 32 := (rfl)
@[simp] theorem ROL_SL_STAT_TRK_w : ROL_SL_STAT_TRK.w = 11 := (rfl)
@[simp] theorem ROL_SL_STAT_WAIT_w : ROL_SL_STAT_WAIT.w = 16 := (rfl)
@[simp] theorem ROL_SL_VALID_N_w : ROL_SL_VALID_N.w = 18 := (rfl)
@[simp] theorem ROL_SL_COARSE_N_w : ROL_SL_COARSE_N.w = 18 := (rfl)
@[simp] theorem SLT_CTRL_AGE_w : SLT_CTRL_AGE.w = 10 := (rfl)
@[simp] theorem SLT_WAT_HIWAT_w : SLT_WAT_HIWAT.w = 11 := (rfl)
@[simp] theorem SLT_WAT_LOWAT_w : SLT_WAT_LOWAT.w = 11 := (rfl)
@[simp] theorem SLT_STAT_DRAINALL_w : SLT_STAT_DRAINALL.w = 1 := (rfl)
@[simp] theorem SLT_STAT_OCC_w : SLT_STAT_OCC.w = 11 := (rfl)
@[simp] theorem SLT_STAT_INFLIGHT_w : SLT_STAT_INFLIGHT.w = 11 := (rfl)
@[simp] theorem SLT_DRAIN_GO_w : SLT_DRAIN_GO.w = 1 := (rfl)
@[simp] theorem SLT_OCC_HW_CLR_w : SLT_OCC_HW_CLR.w = 1 := (rfl)
@[simp] theorem SLT_OCC_HW_HW_w : SLT_OCC_HW_HW.w = 11 := (rfl)
@[simp] theorem SLT_ERR_VALID_w : SLT_ERR_VALID.w = 1 := (rfl)
@[simp] theorem SLT_ERR_CAUSE_w : SLT_ERR_CAUSE.w = 3 := (rfl)
@[simp] theorem SLT_ERR_TEN_w : SLT_ERR_TEN.w = 12 := (rfl)
@[simp] theorem SLT_ERR_LINE_LO_LINE_w : SLT_ERR_LINE_LO_LINE.w = 32 := (rfl)
@[simp] theorem SLT_ERR_LINE_HI_LINE_w : SLT_ERR_LINE_HI_LINE.w = 12 := (rfl)
@[simp] theorem SLT_LOSTTAB_USED_w : SLT_LOSTTAB_USED.w = 19 := (rfl)
@[simp] theorem TEN_CFG_SELFRST_w : TEN_CFG_SELFRST.w = 1 := (rfl)
@[simp] theorem TEN_CFG_PORT_w : TEN_CFG_PORT.w = 10 := (rfl)
@[simp] theorem TEN_PASID_LO_PASID_w : TEN_PASID_LO_PASID.w = 20 := (rfl)
@[simp] theorem TEN_PASID_HI_PASID_w : TEN_PASID_HI_PASID.w = 20 := (rfl)
@[simp] theorem TEN_STAT_STATE_w : TEN_STAT_STATE.w = 3 := (rfl)
@[simp] theorem TEN_STAT_JOBPAUSED_w : TEN_STAT_JOBPAUSED.w = 1 := (rfl)
@[simp] theorem TEN_STAT_LOSTPEND_w : TEN_STAT_LOSTPEND.w = 1 := (rfl)
@[simp] theorem TEN_STAT_GEN_w : TEN_STAT_GEN.w = 16 := (rfl)
@[simp] theorem TEN_CMD_GO_w : TEN_CMD_GO.w = 1 := (rfl)
@[simp] theorem TEN_CMD_OP_w : TEN_CMD_OP.w = 3 := (rfl)
@[simp] theorem TEN_CMD_STATUS_w : TEN_CMD_STATUS.w = 4 := (rfl)
@[simp] theorem TEN_BELL_LIMIT_LIMIT_w : TEN_BELL_LIMIT_LIMIT.w = 14 := (rfl)
@[simp] theorem TEN_DRAIN_LIMIT_w : TEN_DRAIN_LIMIT.w = 14 := (rfl)
@[simp] theorem TEN_ABASE_LO_ABASE_w : TEN_ABASE_LO_ABASE.w = 20 := (rfl)
@[simp] theorem TEN_ABASE_HI_ABASE_w : TEN_ABASE_HI_ABASE.w = 18 := (rfl)
@[simp] theorem TEN_LOSS_CNT_OVF_w : TEN_LOSS_CNT_OVF.w = 24 := (rfl)
@[simp] theorem TEN_LOSS_CNT_N_w : TEN_LOSS_CNT_N.w = 7 := (rfl)
@[simp] theorem TEN_LOSS_CLR_OVFCLR_w : TEN_LOSS_CLR_OVFCLR.w = 1 := (rfl)
@[simp] theorem TEN_LOSS_CLR_N_w : TEN_LOSS_CLR_N.w = 7 := (rfl)
@[simp] theorem SHP_PRATE_EN_w : SHP_PRATE_EN.w = 1 := (rfl)
@[simp] theorem SHP_PRATE_RATE_w : SHP_PRATE_RATE.w = 24 := (rfl)
@[simp] theorem SHP_PBURST_BURST_w : SHP_PBURST_BURST.w = 20 := (rfl)
@[simp] theorem SHP_PTOK_TOK_w : SHP_PTOK_TOK.w = 32 := (rfl)
@[simp] theorem SHP_SRATE_EN_w : SHP_SRATE_EN.w = 1 := (rfl)
@[simp] theorem SHP_SRATE_RATE_w : SHP_SRATE_RATE.w = 24 := (rfl)
@[simp] theorem SHP_SBURST_QMAX_w : SHP_SBURST_QMAX.w = 11 := (rfl)
@[simp] theorem SHP_SBURST_BURST_w : SHP_SBURST_BURST.w = 20 := (rfl)
@[simp] theorem SHP_STOK_TOK_w : SHP_STOK_TOK.w = 32 := (rfl)
@[simp] theorem SHP_SQ_QREFUSED_w : SHP_SQ_QREFUSED.w = 1 := (rfl)
@[simp] theorem SHP_SQ_QUEUED_w : SHP_SQ_QUEUED.w = 11 := (rfl)
@[simp] theorem SHP_WEIGHT_W_w : SHP_WEIGHT_W.w = 8 := (rfl)
@[simp] theorem SHP_PORT_EN_w : SHP_PORT_EN.w = 1 := (rfl)
@[simp] theorem SHP_PORT_SYSW_w : SHP_PORT_SYSW.w = 8 := (rfl)
@[simp] theorem SHP_PORT_Q_QSUM_w : SHP_PORT_Q_QSUM.w = 11 := (rfl)
@[simp] theorem SHP_PORT_Q_USED_w : SHP_PORT_Q_USED.w = 11 := (rfl)
@[simp] theorem FLT_CTRL_FE_ACT_w : FLT_CTRL_FE_ACT.w = 2 := (rfl)
@[simp] theorem FLT_CTRL_FE_DELAY_w : FLT_CTRL_FE_DELAY.w = 8 := (rfl)
@[simp] theorem FLT_ERRN_FORCE_w : FLT_ERRN_FORCE.w = 1 := (rfl)
@[simp] theorem FLT_ERRN_MODE_w : FLT_ERRN_MODE.w = 1 := (rfl)
@[simp] theorem FLT_ERRN_LOW_w : FLT_ERRN_LOW.w = 1 := (rfl)
@[simp] theorem FLT_ERRN_SEV_FE_w : FLT_ERRN_SEV_FE.w = 1 := (rfl)
@[simp] theorem FLT_ERRN_SEV_UC_w : FLT_ERRN_SEV_UC.w = 1 := (rfl)
@[simp] theorem FLT_ERRN_SEV_CE_w : FLT_ERRN_SEV_CE.w = 1 := (rfl)
@[simp] theorem FLT_ERRN_PULSE_w : FLT_ERRN_PULSE.w = 8 := (rfl)
@[simp] theorem FLT_PEND_SEV_w : FLT_PEND_SEV.w = 3 := (rfl)
@[simp] theorem FLT_IRQ_EN_SEV_w : FLT_IRQ_EN_SEV.w = 3 := (rfl)
@[simp] theorem FLT_CLR_SEQ_w : FLT_CLR_SEQ.w = 16 := (rfl)
@[simp] theorem FLT_CNTCE_N_w : FLT_CNTCE_N.w = 32 := (rfl)
@[simp] theorem FLT_CNTUC_N_w : FLT_CNTUC_N.w = 32 := (rfl)
@[simp] theorem FLT_CNTFE_N_w : FLT_CNTFE_N.w = 32 := (rfl)
@[simp] theorem FLT_LOG_STAT_NEWEST_w : FLT_LOG_STAT_NEWEST.w = 16 := (rfl)
@[simp] theorem FLT_LOG_STAT_OLDEST_w : FLT_LOG_STAT_OLDEST.w = 16 := (rfl)
@[simp] theorem FLT_LOG_LOST_N_w : FLT_LOG_LOST_N.w = 32 := (rfl)
@[simp] theorem FLT_LOG_SEL_HIT_w : FLT_LOG_SEL_HIT.w = 1 := (rfl)
@[simp] theorem FLT_LOG_SEL_SEQ_w : FLT_LOG_SEL_SEQ.w = 16 := (rfl)
@[simp] theorem FLT_LINK_STAT_VALID_w : FLT_LINK_STAT_VALID.w = 1 := (rfl)
@[simp] theorem FLT_LINK_STAT_BLOCK_w : FLT_LINK_STAT_BLOCK.w = 5 := (rfl)
@[simp] theorem FLT_LINK_STAT_INST_w : FLT_LINK_STAT_INST.w = 13 := (rfl)
@[simp] theorem FLT_LINK_STAT_N_w : FLT_LINK_STAT_N.w = 13 := (rfl)
@[simp] theorem FLT_FIRST_WORD_w : FLT_FIRST_WORD.w = 32 := (rfl)
@[simp] theorem FLT_NEXT_WORD_w : FLT_NEXT_WORD.w = 32 := (rfl)
@[simp] theorem FLT_LOG_E_WORD_w : FLT_LOG_E_WORD.w = 32 := (rfl)
@[simp] theorem SLP_CFG_EN_w : SLP_CFG_EN.w = 1 := (rfl)
@[simp] theorem SLP_CFG_RETRIES_w : SLP_CFG_RETRIES.w = 3 := (rfl)
@[simp] theorem SLP_CFG_GOV_w : SLP_CFG_GOV.w = 4 := (rfl)
@[simp] theorem SLP_CFG_VLIM_w : SLP_CFG_VLIM.w = 7 := (rfl)
@[simp] theorem SLP_CFG_RAMP_w : SLP_CFG_RAMP.w = 8 := (rfl)
@[simp] theorem SLP_CFG_RAMPTO_w : SLP_CFG_RAMPTO.w = 8 := (rfl)
@[simp] theorem SLP_TIM_TFLT_w : SLP_TIM_TFLT.w = 8 := (rfl)
@[simp] theorem SLP_TIM_COOL_w : SLP_TIM_COOL.w = 7 := (rfl)
@[simp] theorem SLP_TIM_TPGQ_w : SLP_TIM_TPGQ.w = 8 := (rfl)
@[simp] theorem SLP_PRES_TINS_w : SLP_PRES_TINS.w = 8 := (rfl)
@[simp] theorem SLP_PRES_TREM_w : SLP_PRES_TREM.w = 8 := (rfl)
@[simp] theorem SLP_PRES_PBIT_w : SLP_PRES_PBIT.w = 10 := (rfl)
@[simp] theorem SLP_RAIL_VWARN_w : SLP_RAIL_VWARN.w = 9 := (rfl)
@[simp] theorem SLP_RAIL_VHYS_w : SLP_RAIL_VHYS.w = 7 := (rfl)
@[simp] theorem SLP_CTRL_REQ_w : SLP_CTRL_REQ.w = 1 := (rfl)
@[simp] theorem SLP_STAT_STATE_w : SLP_STAT_STATE.w = 3 := (rfl)
@[simp] theorem SLP_STAT_PG_w : SLP_STAT_PG.w = 1 := (rfl)
@[simp] theorem SLP_STAT_PRESENT_w : SLP_STAT_PRESENT.w = 1 := (rfl)
@[simp] theorem SLP_STAT_RAW_w : SLP_STAT_RAW.w = 1 := (rfl)
@[simp] theorem SLP_STAT_LIMIT_w : SLP_STAT_LIMIT.w = 1 := (rfl)
@[simp] theorem SLP_STAT_GATEFULL_w : SLP_STAT_GATEFULL.w = 1 := (rfl)
@[simp] theorem SLP_STAT_HVOK_w : SLP_STAT_HVOK.w = 1 := (rfl)
@[simp] theorem SLP_STAT_RETRY_w : SLP_STAT_RETRY.w = 3 := (rfl)
@[simp] theorem SLP_STAT_CAUSE_w : SLP_STAT_CAUSE.w = 3 := (rfl)
@[simp] theorem SLP_STAT_MAPPED_w : SLP_STAT_MAPPED.w = 1 := (rfl)
@[simp] theorem SLP_STAT_PORT_w : SLP_STAT_PORT.w = 10 := (rfl)
@[simp] theorem SLP_SENSE_ISNS_w : SLP_SENSE_ISNS.w = 16 := (rfl)
@[simp] theorem SLP_SENSE_SRAIL_w : SLP_SENSE_SRAIL.w = 16 := (rfl)
@[simp] theorem SLP_GATE_VGS_w : SLP_GATE_VGS.w = 16 := (rfl)
@[simp] theorem SLP_COOL_LEFT_MS_w : SLP_COOL_LEFT_MS.w = 14 := (rfl)
@[simp] theorem SLP_TRIP_T_LO_TIME_w : SLP_TRIP_T_LO_TIME.w = 32 := (rfl)
@[simp] theorem SLP_TRIP_T_HI_TIME_w : SLP_TRIP_T_HI_TIME.w = 32 := (rfl)
@[simp] theorem SLP_PEAK_CLR_w : SLP_PEAK_CLR.w = 1 := (rfl)
@[simp] theorem SLP_PEAK_PEAK_w : SLP_PEAK_PEAK.w = 16 := (rfl)
@[simp] theorem SLP_SHELF_MAXRAMP_w : SLP_SHELF_MAXRAMP.w = 7 := (rfl)
@[simp] theorem SLP_SHELF_GAP_w : SLP_SHELF_GAP.w = 8 := (rfl)
@[simp] theorem SLP_SHELF_STAT_WAITING_w : SLP_SHELF_STAT_WAITING.w = 7 := (rfl)
@[simp] theorem SLP_SHELF_STAT_RAMPING_w : SLP_SHELF_STAT_RAMPING.w = 7 := (rfl)
@[simp] theorem MGT_SWI_ID_w : MGT_SWI_ID.w = 12 := (rfl)
@[simp] theorem MGT_SUM_SEL_ID_w : MGT_SUM_SEL_ID.w = 12 := (rfl)
@[simp] theorem MGT_SUM_LO_SUM_w : MGT_SUM_LO_SUM.w = 32 := (rfl)
@[simp] theorem MGT_SUM_HI_SUM_w : MGT_SUM_HI_SUM.w = 32 := (rfl)
@[simp] theorem MGT_PEND_PEND_w : MGT_PEND_PEND.w = 32 := (rfl)
@[simp] theorem MGT_ACT_ACT_w : MGT_ACT_ACT.w = 32 := (rfl)
@[simp] theorem MGT_CORE_CTRL_RST_w : MGT_CORE_CTRL_RST.w = 1 := (rfl)
@[simp] theorem MGT_CORE_CTRL_WDT_w : MGT_CORE_CTRL_WDT.w = 16 := (rfl)
@[simp] theorem MGT_CORE_KICK_KICK_w : MGT_CORE_KICK_KICK.w = 32 := (rfl)
@[simp] theorem MGT_CORE_STAT_STATE_w : MGT_CORE_STAT_STATE.w = 2 := (rfl)
@[simp] theorem MGT_CORE_STAT_NOTIFY_w : MGT_CORE_STAT_NOTIFY.w = 1 := (rfl)
@[simp] theorem MGT_CORE_STAT_WAKE_w : MGT_CORE_STAT_WAKE.w = 1 := (rfl)
@[simp] theorem MGT_CORE_STAT_HELD_w : MGT_CORE_STAT_HELD.w = 12 := (rfl)
@[simp] theorem MGT_CORE_STAT_RESTARTS_w : MGT_CORE_STAT_RESTARTS.w = 16 := (rfl)
@[simp] theorem MGT_THRESH_T_w : MGT_THRESH_T.w = 3 := (rfl)
@[simp] theorem MGT_CLAIM_ID_w : MGT_CLAIM_ID.w = 12 := (rfl)
@[simp] theorem MGT_COMP_ID_w : MGT_COMP_ID.w = 12 := (rfl)
@[simp] theorem MGT_SPUR_N_w : MGT_SPUR_N.w = 32 := (rfl)
@[simp] theorem MGT_ID_B0_PRIO_w : MGT_ID_B0_PRIO.w = 3 := (rfl)
@[simp] theorem MGT_ID_B0_MASK_w : MGT_ID_B0_MASK.w = 4 := (rfl)
@[simp] theorem MGT_ID_B1_PRIO_w : MGT_ID_B1_PRIO.w = 3 := (rfl)
@[simp] theorem MGT_ID_B1_MASK_w : MGT_ID_B1_MASK.w = 4 := (rfl)
@[simp] theorem MGT_ID_B2_PRIO_w : MGT_ID_B2_PRIO.w = 3 := (rfl)
@[simp] theorem MGT_ID_B2_MASK_w : MGT_ID_B2_MASK.w = 4 := (rfl)
@[simp] theorem MGT_ID_B3_PRIO_w : MGT_ID_B3_PRIO.w = 3 := (rfl)
@[simp] theorem MGT_ID_B3_MASK_w : MGT_ID_B3_MASK.w = 4 := (rfl)
@[simp] theorem BRG_CTRL_FETCH_TMO_w : BRG_CTRL_FETCH_TMO.w = 8 := (rfl)
@[simp] theorem BRG_EID_EID_w : BRG_EID_EID.w = 8 := (rfl)
@[simp] theorem BRG_ALERT_CFG_SEV_w : BRG_ALERT_CFG_SEV.w = 3 := (rfl)
@[simp] theorem BRG_ALERT_CFG_PIN_w : BRG_ALERT_CFG_PIN.w = 1 := (rfl)
@[simp] theorem BRG_ALERT_CFG_IBI_w : BRG_ALERT_CFG_IBI.w = 2 := (rfl)
@[simp] theorem BRG_EVQ_LOST_w : BRG_EVQ_LOST.w = 16 := (rfl)
@[simp] theorem BRG_EVQ_USED_w : BRG_EVQ_USED.w = 6 := (rfl)
@[simp] theorem BRG_WRANGE_EN_w : BRG_WRANGE_EN.w = 1 := (rfl)
@[simp] theorem BRG_WRANGE_POSTED_w : BRG_WRANGE_POSTED.w = 1 := (rfl)
@[simp] theorem BRG_WRANGE_BASE_w : BRG_WRANGE_BASE.w = 15 := (rfl)
@[simp] theorem BRG_WRLIM_LIMIT_w : BRG_WRLIM_LIMIT.w = 15 := (rfl)
@[simp] theorem BRG_PORT_CFG_SMB_ONLY_w : BRG_PORT_CFG_SMB_ONLY.w = 1 := (rfl)
@[simp] theorem BRG_PORT_CFG_EN_w : BRG_PORT_CFG_EN.w = 1 := (rfl)
@[simp] theorem BRG_PORT_STAT_I3C_w : BRG_PORT_STAT_I3C.w = 1 := (rfl)
@[simp] theorem BRG_PORT_STAT_DADDR_w : BRG_PORT_STAT_DADDR.w = 7 := (rfl)
@[simp] theorem BRG_PORT_STAT_SADDR_w : BRG_PORT_STAT_SADDR.w = 7 := (rfl)
@[simp] theorem BRG_PORT_PID0_PID_w : BRG_PORT_PID0_PID.w = 32 := (rfl)
@[simp] theorem BRG_PORT_PID1_PID_w : BRG_PORT_PID1_PID.w = 16 := (rfl)
@[simp] theorem BRG_PORT_REQ_DISC_w : BRG_PORT_REQ_DISC.w = 16 := (rfl)
@[simp] theorem BRG_PORT_REQ_PWQ_w : BRG_PORT_REQ_PWQ.w = 5 := (rfl)
@[simp] theorem BRG_PORT_PWERR_VALID_w : BRG_PORT_PWERR_VALID.w = 1 := (rfl)
@[simp] theorem BRG_PORT_PWERR_ADDR_w : BRG_PORT_PWERR_ADDR.w = 27 := (rfl)
@[simp] theorem BRG_SBC_CFG_LEN_w : BRG_SBC_CFG_LEN.w = 8 := (rfl)
@[simp] theorem BRG_SBC_CFG_FREQ_w : BRG_SBC_CFG_FREQ.w = 5 := (rfl)
@[simp] theorem BRG_SBC_CFG_POLL_w : BRG_SBC_CFG_POLL.w = 10 := (rfl)
@[simp] theorem BRG_SBC_STAT_BROKEN_w : BRG_SBC_STAT_BROKEN.w = 1 := (rfl)
@[simp] theorem BRG_SBC_STAT_LATE_w : BRG_SBC_STAT_LATE.w = 15 := (rfl)
@[simp] theorem BRG_SBC_STAT_BAD_w : BRG_SBC_STAT_BAD.w = 16 := (rfl)
@[simp] theorem BRG_SBC_IN_IN_w : BRG_SBC_IN_IN.w = 32 := (rfl)
@[simp] theorem BRG_SBC_OUT_OUT_w : BRG_SBC_OUT_OUT.w = 32 := (rfl)
@[simp] theorem BRG_SBC_CHG_CHG_w : BRG_SBC_CHG_CHG.w = 32 := (rfl)
@[simp] theorem BRG_SENS_CTRL_PERIOD_w : BRG_SENS_CTRL_PERIOD.w = 8 := (rfl)
@[simp] theorem BRG_SENS_SEL_ENTRY_w : BRG_SENS_SEL_ENTRY.w = 8 := (rfl)
@[simp] theorem BRG_SENS_E_WORD_w : BRG_SENS_E_WORD.w = 32 := (rfl)
@[simp] theorem BRG_SENS_VAL_READING_w : BRG_SENS_VAL_READING.w = 32 := (rfl)
@[simp] theorem SEC_STAT_MGT_SLOT_w : SEC_STAT_MGT_SLOT.w = 1 := (rfl)
@[simp] theorem SEC_STAT_PFX_SLOT_w : SEC_STAT_PFX_SLOT.w = 1 := (rfl)
@[simp] theorem SEC_STAT_MGT_OK_w : SEC_STAT_MGT_OK.w = 1 := (rfl)
@[simp] theorem SEC_STAT_PFX_OK_w : SEC_STAT_PFX_OK.w = 1 := (rfl)
@[simp] theorem SEC_STAT_PFXLOAD_w : SEC_STAT_PFXLOAD.w = 1 := (rfl)
@[simp] theorem SEC_STAT_FAILED_w : SEC_STAT_FAILED.w = 2 := (rfl)
@[simp] theorem SEC_SVN_PFX_MIN_w : SEC_SVN_PFX_MIN.w = 7 := (rfl)
@[simp] theorem SEC_SVN_MGT_MIN_w : SEC_SVN_MGT_MIN.w = 7 := (rfl)
@[simp] theorem SEC_KEYREV_REV_w : SEC_KEYREV_REV.w = 4 := (rfl)
@[simp] theorem SEC_UPD_CTRL_GO_w : SEC_UPD_CTRL_GO.w = 1 := (rfl)
@[simp] theorem SEC_UPD_CTRL_OP_w : SEC_UPD_CTRL_OP.w = 3 := (rfl)
@[simp] theorem SEC_UPD_CTRL_TYPE_w : SEC_UPD_CTRL_TYPE.w = 1 := (rfl)
@[simp] theorem SEC_UPD_CTRL_STATUS_w : SEC_UPD_CTRL_STATUS.w = 4 := (rfl)
@[simp] theorem SEC_UPD_DATA_WORD_w : SEC_UPD_DATA_WORD.w = 32 := (rfl)
@[simp] theorem SEC_UPD_LEN_BYTES_w : SEC_UPD_LEN_BYTES.w = 32 := (rfl)
@[simp] theorem SEC_CLOSE_MGR_BLOCKS_w : SEC_CLOSE_MGR_BLOCKS.w = 23 := (rfl)
@[simp] theorem SEC_CLOSE_BRG_BLOCKS_w : SEC_CLOSE_BRG_BLOCKS.w = 23 := (rfl)
@[simp] theorem SEC_SEAL_BRG_w : SEC_SEAL_BRG.w = 1 := (rfl)
@[simp] theorem SEC_SEAL_MGR_w : SEC_SEAL_MGR.w = 1 := (rfl)
@[simp] theorem SEC_IDE_ERR_VALID_w : SEC_IDE_ERR_VALID.w = 1 := (rfl)
@[simp] theorem SEC_IDE_ERR_PORT_w : SEC_IDE_ERR_PORT.w = 10 := (rfl)
@[simp] theorem SEC_DEVID_PUB_KEY_w : SEC_DEVID_PUB_KEY.w = 32 := (rfl)
@[simp] theorem CNT_CTRL_FREEZE_w : CNT_CTRL_FREEZE.w = 1 := (rfl)
@[simp] theorem CNT_CTRL_FROZEN_w : CNT_CTRL_FROZEN.w = 1 := (rfl)
@[simp] theorem CNT_CTRL_PERIOD_w : CNT_CTRL_PERIOD.w = 20 := (rfl)
@[simp] theorem CNT_SNAP_GO_w : CNT_SNAP_GO.w = 1 := (rfl)
@[simp] theorem CNT_SNAP_PART_w : CNT_SNAP_PART.w = 1 := (rfl)
@[simp] theorem CNT_SNAP_SEQ_w : CNT_SNAP_SEQ.w = 16 := (rfl)
@[simp] theorem CNT_SNAP_TLO_TIME_w : CNT_SNAP_TLO_TIME.w = 32 := (rfl)
@[simp] theorem CNT_SNAP_THI_TIME_w : CNT_SNAP_THI_TIME.w = 32 := (rfl)
@[simp] theorem CNT_SNAP_DUR_NS_w : CNT_SNAP_DUR_NS.w = 32 := (rfl)
@[simp] theorem CNT_STAT_REFUSED_w : CNT_STAT_REFUSED.w = 16 := (rfl)
@[simp] theorem GLB_ID_PART_w : GLB_ID_PART.w = 16 := (rfl)
@[simp] theorem GLB_ID_REV_w : GLB_ID_REV.w = 8 := (rfl)
@[simp] theorem GLB_ID_VARIANT_w : GLB_ID_VARIANT.w = 8 := (rfl)
@[simp] theorem GLB_SERIAL_LO_SERIAL_w : GLB_SERIAL_LO_SERIAL.w = 32 := (rfl)
@[simp] theorem GLB_SERIAL_HI_SERIAL_w : GLB_SERIAL_HI_SERIAL.w = 32 := (rfl)
@[simp] theorem GLB_RESET_KEY_w : GLB_RESET_KEY.w = 16 := (rfl)
@[simp] theorem GLB_STAGGER_INTERVAL_w : GLB_STAGGER_INTERVAL.w = 5 := (rfl)
@[simp] theorem GLB_FREEZE_FREEZE_w : GLB_FREEZE_FREEZE.w = 1 := (rfl)
@[simp] theorem GLB_FREEZE_FROZEN_w : GLB_FREEZE_FROZEN.w = 1 := (rfl)
@[simp] theorem GLB_FREEZE_ON_FE_w : GLB_FREEZE_ON_FE.w = 1 := (rfl)
@[simp] theorem GLB_FREEZE_ON_UC_w : GLB_FREEZE_ON_UC.w = 1 := (rfl)
@[simp] theorem GLB_FREEZE_ON_CE_w : GLB_FREEZE_ON_CE.w = 1 := (rfl)
@[simp] theorem GLB_AERR_VALID_w : GLB_AERR_VALID.w = 1 := (rfl)
@[simp] theorem GLB_AERR_PATH_w : GLB_AERR_PATH.w = 2 := (rfl)
@[simp] theorem GLB_AERR_KIND_w : GLB_AERR_KIND.w = 2 := (rfl)
@[simp] theorem GLB_AERR_ADDR_w : GLB_AERR_ADDR.w = 27 := (rfl)
@[simp] theorem GLB_SCRATCH_DATA_w : GLB_SCRATCH_DATA.w = 32 := (rfl)
@[simp] theorem TMB_NOW_LO_NOW_w : TMB_NOW_LO_NOW.w = 32 := (rfl)
@[simp] theorem TMB_NOW_HI_NOW_w : TMB_NOW_HI_NOW.w = 32 := (rfl)
@[simp] theorem TMB_OFS_LO_OFS_w : TMB_OFS_LO_OFS.w = 32 := (rfl)
@[simp] theorem TMB_OFS_HI_OFS_w : TMB_OFS_HI_OFS.w = 32 := (rfl)
@[simp] theorem TMB_RACK_LO_RACK_w : TMB_RACK_LO_RACK.w = 32 := (rfl)
@[simp] theorem TMB_RACK_HI_RACK_w : TMB_RACK_HI_RACK.w = 32 := (rfl)
@[simp] theorem TMB_STAT_RUN_w : TMB_STAT_RUN.w = 1 := (rfl)
@[simp] theorem TMB_STAT_STALLED_w : TMB_STAT_STALLED.w = 1 := (rfl)
@[simp] theorem TMB_STAT_STALLS_w : TMB_STAT_STALLS.w = 16 := (rfl)

end Sys2Proof.Machine
end

