-- ==== Sys2Proof/Tests/Slice0.lean ====
section
/-!
SUPPORT. Tests.
-/
open Sys2Proof Sys2Proof.Machine
namespace Sys2Proof.Tests
/-- The part after a whole start: both supplies valid, every stage complete, the prefects and firmware running. -/
def base : State :=
  { State.reset with chip := { Chip.reset with
      pwr := { Chip.reset.pwr with vin := true, vaux := true, vauxUp := true, time0 := true, chainUp := true,
                                   begun := 0x7FFF, done := 0x7FFF, stage0Once := true, vcore2 := 1500 },
      tmb := { Chip.reset.tmb with now := 1000000, started := true } } }

/-- The state with register fields set: field, page, value. -/
def put (fs : List (Fld × Nat × Nat)) (s : State) : State :=
  onChip s fun c => fs.foldl (fun c x => setF x.1 x.2.1 x.2.2 c) c

/-- The state with a lane's fields set. -/
def lane (l : Nat) (fs : List (Fld × Nat)) (s : State) : State :=
  onChip s fun c => fs.foldl (fun c x => setLane x.1 l x.2 c) c

/-- An enabled port: page, personality and width. -/
def port (p k w : Nat) (s : State) : State := put [(PRT_CFG_EN, p, 1), (PRT_CFG_PERS, p, k), (PRT_CFG_WIDTH, p, w)] s

/-- Ports 16 and 20 as the members of a trunk pair, 16 its primary. -/
def pair (s : State) : State :=
  put [(LNK_TRUNK_PRIMARY, 16, 1), (LNK_TRUNK_PARTNER, 16, 20), (LNK_TRUNK_PRIMARY, 20, 0), (LNK_TRUNK_PARTNER, 20, 16)]
    (port 16 4 4 (port 20 4 4 s))

/-- What a training found, and what a device shows. -/
def info : TrainInfo :=
  { rate := 5, width := 4, flit := true, selnakP := true, altProto := false, x128P := false, reversed := false, inverted := 0,
    partnerPrecode := 0, eqFail128 := false, peerId := 1, credits := [16, 0, 16, 96, 16], lanes := [] }

def dev : DeviceInfo :=
  { type3 := true, hasMem := true, mld := false, ldCount := 1, bytes := 8589934592, serial := 7, lifeUsed := 3, poison := [] }

/-- A measurement by register. -/
def run1 : MarginRun := { pcie := false, eye := none, dwell := 2, toff := 0, voff := 0 }

/-- A one-flit message without data, a sound flit with it, and a link to port 16 with four flits kept and a replay count. -/
def msg0 : FlitMsg := { typ := .memReq, first := true, dataLines := 0, msg := 7 }

def rx : FlitRx := { check := { symbols := [], crc := true }, seq := 0, msg := some msg0, rets := [] }

def kept (replays : Nat) (s : State) : State :=
  onChip s (setLnkSt 16 { LnkSt.idle with
    unacked := [3, 4, 5, 6].map (fun i => { seq := i, msg := none, bucket := 0, orig := none }), replays := replays,
    lastReplayAck := some 2 })

/-- A packet offered to the switch core, and one in it. -/
def pkt : PktIn :=
  { id := 1, ingress := 16, egress := 32, typ := .memReq, lines := 0, cells := 1, arrived := 1, relaxed := false,
    pool := false, ten := none, pbrId := none, forerunner := false, answers := none, exportReq := none }

def inCore : Pkt :=
  { id := 1, ingress := 16, egress := [32], typ := .memReq, lines := 0, cells := 1, arrived := 1, sent := 0, paid := false,
    relaxed := false, pbr := none, mode := .saf, shared := false, held := false, internal := false, multicast := false,
    repaid := false, snoopOf := none, ten := none, epoch := 0, pool := false, exportReq := none, stalled := false, poisoned := false }

/-- A window of one tile on pool face 8 for tenancy 1, an entry RESIDENT on device face 16, and both in place: face 8
and the device's link up, the tenancy ON with PASID 3, the map running. -/
def win : Window := { Window.free with valid := true, kind := 1, ten := 1, port := 8, size := 1, state := 1, pans := 1 }

def resident : Entry := { Entry.zero with state := 1, loc0 := locWord 16 7 }

def pool (x : Window) (e : Entry) (s : State) : State :=
  onChip (put [(LNK_STAT_STATE, 8, 2), (LNK_STAT_STATE, 16, 2), (PRT_DEV_RESULT, 16, 1), (PRT_DEV_CAP_TILES, 16, 4096),
      (TEN_STAT_STATE, 1, 1), (TEN_CFG_PORT, 1, 8), (TEN_PASID_LO_PASID, 1, 3), (TEN_PASID_HI_PASID, 1, 3),
      (MAP_STAT_RUNNING, 0, 1), (MAP_CFG_POOL_U, 0, 1)] (port 8 0 4 (port 16 2 4 s))) fun c =>
    setLiveWin 5 x (setEntry 0 e { c with slp := { c.slp with hvOk := true } })

/-- A host read outstanding at the device. -/
def out : Leg := { dport := 16, dtag := 4, dtile := 7, slot := 0, write := false, st := .out, data := 0 }

def rdTxn : Txn :=
  { id := 3, kind := .rd, port := 8, host := none, tag := 5, ten := some 1, gen := 0, epoch := 0, win := 5, dpa := 64, line := 1,
    rtype := 0, shared := false, mv := .i, mask := fullMask, data := 0, poison := false, atom := none, stage := .device,
    lock := false, holder := false, legs := [out], old := 0, readDone := false, marked := true, lostLink := false,
    res := 0, jobOff := 0, ecc := Ecc.none, owes := false, sealTag := 0 }

/-- An entry on its way to another device tile. -/
def moving : Entry := { resident with state := 2, dest := locWord 16 9, reason := 1 }

/-- Both map copies stored on READY devices of pan 0, copy A on port 16 and copy B on port 32, in generation 3. -/
def copies (s : State) : State :=
  onChip (put [(LNK_STAT_STATE, 16, 2), (PRT_DEV_RESULT, 16, 1), (PRT_DEV_CAP_TILES, 16, 4096), (LNK_STAT_STATE, 32, 2),
      (PRT_DEV_RESULT, 32, 1), (PRT_DEV_CAP_TILES, 32, 4096), (MAP_CFG_POOL_U, 0, 1)] (port 16 2 4 (port 32 2 4 s))) fun c =>
    let h : Nat → MapHeader := fun i => { poolU := 1, copy := i, index := 0, n := 1, fsid := 0, gen := 3 }
    let c1 := setFi MAP_COPY0_DEV0 0 0 16 (setFi MAP_COPY0_DEV0 0 1 32 c)
    updDisk 16 (fun d => { d with heads := [(regionBase c1 16 1, h 0)] })
      (updDisk 32 (fun d => { d with heads := [(regionBase c1 32 1, h 1)] }) c1)

/-- A sweep at its end with tile 0 a confirmed candidate for pan 0: it lies on port 16 in pan 1, and the device on port
32 in pan 0 has room. -/
def heatState : State :=
  onChip (put [(LNK_STAT_STATE, 32, 2), (PRT_DEV_RESULT, 32, 1), (PRT_DEV_CAP_TILES, 32, 4096), (SEC_STAT_PFX_OK, 0, 1),
      (MRK_CTRL_CONFIRM, 0, 1)] (port 32 2 4 (pool win resident base))) fun c =>
    let c1 := setFi MRK_PAN_CFG_EN 0 0 1 (setFi MRK_PAN_CFG_EN 0 1 1 (setPrtSt 16 { PrtSt.idle with pan := 1 }
      (setLiveWin 5 { win with pans := 3 } c)))
    let x : Cand := { tile := 0, down := false, pan := 1, rmark := 9, wmark := 0, heat := 9 }
    { c1 with mrk := { c1.mrk with sweeping := true, confirm := [(0, (false, 0))], confirmNow := 1, rings := [(0, [x])] } }

/-- The pool of tile 0 with port 16's device cared for by device page 3, in its class of reset, with passes allowed. -/
def cared (e : Entry) : State :=
  onChip (put [(CAR_DEV_CFG_EN, 3, 1), (CAR_DEV_CFG_PORT, 3, 16), (CAR_CTRL_EN, 0, 1),
      (LNK_STAT_STATE, 32, 2), (PRT_DEV_RESULT, 32, 1), (PRT_DEV_CAP_TILES, 32, 4096)] (port 32 2 4 (pool win e base))) fun c =>
    { c with car := { c.car with wasReady := [3] } }

/-- A twin tile with its first location on port 16 and its second on port 32. -/
def twinned : Entry := { resident with twin := true, loc1 := locWord 32 9 }

/-- A shared read for ownership by host 2 that waits for its snoop of host 9, an UNPLACED line. -/
def asker : Txn :=
  { rdTxn with host := some 2, shared := true, mv := .a, stage := .snoop, lock := true, legs := [] }

def snooped : Snoop :=
  { tag := 6, txn := 3, host := 9, port := 12, line := 1, typ := .inv, answered := false, rsp := .i, gone := false,
    wroteBack := false }

def asking : State :=
  onChip (put [(LNK_STAT_STATE, 12, 2)] (port 12 0 4 (pool { win with shared := true } Entry.zero base))) fun c =>
    { c with txns := [asker], rol := { c.rol with snoops := [snooped] } }

/-- An OPEN slate entry of the window on port 8, and a state with such entries and no more. -/
def open1 : SlateEntry :=
  { id := 4, port := 8, line := 1, ten := 1, epoch := 0, mask := 15, data := 77, time := 9, draining := false, trig := none,
    win := 5, host := none, shared := false, txn := none, forWait := false }

def slated (l : List SlateEntry) : State :=
  onChip (pool { win with rtype := 1 } resident base) fun c => { c with slt := { c.slt with entries := l, nextId := 9 } }

def bell1 : Bell :=
  { port := 8, tag := 5, eight := false, gen := 0, covers := [], internal := false, limit := false, lostLink := false }

/-- A host read in the shaper queue. -/
def rdTxn0 : Txn := { rdTxn with stage := .shaper, legs := [], marked := false }

/-- A record of tenancy 1 that holds its signature, version and length; with its CRC; and tenancy 1 OFF with it. -/
def recHead : List Host.Cell := writeBytes [] (recAddr 1 0) (leBytes 4 0x52454E54 ++ [1, 0, 0, 4])
def recWhole : List Host.Cell :=
  writeBytes recHead (recAddr 1 0x3FC) (leBytes 4 (crc32 (readBytes recHead (recAddr 1 0) 1020)).toNat)
def recorded : State := { put [(TEN_STAT_STATE, 1, 0)] (pool win resident base) with recs := recWhole }

/-- A platform event not yet sent. -/
def ev : BrgEvent := { id := 4, record := { w0 := 1, w1 := 2, w2 := 3, w3 := 4, w4 := 5 }, sent := false, polled := false, ibi0 := false, ibi1 := false }


/-- Images of SVN 5 under key slots 0 and 1 in the active slots A, three words in prefect slot B. -/
def updated : State :=
  onChip base fun c => { c with sec := { c.sec with
    mgtSlot := some false, pfxSlot := some false, mgtMin := some 3, pfxMin := some 4,
    mgtA := { words := some [0x494C5648, 0x50000, 0, 0], spoiled := false },
    pfxA := { words := some [0x494C5648, 0x50101, 0, 0], spoiled := false },
    pfxB := { words := some [1, 2, 3], spoiled := false } } }

/-- Port 8 with an SPDM session and a transmit key in set 1. -/
def keyed : State :=
  onChip (pool win resident base) fun c => { c with sec := { c.sec with
    sessions := [(8, 1)], ide := [(8, { IdeSt.idle with txKey := [(1, 99)], rxGo := some 0 })] } }

end Sys2Proof.Tests
end

section
/-!
PROOFS. Which parts and register fields a change of the part touches: the rules that `changesOnly` is built with, one
for each named operation, applied from the last operation to the first.
-/
namespace Sys2Proof.Machine

/-- What `changesOnly` says of the part alone: d is c but for the listed parts and the listed register fields. -/
def chipChangesOnly (ps : List Part) (ks : List Nat) (c d : Chip) : Prop :=
  keepsParts (.fld :: ps) c d ∧ keepsRegs ks c d

theorem changesOnly_onChip {ps : List Part} {ks : List Nat} {s : State} {f : Chip → Chip}
    (h : chipChangesOnly ps ks s.chip (f s.chip)) : changesOnly ps ks s (onChip s f) :=
  ⟨rfl, rfl, h.1, h.2⟩

theorem samePart_refl (c : Chip) (k : Part) : samePart c c k := by cases k <;> simp [samePart]

theorem samePart_trans {c d e : Chip} {k : Part} (h1 : samePart c d k) (h2 : samePart d e k) : samePart c e k := by
  cases k <;> simp_all [samePart]

theorem fldKey_ne_of_listed {X Y : Fld} {n m j : Nat} {ks : List Nat} (hX : at0 X n ∈ ks) (hY : fldKey Y m j ∉ ks) :
    fldKey Y m j ≠ fldKey X n 0 := fun h => hY (by rw [h]; exact hX)

namespace chipChangesOnly

variable {ps : List Part} {ks : List Nat} {c d : Chip}

theorem refl : chipChangesOnly ps ks c c := ⟨fun k _ => samePart_refl c k, fun _ _ _ _ => rfl⟩

theorem trans {e : Chip} (h1 : chipChangesOnly ps ks c d) (h2 : chipChangesOnly ps ks d e) :
    chipChangesOnly ps ks c e :=
  ⟨fun k hk => samePart_trans (h1.1 k hk) (h2.1 k hk), fun X n i hX => (h2.2 X n i hX).trans (h1.2 X n i hX)⟩

theorem mono {qs : List Part} {ls : List Nat} (h : chipChangesOnly ps ks c d) (hp : ps ⊆ qs) (hk : ks ⊆ ls) :
    chipChangesOnly qs ls c d :=
  ⟨fun k hq => h.1 k fun hm => hq (List.cons_subset_cons _ hp hm), fun X n i hX => h.2 X n i fun hm => hX (hk hm)⟩

theorem setF {X : Fld} {n v : Nat} (hX : at0 X n ∈ ks) (h : chipChangesOnly ps ks c d) :
    chipChangesOnly ps ks c (Machine.setF X n v d) :=
  h.trans ⟨fun k hk => by cases k <;> simp_all [samePart],
    fun _ _ _ hY => getFi_setF_ne v d (fldKey_ne_of_listed hX hY)⟩

theorem raise {k : PK} {n b : Nat} (hp : .flt ∈ ps) (hX : at0 (PG_ERR k) n ∈ ks) (h : chipChangesOnly ps ks c d) :
    chipChangesOnly ps ks c (Machine.raise k n b d) :=
  h.trans ⟨fun k hk => by cases k <;> simp_all [samePart],
    fun _ _ _ hY => getFi_raise_ne d (fldKey_ne_of_listed hX hY)⟩

theorem send {o : Out} (hp : .sent ∈ ps) (h : chipChangesOnly ps ks c d) :
    chipChangesOnly ps ks c (Machine.send o d) :=
  h.trans ⟨fun k hk => by cases k <;> simp_all [samePart], fun _ _ _ _ => rfl⟩

theorem countQ {k : PK} {n x q : Nat} (hp : .cnt ∈ ps) (h : chipChangesOnly ps ks c d) :
    chipChangesOnly ps ks c (Machine.countQ k n x q d) :=
  h.trans ⟨fun k hk => by cases k <;> simp_all [samePart], fun X m i _ => getFi_countQ k n x q d X m i⟩

end chipChangesOnly

/-- Fields at different places of their pages are stored under different numbers, whatever the pages. -/
theorem fldKey_ne_of_place {X Y : Fld} {n m : Nat} (hX : X.off * 32 + X.lo < 131072) (hY : Y.off * 32 + Y.lo < 131072)
    (h : X.off * 32 + X.lo ≠ Y.off * 32 + Y.lo) : fldKey X n 0 ≠ fldKey Y m 0 := by
  unfold fldKey
  omega

end Sys2Proof.Machine
end

section
/-!
PROOFS. Words: the bits of a difference of words.
-/
namespace Sys2Proof.Machine

theorem bit_eq_testBit (v i : Nat) : bit v i = v.testBit i := by
  rw [Nat.testBit_eq_decide_div_mod_eq]
  rfl

theorem bit_succ (v i : Nat) : bit v (i + 1) = bit (v / 2) i := by
  unfold bit
  rw [Nat.pow_succ', Nat.div_div_eq_div_mul]

/-- The lowest bit and the rest of the bits of a that are 0 in b: no borrow crosses a bit. -/
theorem andNot_mod_two_div_two (a b : Nat) :
    andNot a b % 2 = a % 2 * (1 - b % 2) ∧ andNot a b / 2 = andNot (a / 2) (b / 2) := by
  have hle : a &&& b ≤ a := Nat.and_le_left
  have hdiv : (a &&& b) / 2 = a / 2 &&& b / 2 := Nat.and_div_two
  have hmod : (a &&& b) % 2 = 1 ↔ a % 2 = 1 ∧ b % 2 = 1 := Nat.and_mod_two_eq_one
  change (a - (a &&& b)) % 2 = _ ∧ (a - (a &&& b)) / 2 = a / 2 - (a / 2 &&& b / 2)
  rw [← hdiv]
  clear hdiv
  generalize a &&& b = m at *
  rcases Nat.mod_two_eq_zero_or_one a with ha | ha <;> rcases Nat.mod_two_eq_zero_or_one b with hb | hb <;>
    simp [ha, hb] at hmod ⊢ <;> omega

theorem bit_andNot (a b i : Nat) : bit (andNot a b) i = (bit a i && !bit b i) := by
  induction i generalizing a b with
  | zero =>
    have h := (andNot_mod_two_div_two a b).1
    unfold bit
    rw [Nat.pow_zero, Nat.div_one, Nat.div_one, Nat.div_one, h]
    rcases Nat.mod_two_eq_zero_or_one a with ha | ha <;> rcases Nat.mod_two_eq_zero_or_one b with hb | hb <;>
      simp [ha, hb]
  | succ i ih => rw [bit_succ, bit_succ, bit_succ, (andNot_mod_two_div_two a b).2, ih]

end Sys2Proof.Machine
end

section
/-!
PROOFS. Refused accesses (22_register_map.md R596 to R600, 20_security.md R581): what they record, raise and send.
-/
namespace Sys2Proof.Machine

@[simp] theorem send_sent (o : Out) (c : Chip) : (send o c).sent = o :: c.sent := rfl

/-- GLB_AERR takes a refusal where it holds none. -/
def recordRefusal (pa : Path) (kind addr : Nat) (c : Chip) : Chip :=
  if isF c GLB_AERR_VALID 0 then c else
    setF GLB_AERR_VALID 0 1 (setF GLB_AERR_PATH 0 (pathCode pa) (setF GLB_AERR_KIND 0 kind
      (setF GLB_AERR_ADDR 0 addr c)))

theorem noteRefusal_started {c : Chip} (pa : Path) (kind addr : Nat) (hg : pageStarted c .glb 0 = true) :
    noteRefusal pa kind addr c = raise .glb 0 0 (recordRefusal pa kind addr c) := by
  rw [noteRefusal, if_pos hg]
  rfl

@[simp] theorem recordRefusal_sent (pa : Path) (kind addr : Nat) (c : Chip) :
    (recordRefusal pa kind addr c).sent = c.sent := by
  unfold recordRefusal
  split <;> simp

theorem recordRefusal_valid (pa : Path) (kind addr : Nat) (c : Chip) :
    getF (recordRefusal pa kind addr c) GLB_AERR_VALID 0 ≠ 0 := by
  unfold recordRefusal
  split
  · next h => simpa [isF] using h
  · simp [GLB_AERR_VALID]

theorem recordRefusal_fields {c : Chip} (pa : Path) (kind addr : Nat) (h : getF c GLB_AERR_VALID 0 = 0) :
    getF (recordRefusal pa kind addr c) GLB_AERR_KIND 0 = kind % 4 ∧
      getF (recordRefusal pa kind addr c) GLB_AERR_PATH 0 = pathCode pa ∧
      getF (recordRefusal pa kind addr c) GLB_AERR_ADDR 0 = addr % 2 ^ 27 := by
  have hp : pathCode pa % 4 = pathCode pa := by cases pa <;> rfl
  rw [recordRefusal, if_neg (by simp [isF, h])]
  refine ⟨?_, ?_, ?_⟩
  · rw [getF_setF_ne _ _ (by decide), getF_setF_ne _ _ (by decide), getF_setF_same]; rfl
  · rw [getF_setF_ne _ _ (by decide), getF_setF_same]; exact hp
  · rw [getF_setF_ne _ _ (by decide), getF_setF_ne _ _ (by decide), getF_setF_ne _ _ (by decide), getF_setF_same]; rfl

theorem recordRefusal_changes (pa : Path) (kind addr : Nat) (c : Chip) :
    chipChangesOnly [] [at0 GLB_AERR_VALID 0, at0 GLB_AERR_KIND 0, at0 GLB_AERR_PATH 0, at0 GLB_AERR_ADDR 0] c
      (recordRefusal pa kind addr c) := by
  unfold recordRefusal
  split
  · exact .refl
  · exact .setF (by simp) (.setF (by simp) (.setF (by simp) (.setF (by simp) .refl)))

/-- The state t is s after an access through a path was refused with a kind, recorded in GLB_AERR where no refusal
stood, and GLB_ACCESS raised. -/
def refusedWith (kind : Nat) (pa : Path) (a : Nat) (s t : State) : Prop :=
  t.chip.sent = .pathRefused pa :: s.chip.sent ∧ errBit t.chip .glb 0 0 ∧ getF t.chip GLB_AERR_VALID 0 ≠ 0 ∧
    (getF s.chip GLB_AERR_VALID 0 = 0 → getF t.chip GLB_AERR_KIND 0 = kind ∧ getF t.chip GLB_AERR_PATH 0 = pathCode pa ∧
      getF t.chip GLB_AERR_ADDR 0 = a % 2 ^ 27) ∧
    changesOnly [.flt, .sent] [at0 (PG_ERR .glb) 0, at0 GLB_AERR_VALID 0, at0 GLB_AERR_KIND 0, at0 GLB_AERR_PATH 0,
      at0 GLB_AERR_ADDR 0] s t

theorem refusedWith_refuseAccess {s : State} {kind : Nat} (pa : Path) (a : Nat) (hk : kind < 4)
    (hg : pageStarted s.chip .glb 0 = true) : refusedWith kind pa a s (onChip s (refuseAccess pa kind a)) := by
  have hchip : (onChip s (refuseAccess pa kind a)).chip =
      send (.pathRefused pa) (raise .glb 0 0 (recordRefusal pa kind a s.chip)) := by
    rw [onChip_chip, refuseAccess, noteRefusal_started pa kind a hg]
  refine ⟨?_, ?_, ?_, fun h0 => ?_, changesOnly_onChip ?_⟩
  · rw [hchip]; simp
  · rw [errBit, hchip, getF_send]
    exact bit_raise .glb 0 0 _ (by omega)
  · rw [hchip, getF_send, getF_raise_ne _ (by decide)]
    exact recordRefusal_valid pa kind a s.chip
  · rw [hchip, getF_send, getF_send, getF_send, getF_raise_ne _ (by decide), getF_raise_ne _ (by decide),
      getF_raise_ne _ (by decide)]
    simpa only [Nat.mod_eq_of_lt hk] using recordRefusal_fields pa kind a h0
  · rw [refuseAccess, noteRefusal_started pa kind a hg]
    exact .send (by simp) (.raise (by simp) (by simp)
      ((recordRefusal_changes pa kind a s.chip).mono (by simp) (List.subset_cons_self _ _)))

/-- An access to a closed page is counted, raises SEC_CLOSED_HIT and is answered as refused. -/
theorem closedHit_refuses (pa : Path) (s : State) :
    (onChip s (closedHit pa)).chip.sent = .pathRefused pa :: s.chip.sent ∧ errBit (onChip s (closedHit pa)).chip .sec 0 4 ∧
      changesOnly [.flt, .cnt, .sent] [at0 (PG_ERR .sec) 0] s (onChip s (closedHit pa)) := by
  refine ⟨by simp [closedHit], ?_, changesOnly_onChip ?_⟩
  · rw [errBit, onChip_chip, closedHit, getF_send]
    exact bit_raise .sec 0 4 _ (by omega)
  · exact .send (by simp) (.raise (by simp) (by simp) (.countQ (by simp) .refl))

/-- An access to a manager function that a port does not present is answered where the port's link is up. -/
theorem pathAbsent_mgr (p : Port) (c : Chip) :
    pathAbsent (.mgr p) c = if inL0 c p.val = true then send (.pathRefused (.mgr p)) c else c := rfl

end Sys2Proof.Machine
end

section
/-!
PROOFS. A register write through a path (22_register_map.md R596 to R604): one equation for each way it can go.
-/
namespace Sys2Proof.Machine

/-! ### By path and size -/

theorem registerWrite_absent {pa : Path} {s : State} (a sz v : Nat) (h : pathUp s.chip pa = false) :
    registerWrite pa a sz v s = onChip s (pathAbsent pa) := by
  rw [registerWrite, if_pos (by simp [h])]

theorem registerWrite_word {pa : Path} {a : Nat} {s : State} (v : Nat) (h : pathUp s.chip pa = true) (ha : a % 4 = 0) :
    registerWrite pa a 4 v s = writeWord pa a (v % 2 ^ 32) s := by
  rw [registerWrite, if_neg (by simp [h]), if_pos ⟨rfl, ha⟩]

theorem registerWrite_double {pa : Path} {a : Nat} {s : State} (v : Nat) (h : pathUp s.chip pa = true) (ha : a % 8 = 0)
    (hpa : pa ≠ .bridge) :
    registerWrite pa a 8 v s = writeWord pa (a + 4) (v / 2 ^ 32) (writeWord pa a (v % 2 ^ 32) s) := by
  rw [registerWrite, if_neg (by simp [h]), if_neg (by simp), if_pos ⟨rfl, ha, hpa⟩]

theorem registerWrite_badSize {pa : Path} {a sz : Nat} {s : State} (v : Nat) (h : pathUp s.chip pa = true)
    (hsz : (sz ≠ 4 ∧ sz ≠ 8) ∨ (sz = 4 ∧ a % 4 ≠ 0) ∨ (sz = 8 ∧ (a % 8 ≠ 0 ∨ pa = .bridge))) :
    registerWrite pa a sz v s = onChip s (refuseAccess pa 1 a) := by
  have h4 : ¬(sz = 4 ∧ a % 4 = 0) := by omega
  have h8 : ¬(sz = 8 ∧ a % 8 = 0 ∧ pa ≠ .bridge) := by
    rintro ⟨rfl, ha, hpa⟩
    simp [ha, hpa] at hsz
  rw [registerWrite, if_neg (by simp [h]), if_neg h4, if_neg h8]

/-! ### By page -/

theorem writeWord_undefined {pa : Path} {a : Nat} {s : State} (v : Nat) (h : pageAt a = none) :
    writeWord pa a v s = onChip s (refuseAccess pa 2 a) := by
  simp [writeWord, h]

theorem writeWord_closed {pa : Path} {a n : Nat} {kd : PK} {s : State} (v : Nat) (h : pageAt a = some (kd, n))
    (hc : pathClosed s.chip pa (blockOf kd) = true) : writeWord pa a v s = onChip s (closedHit pa) := by
  simp [writeWord, h, hc]

theorem writeWord_notStarted {pa : Path} {a n : Nat} {kd : PK} {s : State} (v : Nat) (h : pageAt a = some (kd, n))
    (hc : pathClosed s.chip pa (blockOf kd) = false) (hs : pageStarted s.chip kd n = false) :
    writeWord pa a v s = if pa = .bridge then s else onChip s (refuseAccess pa 0 a) := by
  simp [writeWord, h, hc, hs]

theorem writeWord_open {pa : Path} {a n : Nat} {kd : PK} {s : State} (v : Nat) (h : pageKind (a / 4096) = some (kd, n))
    (hc : pathClosed s.chip pa (blockOf kd) = false) (hs : pageStarted s.chip kd n = true) :
    writeWord pa a v s = pageWord pa kd n (a % 4096) v s := by
  simp [writeWord, writeOpen, pageAt, h, hc, hs]

/-! ### Words of the page header -/

theorem pageWord_header {off : Nat} (pa : Path) (k : PK) (n v : Nat) (s : State) (h : off < 0x040) :
    pageWord pa k n off v s = onChip s (headerWrite k n off v) := by
  have h1 : ¬(k = .glb ∧ off = 0x04C) := by omega
  have h2 : ¬(k = .ten ∧ off = 0x050) := by omega
  have h3 : ¬(k = .ten ∧ 0x400 ≤ off ∧ off < 0x800) := by omega
  rw [pageWord, if_neg h1, if_neg h2, if_neg h3]
  unfold chipWrite
  simp only [h, if_true]

theorem headerWrite_lock (k : PK) (n v : Nat) (c : Chip) :
    headerWrite k n 0x00C v c = whenB (bit v 0) (setF (PG_LOCK k) n 1) c := rfl

theorem headerWrite_cfrz (k : PK) (n v : Nat) (c : Chip) :
    headerWrite k n 0x010 v c = setF (PG_CTRL_CFRZ k) n v c := rfl

theorem headerWrite_evtPend (k : PK) (n v : Nat) (c : Chip) :
    headerWrite k n 0x028 v c = setF (PG_EVT_PEND k) n (andNot (getF c (PG_EVT_PEND k) n) (v % 2 ^ 16)) c := rfl

/-- A word of the header outside the registers that take a write changes nothing. -/
theorem onChip_headerWrite_none {off : Nat} (k : PK) (n v : Nat) (s : State)
    (h : off ∉ [0x00C, 0x010, 0x018, 0x01C, 0x020, 0x024, 0x028, 0x02C]) : onChip s (headerWrite k n off v) = s := by
  have hchip : headerWrite k n off v s.chip = s.chip := by
    simp only [List.mem_cons, List.not_mem_nil, or_false, not_or] at h
    simp [headerWrite, h]
  rw [onChip, hchip]

theorem writeWord_header {pa : Path} {a n off : Nat} {kd : PK} {s : State} (v : Nat)
    (h : pageKind (a / 4096) = some (kd, n)) (hc : pathClosed s.chip pa (blockOf kd) = false)
    (hs : pageStarted s.chip kd n = true) (ha : a % 4096 = off) (hoff : off < 0x040) :
    writeWord pa a v s = onChip s (headerWrite kd n off v) := by
  rw [writeWord_open v h hc hs, ha, pageWord_header pa kd n v s hoff]

/-- A word of the header written through an open path. -/
theorem registerWrite_header {pa : Path} {a n off : Nat} {kd : PK} {s : State} (v : Nat)
    (h : pageKind (a / 4096) = some (kd, n)) (ho : pageOpen s.chip pa kd n) (ha : a % 4096 = off) (hoff : off < 0x040)
    (h4 : off % 4 = 0) :
    registerWrite pa a 4 v s = onChip s (headerWrite kd n off (v % 2 ^ 32)) := by
  obtain ⟨hup, hc, hs⟩ := ho
  rw [registerWrite_word v hup (by omega), writeWord_header _ h hc hs ha hoff]

/-- A page stays closed or open to a path when a CFRZ bit is written. -/
theorem pathClosed_setF_cfrz (k : PK) (n v : Nat) (c : Chip) (pa : Path) (blk : Nat) :
    pathClosed (setF (PG_CTRL_CFRZ k) n v c) pa blk = pathClosed c pa blk := by
  have hne {X : Fld} (hX : X.off * 32 + X.lo < 131072) (h : X.off * 32 + X.lo ≠ 512) :
      getF (setF (PG_CTRL_CFRZ k) n v c) X 0 = getF c X 0 :=
    getF_setF_ne _ _ (fldKey_ne_of_place hX (by simp [PG_CTRL_CFRZ]) (by simpa [PG_CTRL_CFRZ] using h))
  cases pa with
  | mgr p => simp [pathClosed, hne (X := SEC_CLOSE_MGR_BLOCKS) (by decide) (by decide)]
  | core => rfl
  | bridge => simp [pathClosed, hne (X := SEC_CLOSE_BRG_BLOCKS) (by decide) (by decide)]

theorem pageStarted_setF (X : Fld) (m v : Nat) (c : Chip) (k : PK) (n : Nat) :
    pageStarted (setF X m v c) k n = pageStarted c k n := rfl

/-- Eight bytes at CFRZ are that word and the next, which holds nothing. -/
theorem registerWrite_cfrz_double {pa : Path} {a n : Nat} {kd : PK} {s : State} (v : Nat)
    (h : pageKind (a / 4096) = some (kd, n)) (ho : pageOpen s.chip pa kd n) (ha : a % 4096 = 0x010) (h8 : a % 8 = 0)
    (hpa : pa ≠ .bridge) :
    registerWrite pa a 8 v s = onChip s (setF (PG_CTRL_CFRZ kd) n (v % 2 ^ 32)) := by
  obtain ⟨hup, hc, hs⟩ := ho
  have hnext : (a + 4) / 4096 = a / 4096 := by omega
  have hfirst : writeWord pa a (v % 2 ^ 32) s = onChip s (setF (PG_CTRL_CFRZ kd) n (v % 2 ^ 32)) :=
    writeWord_header _ h hc hs ha (by omega)
  have hc' : pathClosed (onChip s (setF (PG_CTRL_CFRZ kd) n (v % 2 ^ 32))).chip pa (blockOf kd) = false := by
    rw [onChip_chip, pathClosed_setF_cfrz, hc]
  have hs' : pageStarted (onChip s (setF (PG_CTRL_CFRZ kd) n (v % 2 ^ 32))).chip kd n = true := by
    rw [onChip_chip, pageStarted_setF, hs]
  rw [registerWrite_double v hup h8 hpa, hfirst,
    writeWord_header (off := 0x014) _ (by rw [hnext, h]) hc' hs' (by omega) (by omega)]
  exact onChip_headerWrite_none kd n _ _ (by decide)

end Sys2Proof.Machine
end

section
/-!
PROOFS. Register accesses (O52): the ways a register write can go, put together from the equations above.
-/
namespace Sys2Proof.Machine

theorem bit_zero_eq_true_iff (v : Nat) : bit v 0 = true ↔ v % 2 = 1 := by simp [bit]

theorem exec_registerWrite {pa : Path} {a sz : Nat} {v : BitVec 64} {s t : State}
    (h : registerWrite pa a sz v.toNat s = t) : exec (.registerWrite pa a sz v) s = .next t :=
  congrArg Host.Outcome.next h

section
variable {pa : Path} {a n : Nat} {kd : PK} {s : State}

/-- CFRZ takes bit 0, and eight bytes there do the same. -/
theorem exec_registerWrite_cfrz (v : BitVec 64) (h : pageKind (a / 4096) = some (kd, n)) (ho : pageOpen s.chip pa kd n)
    (ha : a % 4096 = 0x010) :
    ∃ t, exec (.registerWrite pa a 4 v) s = .next t ∧ getF t.chip (PG_CTRL_CFRZ kd) n = v.toNat % 2 ∧
      changesOnly [] [at0 (PG_CTRL_CFRZ kd) n] s t ∧
      (a % 8 = 0 → pa ≠ .bridge → exec (.registerWrite pa a 8 v) s = .next t) := by
  refine ⟨_, exec_registerWrite (registerWrite_header v.toNat h ho ha (by omega) (by omega)), ?_,
    changesOnly_onChip ?_, fun h8 hpa => exec_registerWrite (registerWrite_cfrz_double v.toNat h ho ha h8 hpa)⟩
  · rw [onChip_chip, headerWrite_cfrz, getF_setF_same, PG_CTRL_CFRZ_w]
    omega
  · exact .setF (by simp) .refl

/-- LOCK is set by a 1 and never cleared. -/
theorem exec_registerWrite_lock (v : BitVec 64) (h : pageKind (a / 4096) = some (kd, n)) (ho : pageOpen s.chip pa kd n)
    (ha : a % 4096 = 0x00C) :
    ∃ t, exec (.registerWrite pa a 4 v) s = .next t ∧
      getF t.chip (PG_LOCK kd) n = (if v.toNat % 2 = 1 then 1 else getF s.chip (PG_LOCK kd) n) ∧
      changesOnly [] [at0 (PG_LOCK kd) n] s t := by
  have hbit : bit (v.toNat % 2 ^ 32) 0 = true ↔ v.toNat % 2 = 1 := by rw [bit_mod (by omega), bit_zero_eq_true_iff]
  refine ⟨_, exec_registerWrite (registerWrite_header v.toNat h ho ha (by omega) (by omega)), ?_,
    changesOnly_onChip ?_⟩
  · rw [onChip_chip, headerWrite_lock, whenB]
    by_cases hv : v.toNat % 2 = 1
    · rw [if_pos (hbit.mpr hv), if_pos hv, getF_setF_same]; rfl
    · rw [if_neg (mt hbit.mp hv), if_neg hv]
  · rw [headerWrite_lock, whenB]
    split
    · exact .setF (by simp) .refl
    · exact .refl

/-- PG_EVT_PEND keeps the bits that are written 0. -/
theorem exec_registerWrite_evtPend (v : BitVec 64) (h : pageKind (a / 4096) = some (kd, n))
    (ho : pageOpen s.chip pa kd n) (ha : a % 4096 = 0x028) :
    ∃ t, exec (.registerWrite pa a 4 v) s = .next t ∧
      (∀ b : Fin 16, bit (getF t.chip (PG_EVT_PEND kd) n) b.val =
        (bit (getF s.chip (PG_EVT_PEND kd) n) b.val && !bit v.toNat b.val)) ∧
      changesOnly [] [at0 (PG_EVT_PEND kd) n] s t := by
  refine ⟨_, exec_registerWrite (registerWrite_header v.toNat h ho ha (by omega) (by omega)), fun b => ?_,
    changesOnly_onChip (.setF (by simp) .refl)⟩
  rw [onChip_chip, headerWrite_evtPend, getF_setF_same, PG_EVT_PEND_w, bit_mod b.isLt, bit_andNot, bit_mod b.isLt,
    bit_mod (by omega)]

/-- The word after the header's last register holds nothing. -/
theorem exec_registerWrite_unused (v : BitVec 64) (h : pageKind (a / 4096) = some (kd, n))
    (ho : pageOpen s.chip pa kd n) (ha : a % 4096 = 0x030) : exec (.registerWrite pa a 4 v) s = .next s :=
  exec_registerWrite ((registerWrite_header v.toNat h ho ha (by omega) (by omega)).trans
    (onChip_headerWrite_none kd n _ s (by decide)))

end

/-- A manager function that the port does not present takes nothing, and answers where the link is up. -/
theorem exec_registerWrite_absent {p : Port} {s : State} (a sz : Nat) (v : BitVec 64)
    (h : pathUp s.chip (.mgr p) = false) :
    (inL0 s.chip p.val = true → ∃ t, exec (.registerWrite (.mgr p) a sz v) s = .next t ∧
      t.chip.sent = .pathRefused (.mgr p) :: s.chip.sent ∧ changesOnly [.sent] [] s t) ∧
    (inL0 s.chip p.val = false → exec (.registerWrite (.mgr p) a sz v) s = .next s) := by
  have hexec : exec (.registerWrite (.mgr p) a sz v) s = .next (onChip s (pathAbsent (.mgr p))) :=
    exec_registerWrite (registerWrite_absent a sz v.toNat h)
  refine ⟨fun hl => ⟨_, hexec, ?_, changesOnly_onChip ?_⟩, fun hl => ?_⟩
  · rw [onChip_chip, pathAbsent_mgr, if_pos hl, send_sent]
  · rw [pathAbsent_mgr, if_pos hl]
    exact .send (by simp) .refl
  · rw [hexec, onChip, pathAbsent_mgr, if_neg (by simp [hl])]

/-- A page that SEC closes to the path, or whose block has not started. -/
theorem exec_registerWrite_unreached {pa : Path} {a n : Nat} {kd : PK} {s : State} (v : BitVec 64)
    (hup : pathUp s.chip pa = true) (hp : pageAt a = some (kd, n)) (ha : a % 4 = 0) :
    (pathClosed s.chip pa (blockOf kd) = true → ∃ t, exec (.registerWrite pa a 4 v) s = .next t ∧
      t.chip.sent = .pathRefused pa :: s.chip.sent ∧ errBit t.chip .sec 0 4 ∧
      changesOnly [.flt, .cnt, .sent] [at0 (PG_ERR .sec) 0] s t) ∧
    (pathClosed s.chip pa (blockOf kd) = false → pageStarted s.chip kd n = false →
      (pa = .bridge → exec (.registerWrite pa a 4 v) s = .next s) ∧
      (pa ≠ .bridge → pageStarted s.chip .glb 0 = true → ∃ t, exec (.registerWrite pa a 4 v) s = .next t ∧
        refusedWith 0 pa a s t)) := by
  have hword : exec (.registerWrite pa a 4 v) s = .next (writeWord pa a (v.toNat % 2 ^ 32) s) :=
    exec_registerWrite (registerWrite_word v.toNat hup ha)
  refine ⟨fun hc => ⟨_, ?_, closedHit_refuses pa s⟩, fun hc hs => ⟨fun hpa => ?_, fun hpa hg => ⟨_, ?_,
    refusedWith_refuseAccess pa a (by omega) hg⟩⟩⟩
  · rw [hword, writeWord_closed _ hp hc]
  · rw [hword, writeWord_notStarted _ hp hc hs, if_pos hpa]
  · rw [hword, writeWord_notStarted _ hp hc hs, if_neg hpa]

end Sys2Proof.Machine

open Sys2Proof.Machine in
/-- Settles O52, by the ways a register write can go: open, absent, of another size, undefined, closed, not started. -/
theorem registerAccesses : Obligations.RegisterAccesses := by
  unfold Obligations.RegisterAccesses
  refine ⟨fun pa a v kd n s h ho => ⟨exec_registerWrite_cfrz v h ho, exec_registerWrite_lock v h ho,
      exec_registerWrite_evtPend v h ho, exec_registerWrite_unused v h ho⟩,
    fun p a sz v s h => exec_registerWrite_absent a sz v h,
    fun pa a sz v s hup hg hsz => ?_, fun pa a v s hup hg ha hp => ?_,
    fun pa a v kd n s hup hp ha => exec_registerWrite_unreached v hup hp ha⟩
  · exact ⟨_, exec_registerWrite (registerWrite_badSize v.toNat hup hsz), refusedWith_refuseAccess pa a (by omega) hg⟩
  · refine ⟨_, exec_registerWrite ((registerWrite_word v.toNat hup ha).trans (writeWord_undefined _ hp)), ?_⟩
    exact refusedWith_refuseAccess pa a (by omega) hg
end

section
/-!
PROOFS. The queue (O57): no operation on the state touches the commands that wait, one lemma per operation that is more
than a change of the part.
-/
namespace Sys2Proof.Machine

/-! ### Resets -/

@[simp] theorem warmResets_pending (cause : Nat) (s : State) : (warmResets cause s).pending = s.pending := rfl

@[simp] theorem coldResets_pending (cause : Nat) (s : State) : (coldResets cause s).pending = s.pending := rfl

@[simp] theorem resetWrite_pending (pa : Path) (key : Nat) (s : State) :
    (resetWrite pa key s).pending = s.pending := by
  unfold resetWrite
  split <;> simp

@[simp] theorem effLoss_pending (x : Supply) (mv : Nat) (s : State) : (effLoss x mv s).pending = s.pending := by
  unfold effLoss
  split <;> simp

@[simp] theorem effTrip_pending (sensor : Nat) (tj : BitVec 10) (s : State) :
    (effTrip sensor tj s).pending = s.pending := by
  unfold effTrip
  split <;> simp

/-! ### Tenancies -/

@[simp] theorem resetEnds_pending (t : Nat) (f : Chip → Chip) (s : State) :
    (resetEnds t f s).pending = s.pending := rfl

@[simp] theorem effResetDrained_pending (t : Nat) (s : State) : (effResetDrained t s).pending = s.pending := by
  unfold effResetDrained
  split <;> simp

@[simp] theorem effDrainTimeout_pending (t : Nat) (s : State) : (effDrainTimeout t s).pending = s.pending := by
  unfold effDrainTimeout
  dsimp only
  split
  · rfl
  · split
    · split <;> simp
    · split <;> simp

@[simp] theorem saveTen_pending (t : Nat) (s : State) : (saveTen t s).pending = s.pending := by
  unfold saveTen
  split <;> simp

@[simp] theorem restoreTen_pending (t : Nat) (s : State) : (restoreTen t s).pending = s.pending := by
  unfold restoreTen
  split
  · simp
  · split <;> simp

theorem tenRecCommand_pending (pa : Path) (t : Nat) {f : State → State} {s : State} (hf : (f s).pending = s.pending) :
    (tenRecCommand pa t f s).pending = s.pending := by
  unfold tenRecCommand
  split
  · simp
  · split
    · rfl
    · exact hf

/-! ### Register writes -/

@[simp] theorem tenCmdWrite_pending (pa : Path) (t v : Nat) (s : State) :
    (tenCmdWrite pa t v s).pending = s.pending := by
  unfold tenCmdWrite
  dsimp only
  split
  · rfl
  · split
    · simp
    · split
      case h_6 => exact tenRecCommand_pending pa t (saveTen_pending t s)
      case h_7 => exact tenRecCommand_pending pa t (restoreTen_pending t s)
      all_goals simp

@[simp] theorem recordWrite_pending (t off v : Nat) (s : State) : (recordWrite t off v s).pending = s.pending := by
  unfold recordWrite
  split <;> rfl

@[simp] theorem pageWord_pending (pa : Path) (k : PK) (n off v : Nat) (s : State) :
    (pageWord pa k n off v s).pending = s.pending := by
  unfold pageWord
  split
  · simp
  · split
    · simp
    · split <;> simp

@[simp] theorem writeOpen_pending (pa : Path) (addr v : Nat) (s : State) :
    (writeOpen pa addr v s).pending = s.pending := by
  unfold writeOpen
  split <;> simp

@[simp] theorem writeWord_pending (pa : Path) (addr v : Nat) (s : State) :
    (writeWord pa addr v s).pending = s.pending := by
  unfold writeWord
  split
  · simp
  · split
    · simp
    · split
      · simp
      · split <;> simp

@[simp] theorem registerWrite_pending (pa : Path) (addr size v : Nat) (s : State) :
    (registerWrite pa addr size v s).pending = s.pending := by
  unfold registerWrite
  split
  · simp
  · split
    · simp
    · split <;> simp

/-! ### The management bridge -/

@[simp] theorem readThrough_pending (pa : Path) (addr : Nat) (s : State) :
    (readThrough pa addr s).2.pending = s.pending := by
  unfold readThrough
  dsimp only
  split
  · rfl
  · split
    · rfl
    · split <;> rfl

@[simp] theorem runWrite_pending (k : Nat) (r : BrgReq) (s : State) : (runWrite k r s).pending = s.pending := by
  unfold runWrite
  dsimp only
  split <;> simp

@[simp] theorem runRead_pending (k : Nat) (r : BrgReq) (s : State) : (runRead k r s).pending = s.pending := by
  simp [runRead]

@[simp] theorem tryReq_pending (k : Nat) (s : State) : (tryReq k s).pending = s.pending := by
  unfold tryReq
  split
  · rfl
  · split
    · rfl
    · split
      · simp
      · split
        · rfl
        · split <;> simp

/-- Timed-out writes are applied one after another: none of them touches the queue. -/
theorem runLate_pending (k : Nat) (s : State) : (runLate k s).pending = s.pending := by
  unfold runLate
  refine List.foldlRecOn (motive := fun t : State => t.pending = s.pending) _ _ rfl fun t ht r _ => ?_
  split
  · simp [ht]
  · exact ht

@[simp] theorem brgSettle_pending (k : Nat) (s : State) : (brgSettle k s).pending = s.pending := by
  rw [brgSettle, tryReq_pending, runLate_pending]

@[simp] theorem acceptReq_pending (k : Nat) (write : Bool) (addr v : Nat) (s : State) :
    (acceptReq k write addr v s).pending = s.pending := by
  unfold acceptReq
  dsimp only
  split <;> simp

theorem onTransfer_pending (k : Nat) (pec : Bool) {f : State → State} {s : State} (hf : (f s).pending = s.pending) :
    (onTransfer k pec f s).pending = s.pending := by
  unfold onTransfer
  split
  · rfl
  · split
    · simp
    · exact hf

@[simp] theorem applyPosted_pending (k : Nat) (s : State) : (applyPosted k s).pending = s.pending := by
  unfold applyPosted
  split
  · rfl
  · split
    · simp
    · split <;> simp

@[simp] theorem sampleAll_pending (s : State) : (sampleAll s).pending = s.pending := by
  unfold sampleAll
  split <;> simp

/-! ### Commands -/

/-- Only three rows have lists, and so commands of a shape that the row cannot have. -/
theorem wellFormed_eq_false {i : Instr} (h : wellFormed i = false) :
    (∃ ps, i = .paceMeterWindow ps) ∨ (∃ p check recs, i = .marksFlitReceive p check recs) ∨
      (∃ k pkt, i = .mctpPacket k pkt) := by
  unfold wellFormed at h
  split at h
  · exact .inl ⟨_, rfl⟩
  · exact .inr (.inl ⟨_, _, _, rfl⟩)
  · exact .inr (.inr ⟨_, _, rfl⟩)
  · cases h

/-- A command whose operands have no shape of its row is refused. -/
theorem exec_illFormed {i : Instr} (s : State) (h : wellFormed i = false) : exec i s = .refused .illFormed := by
  obtain ⟨ps, rfl⟩ | ⟨p, check, recs, rfl⟩ | ⟨k, pkt, rfl⟩ := wellFormed_eq_false h
  · exact if_neg (Bool.eq_false_iff.mp h)
  · exact if_neg (Bool.eq_false_iff.mp h)
  · exact if_neg (Bool.eq_false_iff.mp h)

/-- A well-formed command answers a next state with the same queue. Most commands are a change of the part alone, which
cannot reach the queue; each of the others is an operation whose lemma stands above. -/
theorem exec_keepsQueue (i : Instr) (s : State) (h : wellFormed i = true) :
    ∃ t, exec i s = .next t ∧ t.pending = s.pending := by
  cases i with
  | paceMeterWindow ps => exact ⟨_, if_pos h, rfl⟩
  | marksFlitReceive p check recs => exact ⟨_, if_pos h, rfl⟩
  | mctpPacket k pkt => exact ⟨_, if_pos h, rfl⟩
  | supplyLoss x mv => exact ⟨_, rfl, effLoss_pending x mv s⟩
  | pwrThermtrip sensor tj => exact ⟨_, rfl, effTrip_pending sensor tj s⟩
  | stageComplete k => exact ⟨_, rfl, by simp⟩
  | resetNAssert => exact ⟨_, rfl, by split <;> simp⟩
  | feResetDelay => exact ⟨_, rfl, by split <;> simp⟩
  | glbReset pa key => exact ⟨_, rfl, resetWrite_pending pa key s⟩
  | portReset p kind => cases kind <;> exact ⟨_, rfl, rfl⟩
  | tenResetDrained t => exact ⟨_, rfl, effResetDrained_pending t s⟩
  | tenDrainTimeout t => exact ⟨_, rfl, effDrainTimeout_pending t s⟩
  | tenSave pa t => exact ⟨_, rfl, tenRecCommand_pending pa t (saveTen_pending t s)⟩
  | tenRestore pa t => exact ⟨_, rfl, tenRecCommand_pending pa t (restoreTen_pending t s)⟩
  | brgRead k addr pec => exact ⟨_, rfl, onTransfer_pending k pec (acceptReq_pending k false addr.toNat 0 s)⟩
  | brgWrite k addr v pec => exact ⟨_, rfl, onTransfer_pending k pec (by split <;> simp)⟩
  | postedWriteApply k => exact ⟨_, rfl, applyPosted_pending k s⟩
  | sensorSample => exact ⟨_, rfl, sampleAll_pending s⟩
  | registerWrite pa addr size v => exact ⟨_, rfl, registerWrite_pending pa addr size v.toNat s⟩
  | _ => exact ⟨_, rfl, onChip_pending s _⟩

end Sys2Proof.Machine

open Sys2Proof.Machine in
/-- Settles O57, by the commands: a well-formed one is an operation that leaves the queue alone, and an ill-formed one
is of one of three rows. -/
theorem everyCommandAnswers : Obligations.EveryCommandAnswers := by
  unfold Obligations.EveryCommandAnswers
  exact fun i s => ⟨exec_keepsQueue i s, exec_illFormed s⟩

/-- Settles O55: `step` takes the front command off the queue and runs it. -/
theorem stepRunsTheFrontCommand : Obligations.StepRunsTheFrontCommand := by
  unfold Obligations.StepRunsTheFrontCommand
  intro c rest s
  rfl
end

section
/-!
PROOFS. The part right after reset (O56): no register field is listed, so each reads the reset value of its table.
-/
namespace Sys2Proof.Machine

theorem getFi_reset (X : Fld) (n i : Nat) : getFi Chip.reset X n i = rstAt X n i := rfl

/-- A field with one reset value for all its words reads it on every page. -/
theorem getFi_reset_const {X : Fld} (n i : Nat) (h : X.rk = .const) : getFi Chip.reset X n i = X.rst := by
  rw [getFi_reset, rstAt, h]

theorem getF_reset_const {X : Fld} (n : Nat) (h : X.rk = .const) : getF Chip.reset X n = X.rst := getFi_reset_const n 0 h

theorem inL0_reset (p : Nat) : inL0 Chip.reset p = false := by
  rw [inL0, linkState, getF_reset_const p rfl]
  rfl

theorem inI3c_reset (k : Nat) : inI3c Chip.reset k = false := by
  rw [inI3c, isF, getF_reset_const k rfl]
  rfl

theorem brgPortOf_reset (k : Nat) : brgPortOf Chip.reset k = BrgPort.idle := by
  unfold brgPortOf
  split <;> rfl

end Sys2Proof.Machine

open Sys2Proof.Machine in
/-- Settles O56, field by field from the tables' reset values, and part by part from `Chip.reset`. -/
theorem resetState : Obligations.ResetState := by
  unfold Obligations.ResetState
  refine ⟨rfl, rfl, rfl, rfl, fun _ => rfl, rfl, rfl, rfl, rfl, ?_⟩
  refine ⟨getF_reset_const 0 rfl, getF_reset_const 0 rfl, getF_reset_const 0 rfl, getF_reset_const 0 rfl,
    getF_reset_const 0 rfl, getF_reset_const 0 rfl, getFi_reset BRG_WRANGE_BASE 0 0, getFi_reset BRG_WRANGE_POSTED 0 1,
    getF_reset_const 0 rfl, getF_reset_const 0 rfl, getF_reset_const 0 rfl, ?_⟩
  refine ⟨fun k => ⟨getF_reset_const k.val rfl, getF_reset_const k.val rfl⟩, fun g => getF_reset_const g.val rfl,
    fun p => ⟨getF_reset_const p.val rfl, getF_reset_const p.val rfl, inL0_reset p.val⟩,
    fun n => ⟨getF_reset_const n.val rfl, getF_reset_const n.val rfl⟩, ?_⟩
  refine ⟨rfl, rfl, rfl, rfl, rfl, rfl, rfl, rfl, rfl, fun k => ⟨inI3c_reset k.val, ?_⟩⟩
  rw [brgPortOf_reset]
  exact ⟨rfl, rfl⟩
end

section
/-!
PROOFS. The planes beside the data plane (O60): a command of the data plane is a change of the part alone, and the
change keeps them, by the rules of Laws/Plane.lean.
-/
namespace Sys2Proof.Machine

/-- A well-formed command of the data plane changes the part alone, and keeps the other planes. The cases follow the way
its effect is reached: by a register write that the path may be refused, under a valid VAUX, with what goes on after it
(`settle`), or at once. -/
theorem exec_dataPlane {i : Instr} (s : State) (h : dataPlane i = true) (hw : wellFormed i = true) :
    ∃ f, exec i s = .next (onChip s f) ∧ ∀ c, (f c).plane = c.plane := by
  cases i with
  | marksFlitReceive p check recs => exact ⟨_, if_pos hw, effMarksReceive_plane p.val check recs⟩
  | slpReqWrite src n req =>
    cases src with
    | some pa => exact ⟨_, rfl, fun c => reachReg_plane _ _ _ _ _ c (softReq_plane n.val req)⟩
    | none => exact ⟨_, rfl, fun c => onVaux_plane _ c (portReq_plane n.val req)⟩
  | laneFreeze | lanePowerDown | refselWrite | loopbackEnter | loopbackExit | generatorEnable | checkerEnable
  | marginGo | lnkRetrain | pairSplitWrite | widthChangeGo | portEnable | portDisable | removeReq | xbrPmodeWrite
  | bndDiscard | bndCommit | bndDrainTgtWrite | mapRun | mapInit | mapRebuild | mapRingRead | mrkEnable
  | carDevBind | carRingRead | evacAbort | rolProbe | rolParkHwClr | sltDrain | sltOccHwClr | tenEnable
  | tenDisable | tenFreeze | tenThaw | tenReset | tenCmdBadOp | tenLossClr | shaperSlotWrite | slpCfgEn
  | slpPeakClr =>
    exact ⟨_, rfl, fun c => reachReg_plane _ _ _ _ _ c (by simp)⟩
  | presenceQualified | presenceRemoval | rampAdmit | gateFull | pgQualified | limitOnset | limitEnd
  | faultTimerExpiry | rampTimeout | fastTrip | cooldownEnd | railGoodEnd | railGoodReturn | retryClear
  | slpFetShort =>
    exact ⟨_, rfl, fun c => onVaux_plane _ c (by simp)⟩
  | memRd | memWr | memInv | atomicOp | deviceCompletion | lineLockRelease | slateWaitResume | shaperRelease =>
    exact ⟨_, rfl, fun c => (settle_plane _).trans (by simp)⟩
  | linkTrain | linkL0 | trackingUpdate | floatingTapReeval | phyAdaptSat | phyCdrLoss | phyRefclkLoss
  | phyPllUnlock | phyRefPpm | loopbackFeSignal | loopbackFollower | phyChkLoss | marginDone | pcieMarginCommand
  | flitReceive | nakReceive | ackSend | ackReceive | creditReturnSend | retrainSpentClear | linkRecovery
  | linkDown | partnerHotReset | trunkLockTmrExpiry | failoverResendReceive | failbackHoldExpiry | bucketMove
  | widthChangeDone | marksFlitSend | marksRecordAgeDrop | perstRelease | hotaddLinkTimeout | memoryActive
  | deviceActiveTimeout | prtCplTmo | attentionButton | prtProtoErr | slotControlWrite | packetArrival
  | schedulerSlot | stallTimerExpiry | lateRemainder | windowWrite | commitWaitTimeout | commitApply
  | dcAddResponse | dcRelease | dcGetExtentList | dcEventRecordPlace | bndDrained | mapPlace | mapMove | mapFree
  | mapAbort | mapSetlost | mapRetire | mapRead | mapCmdBadOp | mapFlip | mapAbortRewrite | mapInitDone | mapScrub
  | mapRebuilt | mapMissFill | mapPlaceTimeout | ringItemPlace | mrkTermEnd | mrkSweepDone | rakSlotAssign
  | rakLineCopy | rakDstFail | rakSrcWaitExpiry | rakSrcResume | rakSlotFree | tenJobSubmit | tenJobStart
  | tenJobChunk | healthPoll | carHealthFail | carePassStart | carPassDone | mend | twstaleRescan | lostWaitExpiry
  | evacTimeout | birspReceive | biconflictReceive | rolSnpTimeout | rolScrubDone | slateAgeDrain
  | slateDrainComplete | bell | bellComplete | bellLimit | sltDrainDone | lostLinePoisonWrite | tenFreezeComplete
  | tcSelfReset | controlPageAccess | tcLossClr | bucketRefill | hvInValid | hvInLost | phyPllRelock | cdrRelock
  | checkerLock | orphanScanDone | clearEventRecords | hdmDecoderProgram =>
    exact ⟨_, rfl, by simp⟩
  | _ => cases h

end Sys2Proof.Machine

open Sys2Proof.Machine in
/-- Settles O60: a well-formed command answers with the change of `exec_dataPlane`, an ill-formed one with no state. -/
theorem dataPlaneTouchesNoOtherPlane : Obligations.DataPlaneTouchesNoOtherPlane := by
  unfold Obligations.DataPlaneTouchesNoOtherPlane
  intro i s t hi ht
  cases hw : Sys2Proof.wellFormed i with
  | false => rw [exec_illFormed s hw] at ht; cases ht
  | true =>
    obtain ⟨f, hf, hkeeps⟩ := exec_dataPlane s hi hw
    rw [hf] at ht
    cases ht
    exact hkeeps s.chip
end

section
/-!
PROOFS. The tile map (O30, O31, O32): each of the statements fails, at a state that its premises let in. The three states
share a part whose map runs with one entry in its cache.
-/
namespace Sys2Proof.Machine

/-- Every stage has started and the map runs over a pool of POOL_U = u, with entry e of tile n cached, the first of its
line, and zeros beside it. -/
def mapHolding (u n : Nat) (e : Entry) : State :=
  onChip State.reset fun c => setF MAP_STAT_RUNNING 0 1 (setF MAP_CFG_POOL_U 0 u
    { c with pwr := { c.pwr with done := 0x7FFF },
             map := { c.map with cache := [(mapLineOf n,
               { e := [e, Entry.zero, Entry.zero, Entry.zero], stamp := 0, unwritten := [] })] } })

/-- A single tile on its way to device tile 0 of port 0, for heat. -/
def movingSingle : Entry := { Entry.zero with state := 2, reason := 1 }

/-! ### ABORT, and the second MOVE of a heat move (10_placement.md R335) -/

theorem exec_mapAbort (i : MapIface) (cw : CopyWrites) (s : State) :
    exec (.mapAbort i cw) s = .next (onChip s (mapCmd i 4 cw)) := rfl

/-- Tile 0 moves while a second heat MOVE of it is due: the first one flipped while the tile was a twin, a MOVE with
REASON 6 has ended the twin since (R636), and another MOVE is under way. -/
def abortOwingSecond : State :=
  onChip (mapHolding 1 0 movingSingle) fun c =>
    { c with rak := { c.rak with pending := [0] },
             mrk := { c.mrk with secondMove := [{ tile := 0, dest := 0, due := true, cw := noWrites }] } }

theorem mapAbort_forgetsSecond : (mapCmd .software 4 noWrites abortOwingSecond.chip).mrk.secondMove = [] := by decide

/-! ### A flip, and the lines that its slot found poisoned (11_media_care.md R380) -/

theorem exec_mapFlip (u : Tile) (cw : CopyWrites) (s : State) :
    exec (.mapFlip u cw) s = .next (onChip s (effMapFlip u.val cw)) := rfl

/-- The slot of tile 0's move with every line copied, of which line 5 is to be mended after the flip. The premises let the
tile be single and leave open what the slot has found, though only a twin's copy records such lines. -/
def copiedSlot : RakSt :=
  { work := .move 0, c := 32768, claimed := 32768, waitSrc := false, stopping := false, dstFailed := false,
    flipAsked := false, bad := [5] }

/-- Tile 0 may flip to port 0, which device page 0 cares for. -/
def flipOwingMend : State :=
  onChip (mapHolding 1 0 movingSingle) fun c => setF CAR_DEV_CFG_EN 0 1
    { c with rak := { c.rak with pending := [0], slots := [(0, copiedSlot)] } }

theorem mapFlip_queuesMend : (effMapFlip 0 noWrites flipOwingMend.chip).car.mends = [{ line := 5, bad := false }] := by
  decide

/-! ### A tile number that the form's TILE field cannot hold (09_tile_map.md R299, R317) -/

theorem exec_mapRingRead (pa : Path) (ch : Option PlaceChoice) (s : State) :
    exec (.mapRingRead pa ch) s = .next (onChip s (reachReg pa .map 0 0x060 (effRingRead pa ch))) := rfl

/-- A PLACE item for tile 2^29, and device tile 9 of port 0 as its choice. -/
def wideItem : RingItem := { kind := 0, tile := 2 ^ 29, loc := 0 }
def wideChoice : PlaceChoice := { a := { port := 0, dtile := 9 }, b := { port := 0, dtile := 0 }, cw := noWrites }

/-- POOL_U is 8,193, which its 14 bits hold though no write sets it, so that tile 2^29 lies in the pool. The prefects run,
pan 0 is enabled, and the device on port 0 is READY with free tiles. -/
def placeWide : State :=
  onChip (mapHolding 8193 (2 ^ 29) Entry.zero) fun c =>
    setF SEC_STAT_PFX_OK 0 1 (setF MRK_PAN_CFG_EN 0 1 (setF PRT_CFG_EN 0 1 (setF PRT_CFG_PERS 0 2 (setF PRT_DEV_RESULT 0 1
      (setF PRT_DEV_CAP_TILES 0 65536 { c with map := { c.map with ring := [wideItem] } })))))

/-- The form's TILE field takes 29 bits of the number, so the command places tile 0 and the item's tile stays UNPLACED. -/
theorem mapRingRead_leavesWideTile :
    cachedEntry (reachReg .core .map 0 0x060 (effRingRead .core (some wideChoice)) placeWide.chip) (2 ^ 29) =
      some Entry.zero := by
  decide

end Sys2Proof.Machine

open Sys2Proof.Machine in
/-- Refutes O30: the ABORT of a tile's move also forgets the second heat MOVE that the tile owes (R335), a change of `mrk`
that the statement's frame leaves out and that no premise on `secondMove` rules out. -/
theorem not_mapCommands : ¬ Obligations.MapCommands := by
  unfold Obligations.MapCommands
  intro h
  obtain ⟨-, -, -, habort, -⟩ := h
  obtain ⟨t, ht, -, -, -, -, -, hkeeps, -⟩ := habort .software noWrites movingSingle abortOwingSecond
    ⟨by decide, by decide, by decide, by decide, rfl, rfl, rfl, by decide, by decide, rfl, by decide⟩ rfl rfl
  obtain rfl := Host.Outcome.next.inj ((exec_mapAbort ..).symm.trans ht)
  have hmrk : (mapCmd .software 4 noWrites abortOwingSecond.chip).mrk = abortOwingSecond.chip.mrk :=
    hkeeps .mrk (by decide)
  exact List.cons_ne_nil _ _ ((congrArg Mrk.secondMove hmrk).symm.trans mapAbort_forgetsSecond)

open Sys2Proof.Machine in
/-- Refutes O31: the flip queues a mend for a line that its slot found poisoned, where the destination's port is cared for
(R380), a change of `car` that the statement's frame leaves out and that no premise on the slot's `bad` rules out. -/
theorem not_mapFlipsAndCopies : ¬ Obligations.MapFlipsAndCopies := by
  unfold Obligations.MapFlipsAndCopies
  intro h
  obtain ⟨hflip, -⟩ := h
  obtain ⟨t, ht, -, -, -, -, hkeeps, -⟩ := hflip 0 noWrites movingSingle 0 copiedSlot flipOwingMend (by decide) (by decide)
    rfl rfl rfl rfl (by decide) rfl (by decide) rfl rfl rfl rfl rfl rfl (by decide) (by decide)
  obtain rfl := Host.Outcome.next.inj ((exec_mapFlip ..).symm.trans ht)
  have hcar : (effMapFlip 0 noWrites flipOwingMend.chip).car = flipOwingMend.chip.car := hkeeps .car (by decide)
  exact List.cons_ne_nil _ _ (mapFlip_queuesMend.symm.trans (congrArg Car.mends hcar))

open Sys2Proof.Machine in
/-- Refutes O32: in a pool of more than 2^29 tiles, a PLACE item can name a tile that the form's 29-bit TILE field does not
hold, and the prefects' command then places another tile; no premise keeps POOL_U within R317's 1 to 8,192. -/
theorem not_mapMissesAndRing : ¬ Obligations.MapMissesAndRing := by
  unfold Obligations.MapMissesAndRing
  intro h
  obtain ⟨-, -, -, -, -, hplace, -⟩ := h
  obtain ⟨t, ht, -, -, hentry, -⟩ := hplace .core wideItem wideChoice placeWide (by decide) (by decide) rfl rfl (by decide)
    (by decide) (by decide) (by decide) (by decide) (by decide) (by decide) (by decide) (by decide) rfl rfl rfl (by decide)
  obtain rfl := Host.Outcome.next.inj ((exec_mapRingRead ..).symm.trans ht)
  have hzero : some Entry.zero = some { Entry.zero with state := 1, loc0 := wordOf wideChoice.a } :=
    mapRingRead_leavesWideTile.symm.trans hentry
  exact absurd hzero (by decide)
end
